-- ==== Sys2Proof/Word.lean ====
section
/-! DEFINITION. The words of the block and the shape of a register field (R9, R10). -/

namespace Sys2Proof

/-- A register word: every register is 32 bits wide (R9). -/
abbrev Word := BitVec 32

/-- A byte of memory, of a frame or of an image. -/
abbrev Byte := BitVec 8

/-- The eight access codes of R10. -/
inductive Acc where
  | rw | rwa | rwv | ro | roc | wo | w1 | rwk
  deriving DecidableEq, Repr

/-- One field of one register or table entry, as a register table of spec/ gives it: the word's address, the
low bit, the width, the access code (R10), the Default column (R11), the least and greatest value the block acts
on, whether a settings image may supply it (R11), whether a counter saturates (R26) and whether the metrology
seal holds it (R316). -/
structure Field where
  addr : Nat
  lo : Nat
  width : Nat
  acc : Acc
  dflt : Nat
  least : Nat
  most : Nat
  img : Bool
  sat : Bool
  sealed : Bool
  deriving DecidableEq, Repr

/-- A run of like registers: the words at base + s1·i + s2·j for i < n1 and j < n2, and the fields of each. -/
structure RegDesc where
  base : Nat
  n1 : Nat
  s1 : Nat
  n2 : Nat
  s2 : Nat
  pair : Nat
  fields : Nat → Nat → List Field

end Sys2Proof
end

