-- ==== Sys2Proof/Syntax.lean ====
section
/-! DEFINITION. The commands of the block: one constructor of `Instr` for each row of the table of operations.
An operand is what comes from outside the part with the command: the master and the word of a bus access, the
bytes of a frame, a pin level, a measured time, or the pass or fail of something physical. -/

namespace Sys2Proof

/-- The two masters of the register fabric (R22). -/
inductive Master where
  | mc | host
  deriving DecidableEq, Repr

/-- One access on the register fabric: `size` is its width in bytes (R29, R30). -/
structure Access where
  master : Master
  addr : Nat
  size : Nat
  data : Nat
  deriving DecidableEq, Repr

/-- A frame as the MAC receives it: the bytes without preamble and FCS, whether the FCS was good, and how long
before the command, in 1/16 ns, the first bit after its start-of-frame delimiter crossed the PCS boundary (R101,
R112). -/
structure RxFrame where
  bytes : List Byte
  fcsOk : Bool
  ago : Nat
  deriving DecidableEq, Repr

/-- What one servo update brings (R91, R92, R94, R96): the source 1–4 whose Sync, frame or pulse it follows; for a PTP domain
the measured offset in ns as a correction, positive when the counter is behind; the frequency estimate as an increment in
2^-32 ns; whether an Announce has come, the measured peer delay, grandmaster identity and clockClass, stated inaccuracy
in ns, currentUtcOffset when flagged valid, and leap 0 none, 1 leap61, 2 leap59. `filt` is the filtered offset's magnitude; the
last three are the domain's announce, sync and peer-delay intervals in ns. -/
structure ServoMeas where
  source : Nat
  offset : Int
  inc : Nat
  filt : Nat
  announce : Bool
  peer : Option Nat
  gm : Nat
  gmClass : Nat
  uncert : Nat
  utcOfs : Option Nat
  leap : Nat
  annNs : Nat
  syncNs : Nat
  peerNs : Nat
  deriving DecidableEq, Repr

/-- A decoded IRIG-B frame (R99, R109): how long before the command, in 1/16 ns, its reference marker's edge came; its time as
seconds since 1970 in the time it carries; whether it has IEEE 1344 bits, and its parity; the IEEE 1344 time offset to
UTC in seconds, time-quality code, and leap as above; TAI − UTC where it gives one. -/
structure IrigFrame where
  ago : Nat
  sec : Nat
  ext : Bool
  parityOk : Bool
  offset : Int
  quality : Nat
  leap : Nat
  ofs : Option Nat
  deriving DecidableEq, Repr

/-- Where a C37.118 command frame comes from (R284): the IDCODE it carries, the client's IPv4 address and port, whether it
came over a TCP session, the port it arrived on and the MAC address it came from. -/
structure CmdFrom where
  idcode : Nat
  ip : Nat
  sport : Nat
  tcp : Bool
  port : Nat
  mac : Nat
  deriving DecidableEq, Repr

/-- A control cell of the Zorper link (R349): the partner's serial number and announced claim, the claim it
acknowledges, a pair decision for a context (R144), its RED_SETCRC, and which lanes carried it. -/
structure ZlCell where
  crcOk : Bool
  serial : Nat
  claim : Nat
  ack : Option Nat
  setcrc : Nat
  deriving DecidableEq, Repr

/-- A health report (R359). -/
structure AuditReport where
  serial : Nat
  sec : Nat
  ns : Nat
  result : Nat
  skip : Nat
  alignDiff : Bool
  health : Nat
  claim : Nat
  lanes : Nat
  laneCount : Nat
  seq : Nat
  digest : Nat
  deriving DecidableEq, Repr

/-- The commands that may be given to the part, in the order of the table. -/
inductive Instr where
  /-- PORST_ASSERT (R390): PORST_N is driven low; outputs are held in their reset states until start-up reaches step 13. -/
  | porstAssert
  /-- PORST_RELEASE (R49): Release of PORST_N starts the start sequence at step 1. -/
  | porstRelease (pd0Lost : Bool)
  /-- RST_RELEASE (R49): Release of RST_N resets PD1–PD7 and restarts the start sequence at step 3, leaving PD0 untouched. -/
  | rstRelease
  /-- IRC_STABLE (R49): The IRC becomes stable in step 3, and the start sequence proceeds. -/
  | ircStable (us : Nat)
  /-- IRC_START_TIMEOUT (R49): The IRC has not started within 200 µs; the PD0 watchdog holds reset and logs cause 0x0102. -/
  | ircStartTimeout
  /-- IRC_RESTART (R49): 10 ms after an IRC start failure, the IRC is restarted from step 3. -/
  | ircRestart
  /-- STRAP_SAMPLE (R48): 16 IRC cycles after the IRC is stable, the strap pins are sampled into SYS_STRAP. -/
  | strapSample (xdly : Nat) (mode : Nat) (pos : Nat)
  /-- REF_START_DELAY_END (R49): The XDLY start delay counted on the IRC expires; the clock monitor is armed. -/
  | refStartDelayEnd
  /-- MONITOR_WINDOW_END (R67): A 500-IRC-cycle window of the clock monitor ends; the edge count is judged and may trip fail-over. -/
  | monitorWindowEnd (count : Nat)
  /-- MISSING_EDGE_TRIP (R68): No reference edge has arrived for 4 IRC cycles, or the delay line expires, and the monitor trips. -/
  | missingEdgeTrip
  /-- PLL_LOCK (R49): The root PLL locks to the reference, and the boot ROM runs steps 8–13. -/
  | pllLock (us : Nat) (bootUs : Nat) (failed : Nat)
  /-- PLL_LOCK_TIMEOUT (R50): The PLL has not locked after its retry; CLKFAIL is set and the device enters limited service on the IRC. -/
  | pllLockTimeout
  /-- LIMITED_SERVICE_RETRY (R50): Each second in limited service the reference is retried, and on success start-up resumes at step 12. -/
  | limitedServiceRetry (ok : Bool) (failed : Nat)
  /-- SYS_START_GO (R52): In held mode, a write of 1 to SYS_START.GO releases the strobe of step 13. -/
  | sysStartGo (m : Master)
  /-- LOCKWAIT_EXPIRY (R64): LOCKWAIT seconds have passed since step 13 without time lock. -/
  | lockwaitExpiry
  /-- SERVICE_START (R64): At the first slot time with lock or wait satisfied, service starts and event 0xD080 is recorded. -/
  | serviceStart
  /-- FALLSTART_COMPLETE (R74): The IRC becomes stable after a pending fail-over; the forced path completes and FALLSTART is set. -/
  | fallstartComplete (cycles : Nat)
  /-- FAILOVER_IRC_TIMEOUT (R74): The IRC is not stable within 7 PD0 clock periods during fail-over; the watchdog resets the device. -/
  | failoverIrcTimeout
  /-- IRC_RELOCK_DONE (R72): The root PLL locks to the IRC after fail-over; the domains return to the tree and slot work resumes. -/
  | ircRelockDone (us : Nat)
  /-- IRC_TRIM (R69): Once per second, with the reference good, the IRC is trimmed against it. -/
  | ircTrim (code : Nat)
  /-- CLK_SW_RETURN_REF (R73): CLK_SW 0b01 moves the domains through IRC-direct, relocks the PLL to the reference, and returns. -/
  | clkSwReturnRef (m : Master)
  /-- CLK_SW_IRC_DIRECT (R75): CLK_SW 0b10 moves the domain clocks to IRC-direct through the glitch-free multiplexers. -/
  | clkSwIrcDirect (m : Master)
  /-- CLK_SW_PLL_ON_IRC (R75): CLK_SW 0b11 moves the domains to the PLL locked on the IRC. -/
  | clkSwPllOnIrc (m : Master)
  /-- CLOCK_SWITCH_COMPLETE (R75): A commanded multiplexer change completes, and event 0x0005 is recorded. -/
  | clockSwitchComplete (cycles : Nat)
  /-- GATE_CLOSE (R77): A quiesced unit with no demand has its clock gate closed. -/
  | gateClose (unit : Nat)
  /-- QUIESCE_TIMEOUT (R77): A unit fails to quiesce within 64 fabric cycles; its access is aborted, the gate is forced, and event 0x0011 is recorded. -/
  | quiesceTimeout (unit : Nat) (addr : Nat) (m : Master) (write : Bool)
  /-- DOMAIN_SWITCH_STEP (R78): A power domain completes switching on or off in the ordered sequence. -/
  | domainSwitchStep (ok : Bool)
  /-- HIBERNATE (R81): A write of 0x0000_A501 to PWR_HIB copies metering and switches PD7 to PD1 off. -/
  | hibernate (m : Master) (v : Nat)
  /-- RTC_ALARM_WAKE (R82): The RTC reaches PWR_WAKE_SEC with the main supplies in range, and the device wakes from step 3. -/
  | rtcAlarmWake (supplies : Bool)
  /-- WATCHDOG_TIMEOUT (R83): No heartbeat arrives for 525 PD0 clock periods; the watchdog resets PD1–PD7. -/
  | watchdogTimeout
  /-- PFAIL_ASSERT (R84): PFAIL_N low for 1 µs stops metering accumulation, holds PLS_OUT low and starts the retention copy. -/
  | pfailAssert
  /-- PFAIL_COPY_DONE (R84): The retention copy completes, setting COPY_DONE and logging cause 0x0108. -/
  | pfailCopyDone (us : Nat)
  /-- PFAIL_RELEASE (R85): PFAIL_N has been high for 10 ms with the supplies in range; accumulation resumes and the pause is a gap. -/
  | pfailRelease
  /-- REGISTER_WRITE (R10): A write to a register that has no row of its own takes effect according to its access code. -/
  | registerWrite (a : Access) (other : Option Access)
  /-- BLK_CLR (R25): Writing CLRCNT clears every ROC counter of the block, with the clear applied before a same-cycle count. -/
  | blkClr (m : Master) (blk : Nat) (counted : List Field)
  /-- BLK_LOCK (R25): Writing 1 to a block's LOCK locks its RWK fields. -/
  | blkLock (m : Master) (blk : Nat) (v : Nat)
  /-- TABLE_READ (R28): TP_CMD 0b01 reads the named table entry into the port buffer. -/
  | tableRead (m : Master) (blk : Nat)
  /-- TABLE_WRITE (R28): TP_CMD 0b10 writes the port buffer into the named table entry. -/
  | tableWrite (m : Master) (blk : Nat)
  /-- TABLE_COMMAND_DONE (R28): A table-port command completes, and BUSY clears. -/
  | tableCommandDone (m : Master) (blk : Nat)
  /-- PAIR_LOW_READ (R31): A 32-bit read of a pair's low word latches the high word into the master's shadow. -/
  | pairLowRead (a : Access)
  /-- APPLY_STROBE (R35): A write to SYS_APPLY copies the buffers of the strobed blocks into pending copies. -/
  | applyStrobe (m : Master) (mask : Nat)
  /-- APPLY_TAKE_EFFECT (R35): A block moves its pending copy into its active values, at the next slot time or within 4 cycles. -/
  | applyTakeEffect (blks : Nat)
  /-- VOTE_SWEEP (R37): The 1 ms background sweep compares every voted field. -/
  | voteSweep
  /-- NMI_ACK (R40): A write to SYS_NMI_ACK clears the acknowledged NMI cause bits. -/
  | nmiAck (m : Master) (mask : Nat) (again : Nat)
  /-- PCIE_LINK_CHANGE (R42): The PCIe link, width or speed changes, and event 0xD060 is recorded. -/
  | pcieLinkChange (up : Nat) (width : Nat) (speed : Nat)
  /-- QSPI_READ (R44): QSPI command 0xA1 reads words from consecutive fabric addresses. -/
  | qspiRead (addr : Nat) (words : Nat)
  /-- QSPI_WRITE (R44): QSPI command 0xA2 writes words to consecutive fabric addresses. -/
  | qspiWrite (addr : Nat) (data : List Nat)
  /-- QSPI_STATUS (R44): QSPI command 0xA5 returns the status byte and clears ERR. -/
  | qspiStatus
  /-- QSPI_WORD_DISCARD (R44): Chip select raised within a word discards it, with event 0xD070. -/
  | qspiWordDiscard (addr : Nat) (cmd : Nat) (clocks : Nat)
  /-- DP_DATA_READ (R46): A read of HST_DP_DATA returns the word at ADDR and advances ADDR, or latches a pair. -/
  | dpDataRead (ecc : Bool)
  /-- DP_DATA_WRITE (R46): A write of HST_DP_DATA writes at ADDR and advances ADDR, or holds and applies a pair. -/
  | dpDataWrite (v : Nat)
  /-- DP_BURST_READ (R47): HST_DP_CMD 0b01 copies BLEN words into the window, or is refused with RANGE. -/
  | dpBurstRead
  /-- DP_BURST_WRITE (R47): HST_DP_CMD 0b10 writes BLEN window words to ADDR, or is refused. -/
  | dpBurstWrite
  /-- DP_BURST_ABORT (R47): HST_DP_CMD 0b11 ends a burst at a word boundary. -/
  | dpBurstAbort (moved : Nat)
  /-- DP_BURST_DONE (R47): A burst completes, and READY is set for a read. -/
  | dpBurstDone (ecc : List Nat)
  /-- TNS_INC_WRITE (R87): A write to TNS_INC takes effect at the next tick, clamped to TNS_INC_LIM. -/
  | tnsIncWrite (m : Master) (lo : Option Nat) (hi : Option Nat)
  /-- TIME_SNAPSHOT (R89): A write to TNS_SNAP captures the counter, epoch, quality and IRC flag for the writing master. -/
  | timeSnapshot (m : Master)
  /-- SERVO_UPDATE (R94): The servo measures the active source's offset, writes TNS_INC and advances the servo state. -/
  | servoUpdate (x : ServoMeas)
  /-- SLEW_END (R105): The slewed correction has been absorbed, and TNS_INC returns to the estimate. -/
  | slewEnd
  /-- SOURCE_TIMEOUT (R92): A source's Announce, Sync, delay response, frame or pulse times out, and it becomes invalid. -/
  | sourceTimeout (src : Nat)
  /-- REVERT_EXPIRY (R93): A higher-priority source has stayed valid for REVERT seconds and is selected. -/
  | revertExpiry
  /-- HOLDOVER_EXPIRY (R94): HOLD_MAX seconds in HOLDOVER pass, and the state becomes EXPIRED. -/
  | holdoverExpiry
  /-- DOMAIN_TRANSFER (R97): A write of 1 to TNS_XFER transfers TNS_INC_ALT and the standby domain becomes active. -/
  | domainTransfer (m : Master)
  /-- PPS_IN_EDGE (R98): A PPS_IN active edge is stamped and corrected, or rejected. -/
  | ppsInEdge (ago : Nat) (width : Nat)
  /-- IRIGB_FRAME (R99): A complete IRIG-B frame is used with the stamp of its reference marker, or rejected. -/
  | irigbFrame (f : IrigFrame)
  /-- PPS_OUT_EDGE (R100): The top of a TAI second less ADV falls due, and PPS_OUT goes to its active level. -/
  | ppsOutEdge
  /-- PPS_OUT_END (R100): WIDTH ms after the edge, PPS_OUT returns to its inactive level. -/
  | ppsOutEnd
  /-- TIME_STEP_FORWARD (R106): A positive TNS_STEP_CMD advances the counter, and every instant passed over falls due on that tick. -/
  | timeStepForward (m : Master)
  /-- TIME_STEP_BACKWARD (R107): A negative TNS_STEP_CMD steps the counter back, increments the epoch and aborts open slots. -/
  | timeStepBackward (m : Master)
  /-- LEAP_SECOND (R109): At the end of the UTC day a pending leap second changes TNS_UTC.OFS and toggles the flag. -/
  | leapSecond
  /-- TSQ_POP (R103): A write of 1 to TNS_TSQn_POP removes the head entry of the time-stamp queue. -/
  | tsqPop (m : Master) (n : Nat)
  /-- LINK_UP (R402): The PCS acquires the partner's signal and auto-negotiation completes, and the port reports link up. -/
  | linkUp (n : Nat) (speed : Nat)
  /-- LINK_DOWN (R111): A port's link drops; frames being received fail their FCS and transmit frames are dropped. -/
  | linkDown (n : Nat) (receiving : Bool)
  /-- SREF_CHANGE (R110): A SerDes reference is lost or returns; its ports report link state and event 0x2004 is recorded. -/
  | srefChange (k : Nat) (ok : Bool) (rx : Nat)
  /-- FRAME_RECEIVED (R112): A frame's last byte is received, and it is admitted into the ingress FIFO or dropped and counted. -/
  | frameReceived (n : Nat) (f : RxFrame)
  /-- PAUSE_FRAME (R115): A PAUSE frame is counted and, if honoured on a trunk port, starts, replaces or cancels a pause. -/
  | pauseFrame (n : Nat) (quanta : Nat)
  /-- PAUSE_EXPIRY (R116): The pause time runs out, and transmission resumes. -/
  | pauseExpiry (n : Nat)
  /-- LPI_ENTRY (R117): The transmit side has been idle for EEE.IDLE µs, and the port sends low-power idle. -/
  | lpiEntry (n : Nat)
  /-- FIFO_FLUSH (R125): A write of 1 to NET_Pn_FLUSH discards complete frames and swallows any frame in reception. -/
  | fifoFlush (m : Master) (n : Nat) (receiving : Bool)
  /-- FLUSH_COMPLETE (R125): The end marker of the swallowed frame arrives, FLUSH_DONE is set, and event 0x2022 is recorded. -/
  | flushComplete (n : Nat) (words : Nat)
  /-- FLUSH_FORCED (R125): 1,024 producer cycles pass without an end marker; the receive MAC is reset. -/
  | flushForced (n : Nat) (words : Nat)
  /-- FRAME_TRANSMIT (R126): A whole frame in the transmit buffer leaves on the line with checksums inserted. -/
  | frameTransmit (n : Nat) (ofs : Nat)
  /-- COLLISION (R127): A field port detects a collision, sends a jam and backs off, or drops the frame. -/
  | collision (n : Nat) (bit : Nat)
  /-- BACKOFF_EXPIRY (R127): The random backoff expires, and the frame is retried. -/
  | backoffExpiry (n : Nat)
  /-- BEACON_TIMEOUT (R129): A PLCA follower sees no BEACON for 4,000 bit times and falls back to CSMA/CD. -/
  | beaconTimeout (n : Nat)
  /-- BEACON_RECEIVED (R129): A BEACON restores PLCA, or a foreign BEACON at the coordinator counts in COL. -/
  | beaconReceived (n : Nat)
  /-- PARSE_FRAME (R134): The Parse unit reads an admitted frame whole, identifies it, checks and converts it, and places or routes it. -/
  | parseFrame (n : Nat)
  /-- CODED_FRAME_DECODED (R143): The Elision decode of a coded frame completes, and the result is parsed as a Lammar frame. -/
  | codedFrameDecoded (ue : Bool)
  /-- PAIR_CLAIM_TIMEOUT (R144): No frame from a pair member has arrived within TMO slot periods; its claim becomes 0x0000. -/
  | pairClaimTimeout (ctx : Nat)
  /-- PAIR_DECISION_RECEIVED (R144): A pair-acceptance decision arrives from the driving partner over the Zorper link. -/
  | pairDecisionReceived (ctx : Nat) (accept : Bool)
  /-- LANE_LOCK (R152): 16 consecutive frames with a valid sync violation lock a modulator lane. -/
  | laneLock (k : Nat) (rtd : Nat)
  /-- LANE_LOCK_LOSS (R152): 4 consecutive frames without sync lose the lane's lock, and a gap opens. -/
  | laneLockLoss (k : Nat)
  /-- LANE_FAULT_INTERVAL (R153): A 1 ms interval ends; PARMAX or more parity errors put the lane in fault, and fewer end the fault. -/
  | laneFaultInterval (k : Nat)
  /-- SAMPLE_INSTANT (R155): An output instant falls due; the stage-3 output at the next MCLK edge is filtered and delivered as sample words. -/
  | sampleInstant (frames : List Nat)
  /-- FIR_BANK_SELECT (R158): A write to ACQ_FIR_SEL.BANK selects the bank for the next sample. -/
  | firBankSelect (m : Master) (bank : Nat)
  /-- ACQ_SYNC (R159): A write of 1 to ACQ_SYNC arms a sync, which is performed at once for SRC 0b10. -/
  | acqSync (m : Master)
  /-- ACQ_SYNC_INSTANT (R159): The top of a TAI second falls due as the acquisition sync instant and performs an armed sync. -/
  | acqSyncInstant
  /-- SYNC_N_EDGE (R159): A qualified falling edge of SYNC_N performs an armed sync. -/
  | syncNEdge
  /-- SYNC_N_TIMEOUT (R159): No SYNC_N edge within 2 s of arming; the Tense instant is used with event 0x4011. -/
  | syncNTimeout
  /-- STATUS_INPUT_ACCEPT (R165): A status input level held for DEB µs is accepted and stamped with its first sample. -/
  | statusInputAccept (idx : Nat)
  /-- CHATTER_END (R166): The raw level of a chattering input has been stable for 1 s; suppression ends. -/
  | chatterEnd (idx : Nat) (raw : Bool)
  /-- PHASOR_GRID_POINT (R168): At each point of the 2,400/s grid, internal phasors and fast loss-of-mains phasors are formed. -/
  | phasorGridPoint (flags : List Nat)
  /-- VS_HOLD_EXPIRY (R180): VS_HOLD ms after the last qualifying point, the vector-shift flag falls. -/
  | vsHoldExpiry (d : Nat)
  /-- HOME_STREAM_COMPLETE (R174): A home-stream frame's last needed sample is consumed, and the frame is placed at marking. -/
  | homeStreamComplete (h : Nat) (flags : Nat)
  /-- SSO_UPDATE (R182): Every 100 ms, a sub-synchronous monitor takes its DFT, reports peaks and updates its flag. -/
  | ssoUpdate (m : Nat) (flags : Nat)
  /-- SLOT_OPEN (R189): A slot time falls due with its position free; the slot opens, its columns are set, and its points are computed. -/
  | slotOpen
  /-- SPECULATION_POINT (R191): A slot's speculation point falls due; it becomes SPECULATED and is passed to the scheduler. -/
  | speculationPoint
  /-- COMMIT_POINT (R191): A slot's commit point falls due; C is recorded and the slot is COMMITTING. -/
  | commitPoint
  /-- FREEZE (R195): Once no backlog stamped at or before C remains, the slot freezes, becomes INDICATIVE and is queued for evaluation. -/
  | freeze (port : Nat)
  /-- CCD_CFG_WRITE (R183): A run-time write to CCD_CFG or CCD_TBASE is judged and held for the next reset, or refused with event 0x5061. -/
  | ccdCfgWrite (m : Master) (a : Access)
  /-- SUBJUNCTIVE_EVALUATION_START (R214): With the subjunctive chain idle, the oldest new, dirty or chained speculated slot is queued for evaluation. -/
  | subjunctiveEvaluationStart
  /-- JOB_DISPATCH (R269): A free lane receives the first ready job of the group chosen by the pass rule. -/
  | jobDispatch
  /-- OUTLET_START (R266): The outlet port takes a slot's type 0x3 item and runs its outlets in order. -/
  | outletStart
  /-- OUTLET_COMPLETE (R198): The last outlet finishes with the slot. -/
  | outletComplete
  /-- LANE_JOB_COMPLETE (R268): A lane job completes with a residue-checked result. -/
  | laneJobComplete (lane : Nat) (flagged : Bool)
  /-- DIRECT_ALARM_TIMER (R257): A direct definition's ON_DUR or OFF_DUR expires, and its state changes. -/
  | directAlarmTimer (d : Nat)
  /-- ALM_HOLD_EXPIRY (R261): An ALM_OUT hold time ends. -/
  | almHoldExpiry (p : Nat)
  /-- ALARM_ACK (R260): A write to ANA_ALM_ACK clears the definition's LATCHED, with event 0x6032. -/
  | alarmAck (m : Master) (d : Nat)
  /-- FIRMWARE_SUBMIT (R267): SCH_SUB_CMD submits a type 0x7 item, which is accepted, delayed or refused. -/
  | firmwareSubmit
  /-- SELF_TEST_DUE (R266): Every SCH_STEST.MS ms a lane self-test item is queued for each lane in service. -/
  | selfTestDue
  /-- DELAY_RELEASE (R271): A delay-list entry falls due and queues its item or delivers its timer. -/
  | delayRelease
  /-- PUB_QUEUE_DRAIN (R282): A formed frame enters the port's transmit buffer as room appears. -/
  | pubQueueDrain (n : Nat)
  /-- PUB_AGE_DROP (R282): A subjunctive frame waits longer than PUB_MAXAGE and is dropped. -/
  | pubAgeDrop (n : Nat)
  /-- CMD_TRANSMISSION_OFF (R285): C37.118 command 0x0001 is collected for the stream's reporting period. -/
  | cmdTransmissionOff (c : CmdFrom)
  /-- CMD_TRANSMISSION_ON (R285): C37.118 command 0x0002 is collected for the stream's reporting period. -/
  | cmdTransmissionOn (c : CmdFrom)
  /-- CMD_SEND_HEADER (R284): Command 0x0003 returns a header frame to the requester. -/
  | cmdSendHeader (c : CmdFrom)
  /-- CMD_SEND_CFG1 (R284): Command 0x0004 returns CFG-1. -/
  | cmdSendCfg1 (c : CmdFrom)
  /-- CMD_SEND_CFG2 (R284): Command 0x0005 returns CFG-2. -/
  | cmdSendCfg2 (c : CmdFrom)
  /-- CMD_SEND_CFG3 (R284): Command 0x0006 returns CFG-3. -/
  | cmdSendCfg3 (c : CmdFrom)
  /-- CMD_EXTENDED_FRAME (R284): Command 0x0008 is ignored and counted in CMD_IGN. -/
  | cmdExtendedFrame (c : CmdFrom)
  /-- COMMAND_PERIOD_RESOLVE (R286): A reporting period's commands are resolved once R195 holds for its end, setting TXON. -/
  | commandPeriodResolve
  /-- TCP_SESSION_IDLE (R284): A command session idle for PUB_TCP.IDLE s is closed. -/
  | tcpSessionIdle (k : Nat)
  /-- INTEGRATION_STEP (R290): A 12 kS/s integration step is computed and counted for each metering point. -/
  | integrationStep (flags : Nat)
  /-- METER_RESULTS (R296): Every 200 ms, the display results of each point are updated. -/
  | meterResults (p : Nat)
  /-- FLOW_DATAGRAM (R298): A flow-computer datagram is checked whole and its records are handled, or it is refused. -/
  | flowDatagram (n : Nat)
  /-- TRANSFER_STALE (R300): A transfer point without a record for TMO s becomes STALE. -/
  | transferStale (t : Nat)
  /-- METER_SNAPSHOT (R302): A write of 1 to QTY_SNAP requests a snapshot at the next step boundary. -/
  | meterSnapshot (m : Master)
  /-- INTERVAL_CLOSE (R304): An interval boundary closes; the record is formed, the retention copy taken, and the record signed. -/
  | intervalClose
  /-- RECORD_POP (R308): A write of 1 to QTY_REC_POP removes the oldest unread interval record. -/
  | recordPop (m : Master)
  /-- MD_RESET (R309): A write to QTY_MD_RST clears a point's maximum demand. -/
  | mdReset (m : Master) (p : Nat)
  /-- PULSE_START (R310): A backlog pulse begins on PLS_OUT, or is withheld by the claim. -/
  | pulseStart (j : Nat)
  /-- PULSE_END (R310): A pulse's WIDTH expires, and the output goes inactive. -/
  | pulseEnd (j : Nat)
  /-- RETENTION_COPY (R312): The routine 1 s metering retention copy is written. -/
  | retentionCopy
  /-- SEAL_WRITE (R314): The first write of 1 to QTY_SEAL sets the metrology seal. -/
  | sealWrite (m : Master) (v : Nat)
  /-- MANUAL_TRIGGER (R321): A write to CAP_TRIG_MAN fires the named triggers. -/
  | manualTrigger (m : Master) (mask : Nat)
  /-- CAPTURE_RELEASE (R324): A write to CAP_REL frees a capture descriptor, or every complete one. -/
  | captureRelease (m : Master) (c : Nat)
  /-- CAP_POST_WRITE (R325): A write to CAP_POST is clamped to the capacity. -/
  | capPostWrite (m : Master) (v : Nat)
  /-- CAP_RDPTR_WRITE (R326): The host advances the streaming read pointer, or the write is refused. -/
  | capRdptrWrite (m : Master) (lo : Option Nat) (hi : Option Nat)
  /-- CAP_PART_WRITE (R317): A partition size write is held for reset, or refused with event 0x9040. -/
  | capPartWrite (m : Master) (addr : Nat) (v : Nat)
  /-- ARCHIVE_FIND (R329): A write to ARC_FIND starts a search for a slot serial. -/
  | archiveFind (m : Master) (serial : Nat)
  /-- ARCHIVE_FIND_DONE (R329): The search completes, and FOUND and the offset are set. -/
  | archiveFindDone
  /-- ELS_JOB_START (R332): ELS_J_CMD 0b01 queues a software compress or decompress job. -/
  | elsJobStart (m : Master)
  /-- ELS_JOB_RESUME (R332): ELS_J_CMD 0b10 requeues a paused job from its boundary. -/
  | elsJobResume (m : Master)
  /-- ELS_JOB_CANCEL (R332): ELS_J_CMD 0b11 cancels the job with ERR 7. -/
  | elsJobCancel (m : Master)
  /-- ELISION_JOB_END (R332): An Elision job completes, pauses at DST_CAP, or fails. -/
  | elisionJobEnd (ue : Bool)
  /-- EVENT_RECORD (R337): The recorder takes the head event of its input queue and writes a record. -/
  | eventRecord
  /-- RATE_WINDOW_END (R339): A rate-limit window ends, and suppression records 0xA001 are written. -/
  | rateWindowEnd
  /-- LOG_READ_SEQ (R340): A write to LOG_RD_SEQ copies that record into the master's window. -/
  | logReadSeq (m : Master) (seq : Nat)
  /-- LOG_READ_NEXT (R340): A write to LOG_RD_NEXT copies the next record into the window. -/
  | logReadNext (m : Master)
  /-- OBJECT_SELECT (R342): A write to LOG_OBJ_SEL copies the selected object into the result window. -/
  | objectSelect (m : Master) (idx : Nat)
  /-- OBJECT_CONFIGURE (R341): A write to LOG_OBJ_CFG, LO or WIDTH reconfigures the object and resets it. -/
  | objectConfigure (m : Master) (addr : Nat) (v : Nat)
  /-- RECORDER_CLEAR (R344): LOG_CLR_CMD checks the HMAC response and clears the scope, or refuses. -/
  | recorderClear (m : Master)
  /-- MIRROR_PROGRAM (R345): A queued critical record is programmed into the NOR mirror. -/
  | mirrorProgram (ok : Bool)
  /-- DEGRADED_ROW_TEST (R348): Once a second in degraded mode the failing row is tested, and after three passes the mode ends. -/
  | degradedRowTest (pass : Bool)
  /-- MEMORY_SCRUB (R363): The scrubber reads a memory word, corrects single errors and handles uncorrectable ones. -/
  | memoryScrub (mem : Nat) (addr : Nat) (err : Nat)
  /-- ZL_CONTROL_CELL (R349): A good Zorper control cell arrives carrying the partner's claim, acknowledgement or decision. -/
  | zlControlCell (c : ZlCell)
  /-- CLAIM_CELL_SEND (R349): At least every 1 µs, a control cell with the announced claim is sent. -/
  | claimCellSend
  /-- ZL_LINK_TIMEOUT (R350): No good cell for 4 µs takes the link down. -/
  | zlLinkTimeout
  /-- ZL_LANE_FAIL (R350): One Zorper lane fails, and the link continues on the other. -/
  | zlLaneFail (lane : Nat)
  /-- HEALTH_HOLDOFF_EXPIRY (R352): The health score has stayed unchanged for HOLDOFF s, and the rise is announced. -/
  | healthHoldoffExpiry
  /-- CLAIM_ACK_TIMEOUT (R353): ACK_TMO passes without acknowledgement, and the lower claim takes effect. -/
  | claimAckTimeout
  /-- AUDIT_SNAPSHOT_RECEIVED (R357): The standby stores and checks an audit snapshot and queues its recomputation. -/
  | auditSnapshotReceived (bytes : List Byte)
  /-- HEALTH_REPORT_RECEIVED (R359): The active receives the audit health report and applies its result. -/
  | healthReportReceived (r : AuditReport)
  /-- LANE_UNFENCE (R361): RED_LANE_CMD UNFENCE runs 64 self-tests and returns the lane, or keeps it fenced. -/
  | laneUnfence (m : Master) (v : Nat) (fails : Nat)
  /-- LC_TO_PROVISIONED (R366): KEY_LC_CMD 0x4C43_0001 moves the life cycle to provisioned. -/
  | lcToProvisioned (m : Master)
  /-- LC_TO_DEPLOYED (R366): KEY_LC_CMD 0x4C43_0002 moves the life cycle to deployed. -/
  | lcToDeployed (m : Master)
  /-- LC_TO_DECOMMISSIONED (R366): KEY_LC_CMD 0x4C43_0003 decommissions the device, with authorisation from deployed. -/
  | lcToDecommissioned (m : Master)
  /-- KEY_LOAD (R370): KEY_LD_CMD 0b001 loads a key checked by its KCV into a RAM slot. -/
  | keyLoad (m : Master)
  /-- KEY_LOAD_WRAPPED (R374): KEY_LD_CMD 0b010 unwraps and loads a device-key blob. -/
  | keyLoadWrapped (m : Master)
  /-- KEY_END_OVERLAP (R372): KEY_LD_CMD 0b011 ends the slot's overlap now. -/
  | keyEndOverlap (m : Master)
  /-- KEY_DESTROY (R370): KEY_LD_CMD 0b100 zeroises a RAM slot. -/
  | keyDestroy (m : Master)
  /-- KEY_WRAP_OUT (R374): KEY_LD_CMD 0b101 wraps the current key out as a blob. -/
  | keyWrapOut (m : Master)
  /-- KEY_PROGRAM_OTP (R370): KEY_LD_CMD 0b110 programs a public key into a blank OTP slot. -/
  | keyProgramOtp (m : Master)
  /-- KEY_OVERLAP_EXPIRY (R372): The overlap time expires, and the previous key is erased. -/
  | keyOverlapExpiry (slot : Nat)
  /-- KEY_MASK_REFRESH (R375): Every millisecond the key-share masks are redrawn and both shares rewritten. -/
  | keyMaskRefresh (bad : Option Nat)
  /-- OTP_REVOKE (R375): A write to KEY_OTP_REVOKE burns the REVOKED fuse of permitted slots. -/
  | otpRevoke (m : Master) (v : Nat)
  /-- STAGING_ERASE (R379): FWU_STG_CMD 0b001 erases the staging area and takes ownership. -/
  | stagingErase (m : Master)
  /-- STAGING_WRITE (R379): FWU_STG_CMD 0b010 programs and reads back 256 bytes. -/
  | stagingWrite (m : Master)
  /-- STAGING_VERIFY (R379): FWU_STG_CMD 0b011 verifies the staged image and sets VERIFIED. -/
  | stagingVerify (m : Master)
  /-- STAGING_COMMIT (R379): FWU_STG_CMD 0b100 copies the image into the spare bank and writes the trial header. -/
  | stagingCommit (m : Master)
  /-- STAGING_ABORT (R379): FWU_STG_CMD 0b101 abandons staging ownership. -/
  | stagingAbort (m : Master)
  /-- ACTIVATE (R380): A write of 0x0000_4143 to FWU_ACT while STAGED lowers the claim and waits for it to be in force. -/
  | activate (m : Master) (v : Nat)
  /-- ACTIVATION_RESTART (R381): With the lower claim in force, open slots are aborted, metering is copied, and the boot ROM restarts with PD2 and PD4 held. -/
  | activationRestart (ms : Nat)
  /-- TRIAL_CONFIRM (R383): A write of 1 to FWU_CONFIRM confirms the trial and raises the rollback fuses. -/
  | trialConfirm (m : Master)
  /-- TRIAL_AUTOCONFIRM (R383): TRIAL_S seconds of service with AUTOCONF confirm the trial. -/
  | trialAutoconfirm
  /-- HEADER_REWRITE (R384): After a fallback, the firmware rewrites the boot header naming itself within 10 s of service. -/
  | headerRewrite (ok : Bool)
  /-- HEALTH_CONDITION_EXPIRY (R351): The 60 s window of an uncorrectable error or of an audit suspect finding ends, the condition lapses and the health score is recomputed. -/
  | healthConditionExpiry (c : Nat)
  /-- MAIN_SUPPLY_RETURN (R82): The main supplies return into range while an RTC alarm that fell due without them is held, and the device wakes from step 3. -/
  | mainSupplyReturn
  /-- XTAL32_VALID (R49): The 32.768 kHz crystal becomes valid, and PD0's real-time clock and watchdog move from the low-power RC onto it. -/
  | xtal32Valid
  /-- KEY_COMMAND_DONE (R370): A key-store command finishes after up to 20 µs, 2 ms or 50 ms; the material registers are cleared, KEY_LD_STAT is reported and the store leaves busy. -/
  | keyCommandDone (m : Master)
  /-- STAGING_COMMAND_DONE (R379): A staging erase, write, verify or commit finishes on the NOR; BUSY clears, DONE and ERR are reported, and a commit sets STAGED with event 0xC402. -/
  | stagingCommandDone
  deriving DecidableEq, Repr

end Sys2Proof
end

