-- ==== Sys2Proof/Config.lean ====
section
/-! DEFINITION. What spec/ leaves open, as constants without a body: nothing can be proved of their values.
The cryptographic functions and the floating-point functions that spec/ names by a published standard, and the
numerical procedures whose rounding it does not state, stand here too (DESIGN CHOICE, log 2). -/

namespace Sys2Proof.Config

/-- A value the spec leaves open: the k-th one the machine draws (DESIGN CHOICE, log 1). -/
opaque freeValue : Nat → BitVec 64

/-- SHA-256 of a byte string, 32 bytes as one number, first byte most significant (R205, R356). -/
opaque sha256 : List Byte → Nat

/-- HMAC-SHA256 under a key given by its material words (R141, R343, R366). -/
opaque hmacSha256 : List Nat → List Byte → Nat

/-- AES-128-GCM decryption under a key: the plaintext when the tag verifies (R141). -/
opaque aesGcmOpen : List Nat → List Byte → List Byte → Option (List Byte)

/-- AES-128-GCM encryption under a key and a nonce: ciphertext and tag (R278). -/
opaque aesGcmSeal : List Nat → List Byte → List Byte → List Byte

/-- AES-256 key unwrapping and wrapping of a key blob under the device key (R374). -/
opaque keyUnwrap : List Nat → Option (List Nat)
opaque keyWrap : List Nat → List Nat

/-- ECDSA P-256 verification of a signature over a byte string under a public key (R55, R58, R380). -/
opaque ecdsaVerify : List Nat → List Byte → List Byte → Bool

/-- ECDSA P-256 signature of a byte string under a private key, 64 bytes (R307). -/
opaque ecdsaSign : List Nat → List Byte → List Byte

/-- AES-128 encryption of a zero block under a key, 16 bytes as one number, first byte most significant (R371). -/
opaque aesZero : List Nat → Nat

/-- The public point X‖Y of an ECDSA P-256 private key, and whether a public key lies on the curve (R371). -/
opaque ecdsaPublic : List Nat → List Byte
opaque ecdsaOnCurve : List Nat → Bool

/-- The tokens the Elision engine makes of an input at a level: deterministic, with the search spec/ outlines (R330, R331). -/
opaque elsTokens : Nat → List Byte → List Byte

/-- The bytes of an IEC 61850-90-5 frame: svID; seconds and nanoseconds of its refrTm, SPDU number, SEC
and key identifier; key material; dataset (R278). -/
opaque rsvForm : List Byte → List Nat → List Nat → List Byte → List Byte

/-- What a 90-5 UDP payload says before its key is needed: none without a session header, else whether its lengths agree,
SPDU number, key identifier, svID length and CRC-32C of the first ASDU, and whether every ASDU carries that svID (R134,
R135, R141). The byte layout is that of IEC 61850-90-5. -/
opaque rsvHead : List Byte → Option (List Nat)

/-- The ASDUs of a 90-5 payload under a key (none for SEC 0) and SEC, each as seconds and 2^-24 s of its refrTm and the bytes
of its dataset; none when the tag does not verify (R140, R141). -/
opaque rsvBody : List Nat → Nat → List Byte → Option (List (List Nat × List Byte))

/-- Bytes that IEC 61850-90-5 puts around the dataset for an svID of a length and a SEC (R277). -/
opaque rsvOverhead : Nat → Nat → Nat

/-- The configuration frame the management core forms from an entry: CFG type, the numbers of the entry (IDCODE, SOC,
FRACSEC, TIME_BASE, rate, CFGCNT, FORMAT, FNOM), the counts of each block, and the channel names (R278). -/
opaque cfgForm : List Nat → List (List Nat) → List (List Byte) → List Byte

/-- The 30 bytes of an Announce body of the PTP engine, from TNS_STAT.STATE and TNS_UTC: its clockClass reflects the servo state, and the
values of clock quality and priority are the profile's (R97). -/
opaque announceBody : Nat → Nat → List Byte

/-- The MAC address that the management core's ARP finds for an IPv4 address (R276). -/
opaque arp : Nat → Nat

/-- Square root, atan2, sine, cosine and logarithm (0 to 4) come from one fixed algorithm correct to within 1 ulp, which R235 does not give:
for a function and its operands, which of the binary32 values within 1 ulp of the exact result is its answer. -/
opaque ulpPick : Nat → Nat → Nat → Nat

/-- Numbers, as pairs of float32 words, among which the roots of z^p − θ1 z^(p−1) − … − θp are that the shifted QR iteration finds:
its shifts and its test of convergence are not given, so which roots are dropped at 30 iterations is open (R246). Its use keeps those
that are roots. -/
opaque arRoots : List Nat → List (Nat × Nat)

/-- How far the fitted amplitude of candidate i lies from the least-squares one, and the amplitude itself where the fit has no one solution:
the arithmetic of the fit is not given (R247). Its use limits the first. -/
opaque fitDev : List Nat → List (Nat × Nat) → Nat → Int × Int

/-- CRC-32C of the body of a checkpoint, whose byte form is not given (R219, R220). -/
opaque ckptCrc : List Nat → BitVec 32

/-- CRC-32C of the values a result set would publish, whose order is not given (R223). -/
opaque resultCrc : List Nat → BitVec 32

/-- How far the float32 sums and 48-bit products of an internal phasor lie from its formula, whose form is not given (R168): of the class
(0 P, 1 M, 2 rectangular), the instant and the samples. Its use limits it to what R178 allows. -/
opaque phasorDev : Nat → Int → List (Int × Int) → Int × Int

/-- The same for the frequency and ROCOF of a fit (R171, R178). -/
opaque freqDev : List (Nat × Nat) → Int × Int

/-- The coefficients, in units of 2^-30 and newest first, of the fixed filter of a sub-synchronous monitor at a sample rate: R182 gives its
limits only. -/
opaque ssoTaps : Nat → List Int

/-- Whether a corrected sample that lies half-way between two integers is rounded up: the spec states no rounding of ties (R291). -/
opaque corTie : Int → Bool

/-- The point seal code: CRC-32C of the sealed fields in word order and of the correction tables, whose byte form is not given
(R315). -/
opaque sealCode : List Nat → BitVec 32

/-- Whether e × (1 − 2^−DECAY) of an envelope is rounded up: the spec states no rounding (R163). -/
opaque envUp : Nat → Nat → Bool

/-- RED_SETCRC of the values in force, given as register keys and values: R350 names what it covers, and not the order. -/
opaque setCrc : List (Nat × Nat) → BitVec 32

/-- The result digest of a recomputation: of the snapshot, the standby's own values and the run (R357, R358). The spec gives
neither the byte form of a checkpoint nor that of a result set; a run may go wrong in a way no check sees. -/
opaque auditDigest : List Byte → List (Nat × Nat) → Nat → Nat

end Sys2Proof.Config
end

