-- ==== Sys2Proof/Machine/Bits.lean ====
section
/-! DEFINITION. Bit fields, byte order, two's complement, checksums and the two stores keyed by a number:
the register file and byte memory. -/

namespace Sys2Proof.Machine

/-! ### Numbers -/

/-- Bit `i` of `v`. -/
def bit (v i : Nat) : Nat := v / 2 ^ i % 2

/-- Bits [lo + w − 1 : lo] of `v`. -/
def bits (v lo w : Nat) : Nat := v / 2 ^ lo % 2 ^ w

/-- `v` with bits [lo + w − 1 : lo] replaced by those of `x`. -/
def setBits (v lo w x : Nat) : Nat :=
  v - bits v lo w * 2 ^ lo + x % 2 ^ w * 2 ^ lo

/-- 1 for true, 0 for false. -/
def b2n (b : Bool) : Nat := if b then 1 else 0

/-- A bit vector given by a predicate on bit numbers below `n`. -/
def maskOf (n : Nat) (p : Nat → Bool) : Nat :=
  (List.range n).foldl (fun a i => if p i then a + 2 ^ i else a) 0

/-- The number of ones in the low `n` bits. -/
def popCount (n v : Nat) : Nat :=
  (List.range n).foldl (fun a i => a + bit v i) 0

/-- The numbers of the bits set among the low `n`. -/
def bitsSet (n v : Nat) : List Nat := (List.range n).filter (fun i => bit v i == 1)

/-- Two's complement value of the low `w` bits. -/
def sint (w v : Nat) : Int :=
  if v % 2 ^ w < 2 ^ (w - 1) then ((v % 2 ^ w : Nat) : Int) else ((v % 2 ^ w : Nat) : Int) - ((2 ^ w : Nat) : Int)

/-- The low `w` bits of an integer in two's complement. -/
def uint (w : Nat) (i : Int) : Nat := (i % ((2 ^ w : Nat) : Int)).toNat

/-- An integer limited to the range of a two's complement number of `w` bits. -/
def satS (w : Nat) (i : Int) : Int :=
  let top : Int := ((2 ^ (w - 1) : Nat) : Int)
  if i < -top then -top else if i > top - 1 then top - 1 else i

/-- `v` limited to the range from `a` to `b`. -/
def clamp (a b v : Nat) : Nat := if v < a then a else if b < v then b else v

/-- Serial arithmetic modulo 2^32: `a` is later than `b` when the difference is not 0 and below 2^31 (R54). -/
def laterSerial (a b : Nat) : Bool :=
  let d := (a + 2 ^ 32 - b % 2 ^ 32) % 2 ^ 32
  d != 0 && decide (d < 2 ^ 31)

/-- Division with the quotient rounded to the nearest integer, ties away from zero. -/
def roundDiv (n : Int) (d : Nat) : Int :=
  if d = 0 then 0
  else if n < 0 then -(((n.natAbs * 2 + d) / (2 * d) : Nat) : Int)
  else (((n.natAbs * 2 + d) / (2 * d) : Nat) : Int)

/-! ### Lists -/

/-- The element at `i`, or a default past the end. -/
def nth {α : Type} (l : List α) (i : Nat) (d : α) : α :=
  match l, i with
  | [], _ => d
  | x :: _, 0 => x
  | _ :: xs, i + 1 => nth xs i d

/-- The list with the element at `i` replaced; unchanged past the end. -/
def setNth {α : Type} (l : List α) (i : Nat) (v : α) : List α :=
  match l, i with
  | [], _ => []
  | _ :: xs, 0 => v :: xs
  | x :: xs, i + 1 => x :: setNth xs i v

/-- The first element with the given key. -/
def assoc {α : Type} (l : List (Nat × α)) (k : Nat) : Option α :=
  match l with
  | [] => none
  | p :: ps => if p.1 = k then some p.2 else assoc ps k

/-- Insertion by rising key, replacing an entry with the same key. -/
def assocSet {α : Type} (l : List (Nat × α)) (k : Nat) (v : α) : List (Nat × α) :=
  match l with
  | [] => [(k, v)]
  | p :: ps =>
    if p.1 = k then (k, v) :: ps
    else if k < p.1 then (k, v) :: p :: ps
    else p :: assocSet ps k v

/-- Removal of the entries with the given key. -/
def assocDel {α : Type} (l : List (Nat × α)) (k : Nat) : List (Nat × α) :=
  l.filter (fun p => p.1 != k)

/-- Keys strictly rising. -/
def assocSorted {α : Type} (l : List (Nat × α)) : Bool :=
  match l with
  | [] => true
  | p :: ps =>
    (match ps with
     | [] => true
     | q :: _ => decide (p.1 < q.1)) && assocSorted ps

/-! ### Byte strings -/

/-- Byte `i` as a number; 0 past the end. -/
def byteAt (bs : List Byte) (i : Nat) : Nat := (nth bs i 0).toNat

/-- `n` bytes from offset `o`, most significant first. -/
def beAt (bs : List Byte) (o n : Nat) : Nat :=
  (List.range n).foldl (fun a i => a * 256 + byteAt bs (o + i)) 0

/-- `n` bytes from offset `o`, least significant first. -/
def leAt (bs : List Byte) (o n : Nat) : Nat :=
  (List.range n).foldr (fun i a => a * 256 + byteAt bs (o + i)) 0

/-- A number as one byte. -/
def toByte (v : Nat) : Byte := BitVec.ofNat 8 v

/-- A number as `n` bytes, least significant first. -/
def leBytes (n v : Nat) : List Byte := (List.range n).map (fun i => toByte (v / 256 ^ i))

/-- A number as `n` bytes, most significant first. -/
def beBytes (n v : Nat) : List Byte := (leBytes n v).reverse

/-- `n` zero bytes. -/
def zeros (n : Nat) : List Byte := List.replicate n 0

/-- `n` bytes from offset `o`. -/
def slice (bs : List Byte) (o n : Nat) : List Byte := (bs.drop o).take n

/-- One reflected step of CRC-32C on one bit. -/
def crc32cBit (c : Nat) : Nat := if c % 2 = 1 then (c / 2) ^^^ 0x82F63B78 else c / 2

/-- CRC-32C of a byte string (reflected, initial and final value all ones). -/
def crc32c (bs : List Byte) : Nat :=
  (bs.foldl (fun c b => (List.range 8).foldl (fun x _ => crc32cBit x) (c ^^^ b.toNat)) 0xFFFFFFFF) ^^^ 0xFFFFFFFF

/-- The frame check sequence of Ethernet as it follows the frame: CRC-32 of IEEE 802.3, reflected, least significant byte first (R120;
PRESUMED, log 22). -/
def frameFcs (bs : List Byte) : List Byte :=
  leBytes 4 ((bs.foldl (fun c b => (List.range 8).foldl (fun x _ => if x % 2 = 1 then (x / 2) ^^^ 0xEDB88320 else x / 2) (c ^^^ b.toNat)) 0xFFFFFFFF)
    ^^^ 0xFFFFFFFF)

/-- CRC-CCITT of C37.118.2: polynomial x^16 + x^12 + x^5 + 1, initial value all ones, no final inversion. -/
def crcCcitt (bs : List Byte) : Nat :=
  bs.foldl (fun c b => (List.range 8).foldl (fun x _ => (if x ≥ 32768 then (2 * x % 65536) ^^^ 0x1021 else 2 * x)) (c ^^^ (b.toNat * 256))) 0xFFFF

/-- The one's complement sum of the 16-bit words of a byte string, as the Internet checksum takes it. -/
def onesSum (bs : List Byte) (start : Nat) : Nat :=
  let t := (List.range ((bs.length + 1) / 2)).foldl (fun a i => a + byteAt bs (2 * i) * 256 + byteAt bs (2 * i + 1)) start
  let t := t % 65536 + t / 65536
  t % 65536 + t / 65536

/-! ### Memory: (address, byte) pairs, strictly rising, none equal to what an unlisted address reads as -/

/-- Byte memory in canonical form. -/
abbrev Memory := List Host.Cell

/-- The byte at `a`; an unlisted address reads as `d`. -/
def Memory.read (d : Byte) (m : Memory) (a : Nat) : Byte :=
  match m with
  | [] => d
  | c :: cs => if c.1 = a then c.2 else Memory.read d cs a

/-- Writes one byte; writing what an unlisted address reads as removes the entry. -/
def Memory.write (d : Byte) (m : Memory) (a : Nat) (v : Byte) : Memory :=
  match m with
  | [] => if v = d then [] else [(a, v)]
  | c :: cs =>
    if c.1 = a then (if v = d then cs else (a, v) :: cs)
    else if a < c.1 then (if v = d then c :: cs else (a, v) :: c :: cs)
    else c :: Memory.write d cs a v

/-- The canonical form: addresses strictly rising and no entry equal to `d`. -/
def Memory.wf (d : Byte) (m : Memory) : Bool :=
  match m with
  | [] => true
  | c :: cs =>
    (match cs with
     | [] => true
     | e :: _ => decide (c.1 < e.1)) && (c.2 != d) && Memory.wf d cs

/-- `n` bytes from `a`. -/
def Memory.readN (d : Byte) (m : Memory) (a n : Nat) : List Byte :=
  (List.range n).map (fun i => Memory.read d m (a + i))

/-- Writes a byte string at `a`. -/
def Memory.writeN (d : Byte) (m : Memory) (a : Nat) (bs : List Byte) : Memory :=
  match bs with
  | [] => m
  | b :: rest => Memory.writeN d (Memory.write d m a b) (a + 1) rest

/-- Fills `n` bytes from `a` with what an unlisted address reads as. -/
def Memory.clear (m : Memory) (a n : Nat) : Memory :=
  m.filter (fun c => decide (c.1 < a) || decide (a + n ≤ c.1))

/-! ### The register file: (key, value) pairs, keys strictly rising -/

/-- Field values by key. -/
abbrev RegFile := List (Nat × Nat)

/-- The key of a field: its word's address and its low bit. -/
def fieldKey (f : Field) : Nat := f.addr * 32 + f.lo

/-- The value of a field; a field not listed holds its default (R11). -/
def RegFile.get (r : RegFile) (f : Field) : Nat := (assoc r (fieldKey f)).getD f.dflt

/-- Writes a field, cut to its width. -/
def RegFile.set (r : RegFile) (f : Field) (v : Nat) : RegFile := assocSet r (fieldKey f) (v % 2 ^ f.width)

end Sys2Proof.Machine
end

