-- ==== Sys2Proof/Machine/Fixed.lean ====
section
/-! DEFINITION. Exact arithmetic for what the spec gives as a formula over real numbers: numbers as integers in units of 2^-256, with sine,
arctangent, logarithm and square root to that precision. Results are rounded to binary32 where they are stored (Float.lean). -/

namespace Sys2Proof.Machine

/-- One. -/
def fxOne : Int := ((2 ^ 256 : Nat) : Int)

/-- π, the natural logarithm of 2, and √2. -/
def fxPi : Int := 0x3243f6a8885a308d313198a2e03707344a4093822299f31d0082efa98ec4e6c89
def fxLn2 : Int := 0xb17217f7d1cf79abc9e3b39803f2f6af40f343267298b62d8a0d175b8baafa2b
def fxSqrt2 : Int := 0x16a09e667f3bcc908b2fb1366ea957d3e3adec17512775099da2f590b0667322a

/-- A ratio of integers. -/
def fxRat (n : Int) (d : Nat) : Int := n * fxOne / (d : Int)

/-- Product. -/
def fxMul (a b : Int) : Int := a * b / fxOne

/-- Quotient; 0 for a zero divisor. -/
def fxDiv (a b : Int) : Int := a * fxOne / b

/-- An angle by whole turns to [−π, π). -/
def fxTurn (x : Int) : Int := (x + fxPi) % (2 * fxPi) - fxPi

/-- Sine, by its series on the angle within half a turn. -/
def fxSin (x : Int) : Int :=
  let r := fxTurn x
  let q := fxMul r r
  ((List.range 48).foldl (fun (a : Int × Int) (n : Nat) =>
    let t := -(fxMul a.2 q / (((2 * n + 2) * (2 * n + 3) : Nat) : Int))
    (a.1 + t, t)) (r, r)).1

/-- Cosine. -/
def fxCos (x : Int) : Int := fxSin (x + fxPi / 2)

/-- The arctangent of `n` ÷ `d`, 0 ≤ n ≤ d, by Euler's series. -/
def fxAtanUnit (n d : Nat) : Int :=
  let s := n * n + d * d
  let q := fxRat ((n * n : Nat) : Int) s
  let t := fxRat ((n * d : Nat) : Int) s
  ((List.range 264).foldl (fun (a : Int × Int) (k : Nat) =>
    let u := fxMul a.2 q * ((2 * k + 2 : Nat) : Int) / ((2 * k + 3 : Nat) : Int)
    (a.1 + u, u)) (t, t)).1

/-- The angle of the point (x, y) in (−π, π]; 0 for the origin. -/
def fxAtan2 (y x : Int) : Int :=
  if x = 0 ∧ y = 0 then 0
  else
    let a := x.natAbs
    let b := y.natAbs
    let u := if b ≤ a then fxAtanUnit b a else fxPi / 2 - fxAtanUnit a b
    let v := if x < 0 then fxPi - u else u
    if y < 0 then -v else v

/-- The natural logarithm of `n` ÷ `d`, both positive. -/
def fxLn (n d : Nat) : Int :=
  let l : Int := (Nat.log2 n : Int) - (Nat.log2 d : Int)
  let n' := if l < 0 then n * 2 ^ (-l).toNat else n
  let d' := if l < 0 then d else d * 2 ^ l.toNat
  let z := fxRat ((n' : Int) - (d' : Int)) (n' + d')
  let q := fxMul z z
  l * fxLn2 + 2 * ((List.range 100).foldl (fun (a : Int × Int) (k : Nat) =>
    let t := fxMul a.2 q
    (a.1 + t / ((2 * k + 3 : Nat) : Int), t)) (z, z)).1

/-- The greatest number of at most `b` bits whose square is at most `n`. -/
def isqrtBits (b n : Nat) : Nat :=
  (List.range b).foldl (fun a i => let x := a + 2 ^ (b - 1 - i); if x * x ≤ n then x else a) 0

/-- √(a² + b²). -/
def fxHypot (a b : Int) : Int := ((isqrtBits 640 (a.natAbs * a.natAbs + b.natAbs * b.natAbs) : Nat) : Int)

/-- sin(πx) ÷ (πx). -/
def fxSinc (x : Int) : Int := if x = 0 then fxOne else fxDiv (fxSin (fxMul fxPi x)) (fxMul fxPi x)

/-- A free deviation of at most `b` either way. -/
def devWithin (free : Int) (b : Nat) : Int := free % ((2 * b + 1 : Nat) : Int) - (b : Int)

end Sys2Proof.Machine
end

