-- ==== Sys2Proof/Machine/Float.lean ====
section
/-! DEFINITION. IEEE 754 binary32 as R235 uses it: round to nearest, ties to even, subnormals flushed to zero with
their sign kept, and no infinity or NaN: an operation that would produce one answers none. A float32 word is a
number below 2^32. -/

namespace Sys2Proof.Machine

/-- A word that is an infinity or a NaN. -/
def fBad (x : Nat) : Bool := bits x 23 8 == 255

/-- The sign bit. -/
def fNegB (x : Nat) : Bool := bit x 31 == 1

/-- The value of a word as a multiple of 2^-149; a subnormal is zero. -/
def fVal (x : Nat) : Int :=
  let e := bits x 23 8
  if e = 0 then 0
  else
    let m : Int := (((2 ^ 23 + bits x 0 23) * 2 ^ (e - 1) : Nat) : Int)
    if fNegB x then -m else m

/-- Zero with a sign. -/
def fZero (neg : Bool) : Nat := if neg then 0x80000000 else 0

/-- A positive ratio n ÷ d rounded to binary32 with a sign; none on overflow. -/
def fRound (neg : Bool) (n d : Nat) : Option Nat :=
  if n = 0 ∨ d = 0 then some (fZero neg)
  else
    -- the exponent e with 2^e ≤ n/d < 2^(e+1)
    let l : Int := (Nat.log2 n : Int) - (Nat.log2 d : Int)
    let ge (e : Int) : Bool := if 0 ≤ e then d * 2 ^ e.toNat ≤ n else d ≤ n * 2 ^ (-e).toNat
    let e : Int := if ge l then l else l - 1
    let k : Int := 23 - e
    let num := if 0 ≤ k then n * 2 ^ k.toNat else n
    let den := if 0 ≤ k then d else d * 2 ^ (-k).toNat
    let q := num / den
    let r := num % den
    let q := if 2 * r > den ∨ (2 * r = den ∧ q % 2 = 1) then q + 1 else q
    let e := if q = 2 ^ 24 then e + 1 else e
    let q := if q = 2 ^ 24 then 2 ^ 23 else q
    if e > 127 then none
    else if e < -126 then some (fZero neg)
    else some ((if neg then 2 ^ 31 else 0) + (e + 127).toNat * 2 ^ 23 + (q - 2 ^ 23))

/-- An exact integer multiple of 2^-k as a float32. -/
def fOfScaled (i : Int) (k : Nat) : Option Nat := fRound (decide (i < 0)) i.natAbs (2 ^ k)

/-- An integer as a float32. -/
def fOfInt (i : Int) : Option Nat := fOfScaled i 0

/-- An integer ratio as a float32. -/
def fOfRat (i : Int) (d : Nat) : Option Nat := fRound (decide (i < 0)) i.natAbs d

/-- A ratio of naturals as a float32, 0.0 where it cannot be formed. -/
def fLit (n d : Nat) : Nat := (fRound false n d).getD 0

def fNeg (x : Nat) : Nat := if fNegB x then x - 2 ^ 31 else x + 2 ^ 31
def fAbs (x : Nat) : Nat := x % 2 ^ 31

/-- Sum. -/
def fAdd (x y : Nat) : Option Nat :=
  if fBad x || fBad y then none
  else
    let v := fVal x + fVal y
    if v = 0 then some (fZero (fNegB x && fNegB y)) else fOfScaled v 149

/-- Difference. -/
def fSub (x y : Nat) : Option Nat := fAdd x (fNeg y)

/-- Product. -/
def fMul (x y : Nat) : Option Nat :=
  if fBad x || fBad y then none
  else fRound (fNegB x != fNegB y) (fVal x * fVal y).natAbs (2 ^ 298)

/-- Quotient; a zero divisor answers none. -/
def fDiv (x y : Nat) : Option Nat :=
  if fBad x || fBad y || fVal y == 0 then none
  else fRound (fNegB x != fNegB y) (fVal x).natAbs (fVal y).natAbs

def fLt (x y : Nat) : Bool := fVal x < fVal y
def fLe (x y : Nat) : Bool := fVal x ≤ fVal y
def fEq (x y : Nat) : Bool := fVal x == fVal y

/-- The integer nearest to n × x, ties away from zero. -/
def fToInt (x : Nat) (n : Nat) : Int := roundDiv (fVal x * (n : Int)) (2 ^ 149)

/-- The constants the chapters use. -/
def f1 : Nat := 0x3F800000
def fPi : Nat := 0x40490FDB
def f2Pi : Nat := 0x40C90FDB

/-- A complex number of two float32 words. -/
abbrev Cpx := Nat × Nat

def cAdd (a b : Cpx) : Option Cpx := do return (← fAdd a.1 b.1, ← fAdd a.2 b.2)
def cConj (a : Cpx) : Cpx := (a.1, fNeg a.2)
def cNeg (a : Cpx) : Cpx := (fNeg a.1, fNeg a.2)
def cScale (k : Nat) (a : Cpx) : Option Cpx := do return (← fMul k a.1, ← fMul k a.2)
def cMul (a b : Cpx) : Option Cpx := do
  return (← fSub (← fMul a.1 b.1) (← fMul a.2 b.2), ← fAdd (← fMul a.1 b.2) (← fMul a.2 b.1))
def cDiv (a b : Cpx) : Option Cpx := do
  let d ← fAdd (← fMul b.1 b.1) (← fMul b.2 b.2)
  let n ← cMul a (cConj b)
  return (← fDiv n.1 d, ← fDiv n.2 d)

/-- A positive ratio n ÷ d cut to binary32, and whether it is a binary32 number; none on overflow. -/
def fCut (n d : Nat) : Option (Nat × Bool) :=
  let l : Int := (Nat.log2 n : Int) - (Nat.log2 d : Int)
  let ge (e : Int) : Bool := if 0 ≤ e then d * 2 ^ e.toNat ≤ n else d ≤ n * 2 ^ (-e).toNat
  let e : Int := if ge l then l else l - 1
  let k : Int := 23 - e
  let num := if 0 ≤ k then n * 2 ^ k.toNat else n
  let den := if 0 ≤ k then d else d * 2 ^ (-k).toNat
  if e > 127 then none
  else if e < -126 then some (0, false)
  else some ((e + 127).toNat * 2 ^ 23 + (num / den - 2 ^ 23), num % den == 0)

/-- A result of a function correct to within 1 ulp (R235), of the exact value `v` ÷ `d`: one of the binary32 numbers on either side of it, or
where it is such a number, that number or a neighbour. Which one is open, a function of the operands; a result that is not finite is a
numerical error. -/
def fNear (fn a b : Nat) (v : Int) (d : Nat) : Option Nat :=
  if v = 0 then some 0
  else
    match fCut v.natAbs d with
    | none => none
    | some (w, exact) =>
      let k := Config.ulpPick fn a b % 3
      let w := if w = 0 then 0 else if k = 1 then w + 1 else if k = 2 ∧ exact then w - 1 else w
      if 0x7F800000 ≤ w then none else some ((if v < 0 then 2 ^ 31 else 0) + (if w < 0x800000 then 0 else w))

/-- The value of a word in units of 2^-256. -/
def fFx (x : Nat) : Int := fVal x * ((2 ^ 107 : Nat) : Int)

/-- A number in units of 2^-256 as a float32, 0.0 where it cannot be formed. -/
def fOfFx (x : Int) : Nat := (fOfScaled x 256).getD 0

/-- Square root (R235). -/
def fSqrt (x : Nat) : Option Nat :=
  if fBad x || (fNegB x && fVal x != 0) then none
  else if fVal x == 0 then some x
  else
    let n := (fVal x).natAbs * 2 ^ 129
    let r := isqrtBits 256 n
    -- a bit below the last one kept says that the root goes on
    fNear 0 x 0 ((2 * r + (if r * r = n then 0 else 1) : Nat) : Int) (2 ^ 140)

/-- Four-quadrant arctangent in (−π, π]: −π is never produced (R235). -/
def fAtan2 (y x : Nat) : Option Nat :=
  if fBad x || fBad y then none
  else (fNear 1 y x (fxAtan2 (fVal y) (fVal x)) (2 ^ 256)).map (fun a => if a = fNeg fPi then fPi else a)

def fSin (x : Nat) : Option Nat := if fBad x then none else fNear 2 x 0 (fxSin (fFx x)) (2 ^ 256)
def fCos (x : Nat) : Option Nat := if fBad x then none else fNear 3 x 0 (fxCos (fFx x)) (2 ^ 256)

/-- The natural logarithm of a positive word. -/
def fLog (x : Nat) : Option Nat := if fBad x || decide (fVal x ≤ 0) then none else fNear 4 x 0 (fxLn (fVal x).natAbs (2 ^ 149)) (2 ^ 256)

/-- The argument of a complex number. -/
def cArg (a : Cpx) : Option Nat := fAtan2 a.2 a.1

/-- The magnitude of a complex number. -/
def cAbs (a : Cpx) : Option Nat := do fSqrt (← fAdd (← fMul a.1 a.1) (← fMul a.2 a.2))

/-- An angle difference reduced to (−π, π] by whole turns: at most one turn either way is ever needed, since both
angles lie in that range (R235). -/
def fWrap (x : Nat) : Option Nat :=
  if fLt fPi x then fSub x f2Pi
  else if fLe x (fNeg fPi) then (do
    let y ← fAdd x f2Pi
    return (if fLt fPi y then fPi else y))
  else some x

end Sys2Proof.Machine
end

