-- ==== Sys2Proof/Machine/Fields.lean ====
section
/-! DEFINITION. Every register field and table-entry field of the register tables of spec/, one constant each:
⟨address, low bit, width, access code, default, least and greatest value the block acts on, image-held, saturating, sealed⟩.
A register takes its fabric address (R24). The words of table `t` of block `k` lie at 2^32·(1+8k+t) + 256·entry + 4·word,
which is the model's own placement of what the table ports reach (DESIGN CHOICE, log 4). -/

namespace Sys2Proof.Machine

/-! ### SYS (block 0) -/

def SYS_ERR_INFO_MASTER : Field := ⟨0x54, 0, 1, .ro, 0, 0, 1, false, false, false⟩
def SYS_ERR_INFO_WRITE : Field := ⟨0x54, 1, 1, .ro, 0, 0, 1, false, false, false⟩
def SYS_ERR_INFO_WIDTH : Field := ⟨0x54, 2, 2, .ro, 0, 0, 3, false, false, false⟩
def SYS_ERR_INFO_KIND : Field := ⟨0x54, 4, 4, .ro, 0, 0, 15, false, false, false⟩
def SYS_APPLY_MASK : Field := ⟨0x10, 0, 20, .wo, 0, 0, 1048575, false, false, false⟩
def SYS_APPLY_STAT_PEND : Field := ⟨0x14, 0, 20, .ro, 0, 0, 1048575, false, false, false⟩
def SYS_STRAP_XDLY : Field := ⟨0x60, 0, 3, .ro, 0, 0, 7, false, false, false⟩
def SYS_STRAP_BOOT_MODE : Field := ⟨0x60, 3, 2, .ro, 0, 0, 3, false, false, false⟩
def SYS_STRAP_PAIR_POS : Field := ⟨0x60, 5, 1, .ro, 0, 0, 1, false, false, false⟩
def SYS_BOOT_STAT_PHASE : Field := ⟨0x64, 0, 4, .ro, 1, 0, 15, false, false, false⟩
def SYS_BOOT_STAT_BANK : Field := ⟨0x64, 4, 1, .ro, 0, 0, 1, false, false, false⟩
def SYS_BOOT_STAT_TRIAL : Field := ⟨0x64, 5, 1, .ro, 0, 0, 1, false, false, false⟩
def SYS_BOOT_STAT_FALLBACK : Field := ⟨0x64, 6, 1, .ro, 0, 0, 1, false, false, false⟩
def SYS_BOOT_STAT_NOREF : Field := ⟨0x64, 7, 1, .ro, 0, 0, 1, false, false, false⟩
def SYS_BOOT_STAT_USER : Field := ⟨0x64, 8, 1, .ro, 0, 0, 1, false, false, false⟩
def SYS_BOOT_STAT_USLOT : Field := ⟨0x64, 9, 1, .ro, 0, 0, 1, false, false, false⟩
def SYS_BOOT_STAT_FACT_BUILTIN : Field := ⟨0x64, 10, 1, .ro, 0, 0, 1, false, false, false⟩
def SYS_IMG_STAT_FAILSEC : Field := ⟨0x68, 0, 8, .ro, 0, 0, 255, false, false, false⟩
def SYS_IMG_STAT_REJITEM : Field := ⟨0x68, 8, 8, .ro, 0, 0, 255, false, false, false⟩
def SYS_IMG_STAT_SCHEMA : Field := ⟨0x68, 16, 16, .ro, 0, 0, 65535, false, false, false⟩
def SYS_RST_CAUSE_PORST : Field := ⟨0x6c, 0, 1, .ro, 0, 0, 1, false, false, false⟩
def SYS_RST_CAUSE_RSTN : Field := ⟨0x6c, 1, 1, .ro, 0, 0, 1, false, false, false⟩
def SYS_RST_CAUSE_WDOG : Field := ⟨0x6c, 2, 1, .ro, 0, 0, 1, false, false, false⟩
def SYS_RST_CAUSE_FWRST : Field := ⟨0x6c, 3, 1, .ro, 0, 0, 1, false, false, false⟩
def SYS_RST_CAUSE_RTCWAKE : Field := ⟨0x6c, 4, 1, .ro, 0, 0, 1, false, false, false⟩
def SYS_SVC_TIME_US : Field := ⟨0x70, 0, 32, .ro, 0, 0, 4294967295, false, false, false⟩
def SYS_LOCK_TIME_MS : Field := ⟨0x74, 0, 32, .ro, 0, 0, 4294967295, false, false, false⟩
def SYS_START_GO : Field := ⟨0x78, 0, 1, .wo, 0, 0, 1, false, false, false⟩
def SYS_START_CFG_WAITLOCK : Field := ⟨0x7c, 0, 1, .rwa, 1, 0, 1, true, false, false⟩
def SYS_START_CFG_LOCKWAIT : Field := ⟨0x7c, 8, 8, .rwa, 0x3c, 0, 255, true, false, false⟩
def SYS_ID_STEP : Field := ⟨0x0, 0, 8, .ro, 0x21, 0, 255, false, false, false⟩
def SYS_ID_PART : Field := ⟨0x0, 8, 16, .ro, 0x9640, 0, 65535, false, false, false⟩
def SYS_SN_LO_SN : Field := ⟨0x30, 0, 32, .ro, 0, 0, 4294967295, false, false, false⟩
def SYS_SN_HI_SN : Field := ⟨0x34, 0, 32, .ro, 0, 0, 4294967295, false, false, false⟩
def SYS_CAPS_VALUE : Field := ⟨0x8, 0, 32, .ro, 0x3F710884, 0, 4294967295, false, false, false⟩
def SYS_IRQ_ROUTE_LINES (n : Nat) : Field := ⟨0x18 + 4 * (n / 8), 4 * (n % 8), 4, .rwa, 0, 0, 15, true, false, false⟩
def SYS_IRQ_SUM_SUM : Field := ⟨0x24, 0, 20, .ro, 0, 0, 1048575, false, false, false⟩
def SYS_NMI_CAUSE_CLKFAIL : Field := ⟨0x28, 0, 1, .ro, 0, 0, 1, false, false, false⟩
def SYS_NMI_CAUSE_FALLSTART : Field := ⟨0x28, 1, 1, .ro, 0, 0, 1, false, false, false⟩
def SYS_NMI_CAUSE_VOTE : Field := ⟨0x28, 2, 1, .ro, 0, 0, 1, false, false, false⟩
def SYS_NMI_CAUSE_LOGMEM : Field := ⟨0x28, 3, 1, .ro, 0, 0, 1, false, false, false⟩
def SYS_NMI_CAUSE_UNCORR : Field := ⟨0x28, 4, 1, .ro, 0, 0, 1, false, false, false⟩
def SYS_NMI_ACK_MASK : Field := ⟨0x2C, 0, 32, .wo, 0, 0, 4294967295, false, false, false⟩
def SYS_FAB_WR_MC_COUNT : Field := ⟨0x40, 0, 32, .roc, 0, 0, 4294967295, false, false, false⟩
def SYS_FAB_WR_HC_COUNT : Field := ⟨0x44, 0, 32, .roc, 0, 0, 4294967295, false, false, false⟩
def SYS_FAB_CONT_COUNT : Field := ⟨0x48, 0, 32, .roc, 0, 0, 4294967295, false, false, false⟩
def SYS_ERR_ADDR_ADDR : Field := ⟨0x50, 0, 32, .ro, 0, 0, 4294967295, false, false, false⟩

/-! ### CLK (block 1) -/

def CLK_CTRL_IRC_EN : Field := ⟨0x10000, 0, 1, .rwa, 1, 0, 1, true, false, false⟩
def CLK_CTRL_FO_RELOCK : Field := ⟨0x10000, 1, 1, .rwa, 1, 0, 1, true, false, false⟩
def CLK_SW_TARGET : Field := ⟨0x10004, 0, 2, .wo, 0, 0, 3, false, false, false⟩
def CLK_STAT_STATE : Field := ⟨0x10008, 0, 3, .ro, 0, 0, 7, false, false, false⟩
def CLK_STAT_REF_OK : Field := ⟨0x10008, 3, 1, .ro, 0, 0, 1, false, false, false⟩
def CLK_STAT_IRC_STABLE : Field := ⟨0x10008, 4, 1, .ro, 0, 0, 1, false, false, false⟩
def CLK_STAT_PLL_LOCK : Field := ⟨0x10008, 5, 1, .ro, 0, 0, 1, false, false, false⟩
def CLK_STAT_SW_BUSY : Field := ⟨0x10008, 6, 1, .ro, 0, 0, 1, false, false, false⟩
def CLK_MON_CNT_COUNT : Field := ⟨0x1000c, 0, 10, .ro, 0, 0, 1023, false, false, false⟩
def CLK_MON_TRIPS_TRIPS : Field := ⟨0x10010, 0, 16, .roc, 0, 0, 65535, false, true, false⟩
def CLK_IRC_TRIM_TRIM : Field := ⟨0x10014, 0, 12, .ro, 0, 0, 4095, false, false, false⟩
def CLK_GATE_CFG_LANES_ON : Field := ⟨0x10018, 0, 1, .rw, 0, 0, 1, true, false, false⟩
def CLK_GATE_CFG_ELS_ON : Field := ⟨0x10018, 1, 1, .rw, 0, 0, 1, true, false, false⟩
def CLK_GATE_CFG_PHY_ON : Field := ⟨0x10018, 2, 1, .rw, 0, 0, 1, true, false, false⟩
def CLK_GATE_CFG_HOST_ON : Field := ⟨0x10018, 3, 1, .rw, 0, 0, 1, true, false, false⟩
def CLK_FORCED_CNT_FORCED : Field := ⟨0x1001c, 0, 16, .roc, 0, 0, 65535, false, true, false⟩

/-! ### PWR (block 2) -/

def PWR_DOMAIN_EN_ON01 : Field := ⟨0x8000, 0, 2, .ro, 3, 0, 3, false, false, false⟩
def PWR_DOMAIN_EN_EN : Field := ⟨0x8000, 2, 6, .rwa, 0x1f, 0, 63, true, false, false⟩
def PWR_STAT_ON : Field := ⟨0x8004, 0, 8, .ro, 3, 0, 255, false, false, false⟩
def PWR_STAT_BUSY : Field := ⟨0x8004, 8, 8, .ro, 0, 0, 255, false, false, false⟩
def PWR_HIB_CMD : Field := ⟨0x8008, 0, 32, .wo, 0, 0, 4294967295, false, false, false⟩
def PWR_WAKE_CFG_RTC : Field := ⟨0x800c, 0, 1, .rw, 0, 0, 1, true, false, false⟩
def PWR_WAKE_CFG_FASTWAKE : Field := ⟨0x800c, 1, 1, .rw, 0, 0, 1, true, false, false⟩
def PWR_WAKE_SEC_SEC : Field := ⟨0x8010, 0, 32, .rw, 0, 0, 4294967295, true, false, false⟩
def PWR_PFAIL_STAT_PFAIL : Field := ⟨0x8014, 0, 1, .ro, 0, 0, 1, false, false, false⟩
def PWR_PFAIL_STAT_COPY_DONE : Field := ⟨0x8014, 1, 1, .ro, 0, 0, 1, false, false, false⟩
def PWR_PFAIL_CNT_COUNT : Field := ⟨0x8018, 0, 16, .roc, 0, 0, 65535, false, true, false⟩

/-! ### TNS (block 3) -/

def TNS_SNAP_GO : Field := ⟨0x20000, 0, 1, .wo, 0, 0, 1, false, false, false⟩
def TNS_SEC_HI_SEC : Field := ⟨0x20004, 0, 16, .ro, 0, 0, 65535, false, false, false⟩
def TNS_SEC_LO_SEC : Field := ⟨0x20008, 0, 32, .ro, 0, 0, 4294967295, false, false, false⟩
def TNS_NS_NS : Field := ⟨0x2000c, 0, 30, .ro, 0, 0, 1073741823, false, false, false⟩
def TNS_FRAC_FRAC : Field := ⟨0x20010, 0, 32, .ro, 0, 0, 4294967295, false, false, false⟩
def TNS_SNAP_Q_EPOCH : Field := ⟨0x20014, 0, 16, .ro, 0, 0, 65535, false, false, false⟩
def TNS_SNAP_Q_QUAL : Field := ⟨0x20014, 16, 2, .ro, 2, 0, 3, false, false, false⟩
def TNS_SNAP_Q_IRC : Field := ⟨0x20014, 18, 1, .ro, 0, 0, 1, false, false, false⟩
def TNS_INC_LO_FRAC : Field := ⟨0x20018, 0, 32, .rw, 0x80000000, 0, 4294967295, false, false, false⟩
def TNS_INC_HI_NS : Field := ⟨0x2001c, 0, 4, .rw, 2, 0, 15, false, false, false⟩
def TNS_INC_ALT_LO_FRAC : Field := ⟨0x20020, 0, 32, .rw, 0x80000000, 0, 4294967295, false, false, false⟩
def TNS_INC_ALT_HI_NS : Field := ⟨0x20024, 0, 4, .rw, 2, 0, 15, false, false, false⟩
def TNS_XFER_GO : Field := ⟨0x20028, 0, 1, .wo, 0, 0, 1, false, false, false⟩
def TNS_INC_LIM_PPM : Field := ⟨0x2002c, 0, 10, .rwa, 0x1f4, 1, 1000, true, false, false⟩
def TNS_STEP_SEC_SEC : Field := ⟨0x20030, 0, 32, .rw, 0, 0, 4294967295, false, false, false⟩
def TNS_STEP_NS_NS : Field := ⟨0x20034, 0, 30, .rw, 0, 0, 1073741823, false, false, false⟩
def TNS_STEP_CMD_GO : Field := ⟨0x20038, 0, 1, .wo, 0, 0, 1, false, false, false⟩
def TNS_STEP_MAX_NS : Field := ⟨0x2003c, 0, 20, .rwa, 0x3e8, 0, 1000000, true, false, false⟩
def TNS_CTRL_PRIO : Field := ⟨0x20040, 0, 16, .rwa, 0x4321, 0, 65535, true, false, false⟩
def TNS_CTRL_REVERT : Field := ⟨0x20040, 16, 8, .rwa, 0xa, 0, 255, true, false, false⟩
def TNS_SERVO_LOCK_THR : Field := ⟨0x20044, 0, 16, .rwa, 0x64, 10, 65535, true, false, false⟩
def TNS_SERVO_TC : Field := ⟨0x20044, 16, 8, .rwa, 0x10, 1, 255, true, false, false⟩
def TNS_HOLD_HOLD_MAX : Field := ⟨0x20048, 0, 16, .rwa, 0x258, 0, 65535, true, false, false⟩
def TNS_HOLD_RATE : Field := ⟨0x20048, 16, 16, .rwa, 0x32, 0, 65535, true, false, false⟩
def TNS_STAT_STATE : Field := ⟨0x2004c, 0, 3, .ro, 0, 0, 7, false, false, false⟩
def TNS_STAT_SRC : Field := ⟨0x2004c, 4, 3, .ro, 0, 0, 7, false, false, false⟩
def TNS_STAT_XFER : Field := ⟨0x2004c, 7, 1, .ro, 0, 0, 1, false, false, false⟩
def TNS_STAT_TQ : Field := ⟨0x2004c, 8, 4, .ro, 0xf, 0, 15, false, false, false⟩
def TNS_STAT_UNLK : Field := ⟨0x2004c, 12, 2, .ro, 3, 0, 3, false, false, false⟩
def TNS_STAT_IRC : Field := ⟨0x2004c, 14, 1, .ro, 0, 0, 1, false, false, false⟩
def TNS_STAT_SLEW : Field := ⟨0x2004c, 15, 1, .ro, 0, 0, 1, false, false, false⟩
def TNS_STAT_ALT_OK : Field := ⟨0x2004c, 16, 1, .ro, 0, 0, 1, false, false, false⟩
def TNS_EPOCH_EPOCH : Field := ⟨0x20050, 0, 16, .ro, 0, 0, 65535, false, false, false⟩
def TNS_OFFSET_NS : Field := ⟨0x20054, 0, 32, .ro, 0, 0, 4294967295, false, false, false⟩
def TNS_UTC_OFS : Field := ⟨0x20058, 0, 16, .rwa, 0x25, 0, 65535, true, false, false⟩
def TNS_UTC_LSP : Field := ⟨0x20058, 16, 1, .ro, 0, 0, 1, false, false, false⟩
def TNS_UTC_LSDIR : Field := ⟨0x20058, 17, 1, .ro, 0, 0, 1, false, false, false⟩
def TNS_UTC_LSOCC : Field := ⟨0x20058, 18, 1, .ro, 0, 0, 1, false, false, false⟩
def TNS_DOMA_CFG_DOMAIN : Field := ⟨0x20060, 0, 8, .rwa, 0xfe, 0, 255, true, false, false⟩
def TNS_DOMA_CFG_PORT : Field := ⟨0x20060, 8, 2, .rwa, 0, 0, 3, true, false, false⟩
def TNS_DOMA_CFG_PROFILE : Field := ⟨0x20060, 10, 1, .rwa, 0, 0, 1, true, false, false⟩
def TNS_DOMA_CFG_ROLE : Field := ⟨0x20060, 11, 1, .rwa, 0, 0, 1, true, false, false⟩
def TNS_DOMA_CFG_ONESTEP : Field := ⟨0x20060, 12, 1, .rwa, 1, 0, 1, true, false, false⟩
def TNS_DOMA_CFG_EN : Field := ⟨0x20060, 13, 1, .rwa, 1, 0, 1, true, false, false⟩
def TNS_DOMB_CFG_DOMAIN : Field := ⟨0x20064, 0, 8, .rwa, 0, 0, 255, true, false, false⟩
def TNS_DOMB_CFG_PORT : Field := ⟨0x20064, 8, 2, .rwa, 1, 0, 3, true, false, false⟩
def TNS_DOMB_CFG_PROFILE : Field := ⟨0x20064, 10, 1, .rwa, 1, 0, 1, true, false, false⟩
def TNS_DOMB_CFG_ROLE : Field := ⟨0x20064, 11, 1, .rwa, 0, 0, 1, true, false, false⟩
def TNS_DOMB_CFG_ONESTEP : Field := ⟨0x20064, 12, 1, .rwa, 1, 0, 1, true, false, false⟩
def TNS_DOMB_CFG_EN : Field := ⟨0x20064, 13, 1, .rwa, 0, 0, 1, true, false, false⟩
def TNS_PPSI_CFG_EN : Field := ⟨0x20068, 0, 1, .rwa, 0, 0, 1, true, false, false⟩
def TNS_PPSI_CFG_POL : Field := ⟨0x20068, 1, 1, .rwa, 0, 0, 1, true, false, false⟩
def TNS_PPSI_CFG_DELAY : Field := ⟨0x20068, 16, 16, .rwa, 0, 0, 65535, true, false, false⟩
def TNS_PPSO_CFG_EN : Field := ⟨0x2006c, 0, 1, .rwa, 1, 0, 1, true, false, false⟩
def TNS_PPSO_CFG_MODE : Field := ⟨0x2006c, 1, 2, .rwa, 1, 0, 2, true, false, false⟩
def TNS_PPSO_CFG_POL : Field := ⟨0x2006c, 3, 1, .rwa, 0, 0, 1, true, false, false⟩
def TNS_PPSO_CFG_WIDTH : Field := ⟨0x2006c, 4, 10, .rwa, 0x64, 1, 900, true, false, false⟩
def TNS_PPSO_CFG_ADV : Field := ⟨0x2006c, 16, 16, .rwa, 0, 0, 65535, true, false, false⟩
def TNS_IRIG_CFG_EN : Field := ⟨0x20070, 0, 1, .rwa, 0, 0, 1, true, false, false⟩
def TNS_IRIG_CFG_POL : Field := ⟨0x20070, 1, 1, .rwa, 0, 0, 1, true, false, false⟩
def TNS_IRIG_CFG_UTC : Field := ⟨0x20070, 2, 1, .rwa, 1, 0, 1, true, false, false⟩
def TNS_IRIG_CFG_REQ1344 : Field := ⟨0x20070, 3, 1, .rwa, 1, 0, 1, true, false, false⟩
def TNS_IRIG_CFG_DELAY : Field := ⟨0x20070, 16, 16, .rwa, 0, 0, 65535, true, false, false⟩
def TNS_STEP_CNT_FWD : Field := ⟨0x20080, 0, 16, .roc, 0, 0, 65535, false, true, false⟩
def TNS_STEP_CNT_BACK : Field := ⟨0x20080, 16, 16, .roc, 0, 0, 65535, false, true, false⟩
def TNS_PCOR_TX_COR (n : Nat) : Field := ⟨0x20100 + 0x8 * n, 0, 20, .rwa, 0, 0, 1048575, true, false, false⟩
def TNS_PCOR_RX_COR (n : Nat) : Field := ⟨0x20104 + 0x8 * n, 0, 20, .rwa, 0, 0, 1048575, true, false, false⟩
def TNS_TSQ_STAT_COUNT (n : Nat) : Field := ⟨0x20200 + 0x20 * n, 0, 7, .ro, 0, 0, 127, false, false, false⟩
def TNS_TSQ_W (n : Nat) (i : Nat) : Field := ⟨0x20204 + 0x20 * n + 0x4 * i, 0, 32, .ro, 0, 0, 4294967295, false, false, false⟩
def TNS_TSQ_POP_POP (n : Nat) : Field := ⟨0x20218 + 0x20 * n, 0, 1, .wo, 0, 0, 1, false, false, false⟩
def TNS_TSQ_LOST_LOST (n : Nat) : Field := ⟨0x2021c + 0x20 * n, 0, 16, .roc, 0, 0, 65535, false, false, false⟩

/-! ### NET (block 4) -/

def NET_C37_UDP_PORT0 : Field := ⟨0x30000, 0, 16, .rwa, 0x1269, 0, 65535, true, false, false⟩
def NET_C37_UDP_PORT1 : Field := ⟨0x30000, 16, 16, .rwa, 0x1268, 0, 65535, true, false, false⟩
def NET_SREF_STAT_SREF0_OK : Field := ⟨0x30004, 0, 1, .ro, 0, 0, 1, false, false, false⟩
def NET_SREF_STAT_SREF1_OK : Field := ⟨0x30004, 1, 1, .ro, 0, 0, 1, false, false, false⟩
def NET_P_CFG_MODE (n : Nat) : Field := ⟨0x31000 + 0x200 * n, 0, 4, .rwa, 0, 0, 15, true, false, false⟩
def NET_P_CFG_AN (n : Nat) : Field := ⟨0x31000 + 0x200 * n, 4, 1, .rwa, 1, 0, 1, true, false, false⟩
def NET_P_CFG_BCAST (n : Nat) : Field := ⟨0x31000 + 0x200 * n, 5, 1, .rwa, 1, 0, 1, true, false, false⟩
def NET_P_CFG_PAUSE_HON (n : Nat) : Field := ⟨0x31000 + 0x200 * n, 6, 1, .rwa, 0, 0, 1, true, false, false⟩
def NET_P_CFG_EEE_EN (n : Nat) : Field := ⟨0x31000 + 0x200 * n, 7, 1, .rwa, 0, 0, 1, true, false, false⟩
def NET_P_STAT_LINK (n : Nat) : Field := ⟨0x31004 + 0x200 * n, 0, 1, .ro, 0, 0, 1, false, false, false⟩
def NET_P_STAT_SPEED (n : Nat) : Field := ⟨0x31004 + 0x200 * n, 1, 2, .ro, 0, 0, 3, false, false, false⟩
def NET_P_STAT_LPI_TX (n : Nat) : Field := ⟨0x31004 + 0x200 * n, 3, 1, .ro, 0, 0, 1, false, false, false⟩
def NET_P_STAT_LPI_RX (n : Nat) : Field := ⟨0x31004 + 0x200 * n, 4, 1, .ro, 0, 0, 1, false, false, false⟩
def NET_P_STAT_PAUSED (n : Nat) : Field := ⟨0x31004 + 0x200 * n, 5, 1, .ro, 0, 0, 1, false, false, false⟩
def NET_P_STAT_PLCA_ACT (n : Nat) : Field := ⟨0x31004 + 0x200 * n, 6, 1, .ro, 0, 0, 1, false, false, false⟩
def NET_P_EEE_IDLE (n : Nat) : Field := ⟨0x31008 + 0x200 * n, 0, 16, .rwa, 0x64, 1, 65535, true, false, false⟩
def NET_P_PLCA_NODE_ID (n : Nat) : Field := ⟨0x3100c + 0x200 * n, 0, 4, .rwa, 1, 0, 15, true, false, false⟩
def NET_P_PLCA_NODE_CNT (n : Nat) : Field := ⟨0x3100c + 0x200 * n, 4, 5, .rwa, 8, 2, 16, true, false, false⟩
def NET_P_PLCA_TO_TIMER (n : Nat) : Field := ⟨0x3100c + 0x200 * n, 16, 8, .rwa, 0x20, 1, 255, true, false, false⟩
def NET_P_PLCA_BURST_CNT (n : Nat) : Field := ⟨0x3100c + 0x200 * n, 24, 8, .rwa, 0, 0, 255, true, false, false⟩
def NET_P_PLCA2_BURST_TMR (n : Nat) : Field := ⟨0x31010 + 0x200 * n, 0, 8, .rwa, 0x80, 1, 255, true, false, false⟩
def NET_P_FIFO_THR_THR (n : Nat) : Field := ⟨0x31014 + 0x200 * n, 0, 11, .rwa, (if n < 4 then 0x300 else 0x30), 1, (if n < 4 then 1024 else 64), true, false, false⟩
def NET_P_FIFO_LVL_BYTES (n : Nat) : Field := ⟨0x31018 + 0x200 * n, 0, 19, .ro, 0, 0, 524287, false, false, false⟩
def NET_P_FLUSH_GO (n : Nat) : Field := ⟨0x3101c + 0x200 * n, 0, 1, .wo, 0, 0, 1, false, false, false⟩
def NET_P_FSTAT_FLUSH_BUSY (n : Nat) : Field := ⟨0x31020 + 0x200 * n, 0, 1, .ro, 0, 0, 1, false, false, false⟩
def NET_P_FSTAT_FLUSH_DONE (n : Nat) : Field := ⟨0x31020 + 0x200 * n, 1, 1, .ro, 0, 0, 1, false, false, false⟩
def NET_P_FSTAT_FORCED (n : Nat) : Field := ⟨0x31020 + 0x200 * n, 2, 1, .ro, 0, 0, 1, false, false, false⟩
def NET_P_FSTAT_OVF (n : Nat) : Field := ⟨0x31020 + 0x200 * n, 3, 1, .ro, 0, 0, 1, false, false, false⟩
def NET_P_FSTAT_THR (n : Nat) : Field := ⟨0x31020 + 0x200 * n, 4, 1, .ro, 0, 0, 1, false, false, false⟩
def NET_P_ADDR_LO_MAC (n : Nat) (k : Nat) : Field := ⟨0x31040 + 0x200 * n + 0x8 * k, 0, 32, .rwa, 0, 0, 4294967295, true, false, false⟩
def NET_P_ADDR_HI_MAC (n : Nat) (k : Nat) : Field := ⟨0x31044 + 0x200 * n + 0x8 * k, 0, 16, .rwa, 0, 0, 65535, true, false, false⟩
def NET_P_ADDR_HI_EN (n : Nat) (k : Nat) : Field := ⟨0x31044 + 0x200 * n + 0x8 * k, 16, 1, .rwa, 0, 0, 1, true, false, false⟩
def NET_P_RX_OK_LO_COUNT (n : Nat) : Field := ⟨0x31080 + 0x200 * n, 0, 32, .roc, 0, 0, 4294967295, false, false, false⟩
def NET_P_RX_OK_HI_COUNT (n : Nat) : Field := ⟨0x31084 + 0x200 * n, 0, 32, .roc, 0, 0, 4294967295, false, false, false⟩
def NET_P_RX_BYTES_LO_COUNT (n : Nat) : Field := ⟨0x31088 + 0x200 * n, 0, 32, .roc, 0, 0, 4294967295, false, false, false⟩
def NET_P_RX_BYTES_HI_COUNT (n : Nat) : Field := ⟨0x3108c + 0x200 * n, 0, 32, .roc, 0, 0, 4294967295, false, false, false⟩
def NET_P_TX_OK_LO_COUNT (n : Nat) : Field := ⟨0x31090 + 0x200 * n, 0, 32, .roc, 0, 0, 4294967295, false, false, false⟩
def NET_P_TX_OK_HI_COUNT (n : Nat) : Field := ⟨0x31094 + 0x200 * n, 0, 32, .roc, 0, 0, 4294967295, false, false, false⟩
def NET_P_TX_BYTES_LO_COUNT (n : Nat) : Field := ⟨0x31098 + 0x200 * n, 0, 32, .roc, 0, 0, 4294967295, false, false, false⟩
def NET_P_TX_BYTES_HI_COUNT (n : Nat) : Field := ⟨0x3109c + 0x200 * n, 0, 32, .roc, 0, 0, 4294967295, false, false, false⟩
def NET_P_STRANGER_COUNT (n : Nat) : Field := ⟨0x310a0 + 0x200 * n, 0, 32, .roc, 0, 0, 4294967295, false, false, false⟩
def NET_P_RUNT_COUNT (n : Nat) : Field := ⟨0x310a4 + 0x200 * n, 0, 32, .roc, 0, 0, 4294967295, false, false, false⟩
def NET_P_OVERSIZE_COUNT (n : Nat) : Field := ⟨0x310a8 + 0x200 * n, 0, 32, .roc, 0, 0, 4294967295, false, false, false⟩
def NET_P_FCSERR_COUNT (n : Nat) : Field := ⟨0x310ac + 0x200 * n, 0, 32, .roc, 0, 0, 4294967295, false, false, false⟩
def NET_P_TAGERR_COUNT (n : Nat) : Field := ⟨0x310b0 + 0x200 * n, 0, 32, .roc, 0, 0, 4294967295, false, false, false⟩
def NET_P_TYPEERR_COUNT (n : Nat) : Field := ⟨0x310b4 + 0x200 * n, 0, 32, .roc, 0, 0, 4294967295, false, false, false⟩
def NET_P_IPCSERR_COUNT (n : Nat) : Field := ⟨0x310b8 + 0x200 * n, 0, 32, .roc, 0, 0, 4294967295, false, false, false⟩
def NET_P_FRAG_COUNT (n : Nat) : Field := ⟨0x310bc + 0x200 * n, 0, 32, .roc, 0, 0, 4294967295, false, false, false⟩
def NET_P_L4CSERR_COUNT (n : Nat) : Field := ⟨0x310c0 + 0x200 * n, 0, 32, .roc, 0, 0, 4294967295, false, false, false⟩
def NET_P_CRCERR_COUNT (n : Nat) : Field := ⟨0x310c4 + 0x200 * n, 0, 32, .roc, 0, 0, 4294967295, false, false, false⟩
def NET_P_OVF_COUNT (n : Nat) : Field := ⟨0x310c8 + 0x200 * n, 0, 32, .roc, 0, 0, 4294967295, false, false, false⟩
def NET_P_FLUSHED_COUNT (n : Nat) : Field := ⟨0x310cc + 0x200 * n, 0, 32, .roc, 0, 0, 4294967295, false, false, false⟩
def NET_P_PAUSE_RX_COUNT (n : Nat) : Field := ⟨0x310d0 + 0x200 * n, 0, 32, .roc, 0, 0, 4294967295, false, false, false⟩
def NET_P_PAUSE_US_COUNT (n : Nat) : Field := ⟨0x310d4 + 0x200 * n, 0, 32, .roc, 0, 0, 4294967295, false, false, false⟩
def NET_P_CTRLERR_COUNT (n : Nat) : Field := ⟨0x310d8 + 0x200 * n, 0, 32, .roc, 0, 0, 4294967295, false, false, false⟩
def NET_P_TXDROP_COUNT (n : Nat) : Field := ⟨0x310dc + 0x200 * n, 0, 32, .roc, 0, 0, 4294967295, false, false, false⟩
def NET_P_COL_COUNT (n : Nat) : Field := ⟨0x310e0 + 0x200 * n, 0, 32, .roc, 0, 0, 4294967295, false, false, false⟩
def NET_P_LATECOL_COUNT (n : Nat) : Field := ⟨0x310e4 + 0x200 * n, 0, 32, .roc, 0, 0, 4294967295, false, false, false⟩
def NET_P_EXCOL_COUNT (n : Nat) : Field := ⟨0x310e8 + 0x200 * n, 0, 32, .roc, 0, 0, 4294967295, false, false, false⟩
def NET_P_PLCA_FALLBK_COUNT (n : Nat) : Field := ⟨0x310ec + 0x200 * n, 0, 32, .roc, 0, 0, 4294967295, false, false, false⟩
def NET_P_LPI_CNT_COUNT (n : Nat) : Field := ⟨0x310f0 + 0x200 * n, 0, 32, .roc, 0, 0, 4294967295, false, false, false⟩

/-! ### ING (block 5) -/

def ING_CFG_ELSD_EN : Field := ⟨0x40000, 0, 1, .rwa, 1, 0, 1, true, false, false⟩
def ING_CFG_REQCFG : Field := ⟨0x40000, 1, 1, .rwa, 1, 0, 1, true, false, false⟩
def ING_FLOW_UDP_PORT : Field := ⟨0x40004, 0, 16, .rwa, 0, 0, 65535, true, false, false⟩
def ING_PAIR_TMO : Field := ⟨0x40008, 0, 8, .rwa, 3, 1, 255, true, false, false⟩
def ING_GRID_TOL : Field := ⟨0x4000c, 0, 16, .rwa, 0x1388, 0, 65535, true, false, false⟩
def ING_ELSDROP_COUNT : Field := ⟨0x40010, 0, 32, .roc, 0, 0, 4294967295, false, false, false⟩
def ING_CFGFRAG_COUNT : Field := ⟨0x40014, 0, 32, .roc, 0, 0, 4294967295, false, false, false⟩
def ING_P_UNKNOWN_COUNT (n : Nat) : Field := ⟨0x40100 + 0x10 * n, 0, 32, .roc, 0, 0, 4294967295, false, false, false⟩
def ING_P_LENERR_COUNT (n : Nat) : Field := ⟨0x40104 + 0x10 * n, 0, 32, .roc, 0, 0, 4294967295, false, false, false⟩
def ING_P_MGMT_COUNT (n : Nat) : Field := ⟨0x40108 + 0x10 * n, 0, 32, .roc, 0, 0, 4294967295, false, false, false⟩
def CTX_EN (e : Nat) : Field := ⟨0x2900000000 + 256 * e, 0, 1, .rwa, 0, 0, 1, true, false, false⟩
def CTX_FORMAT (e : Nat) : Field := ⟨0x2900000000 + 256 * e, 1, 3, .rwa, 0, 0, 7, true, false, false⟩
def CTX_IPANY (e : Nat) : Field := ⟨0x2900000000 + 256 * e, 4, 1, .rwa, 0, 0, 1, true, false, false⟩
def CTX_PORTANY (e : Nat) : Field := ⟨0x2900000000 + 256 * e, 5, 1, .rwa, 0, 0, 1, true, false, false⟩
def CTX_DIV (e : Nat) : Field := ⟨0x2900000000 + 256 * e, 6, 5, .rwa, 1, 1, 24, true, false, false⟩
def CTX_NPMU (e : Nat) : Field := ⟨0x2900000000 + 256 * e, 11, 3, .rwa, 0, 0, 7, true, false, false⟩
def CTX_PAIRED (e : Nat) : Field := ⟨0x2900000000 + 256 * e, 14, 1, .rwa, 0, 0, 1, true, false, false⟩
def CTX_CFGLEARN (e : Nat) : Field := ⟨0x2900000000 + 256 * e, 15, 1, .rwa, 0, 0, 1, true, false, false⟩
def CTX_PARTNER (e : Nat) : Field := ⟨0x2900000000 + 256 * e, 16, 12, .rwa, 0, 0, 4095, true, false, false⟩
def CTX_SUBJ_OK (e : Nat) : Field := ⟨0x2900000000 + 256 * e, 28, 1, .rwa, 0, 0, 1, true, false, false⟩
def CTX_SRCIP (e : Nat) : Field := ⟨0x2900000004 + 256 * e, 0, 32, .rwa, 0, 0, 4294967295, true, false, false⟩
def CTX_UDPPORT (e : Nat) : Field := ⟨0x2900000008 + 256 * e, 0, 16, .rwa, 0, 0, 65535, true, false, false⟩
def CTX_IDCODE (e : Nat) : Field := ⟨0x2900000008 + 256 * e, 16, 16, .rwa, 0, 0, 65535, true, false, false⟩
def CTX_SID (e : Nat) : Field := ⟨0x290000000c + 256 * e, 0, 32, .rwa, 0, 0, 4294967295, true, false, false⟩
def CTX_SVID_LEN (e : Nat) : Field := ⟨0x2900000010 + 256 * e, 0, 8, .rwa, 0, 0, 255, true, false, false⟩
def CTX_KEYSLOT (e : Nat) : Field := ⟨0x2900000010 + 256 * e, 8, 6, .rwa, 0, 0, 63, true, false, false⟩
def CTX_SEC (e : Nat) : Field := ⟨0x2900000010 + 256 * e, 14, 2, .rwa, 0, 0, 2, true, false, false⟩
def CTX_PORTMASK (e : Nat) : Field := ⟨0x2900000010 + 256 * e, 16, 6, .rwa, 0, 0, 63, true, false, false⟩
def CTX_PH_BASE (e : Nat) : Field := ⟨0x2900000014 + 256 * e, 0, 15, .rwa, 0, 0, 32767, true, false, false⟩
def CTX_PH_CNT (e : Nat) : Field := ⟨0x2900000014 + 256 * e, 16, 8, .rwa, 0, 0, 255, true, false, false⟩
def CTX_AN_BASE (e : Nat) : Field := ⟨0x2900000018 + 256 * e, 0, 13, .rwa, 0, 0, 8191, true, false, false⟩
def CTX_AN_CNT (e : Nat) : Field := ⟨0x2900000018 + 256 * e, 16, 8, .rwa, 0, 0, 255, true, false, false⟩
def CTX_CLAIM (e : Nat) : Field := ⟨0x290000001c + 256 * e, 0, 16, .rwa, 0, 0, 65535, true, false, false⟩
def CTX_FMT (e : Nat) (b : Nat) : Field := ⟨0x2900000020 + 256 * e + 4 * b, 0, 4, .rwa, 0, 0, 15, true, false, false⟩
def CTX_FNOM60 (e : Nat) (b : Nat) : Field := ⟨0x2900000020 + 256 * e + 4 * b, 4, 1, .rwa, 0, 0, 1, true, false, false⟩
def CTX_PHNMR (e : Nat) (b : Nat) : Field := ⟨0x2900000020 + 256 * e + 4 * b, 8, 8, .rwa, 0, 0, 255, true, false, false⟩
def CTX_ANNMR (e : Nat) (b : Nat) : Field := ⟨0x2900000020 + 256 * e + 4 * b, 16, 8, .rwa, 0, 0, 255, true, false, false⟩
def CTX_DGNMR (e : Nat) (b : Nat) : Field := ⟨0x2900000020 + 256 * e + 4 * b, 24, 8, .rwa, 0, 0, 255, true, false, false⟩
def CTX_TIME_BASE (e : Nat) : Field := ⟨0x2900000040 + 256 * e, 0, 24, .rwa, 0, 0, 16777215, true, false, false⟩
def CTX_DVALID (e : Nat) : Field := ⟨0x2900000040 + 256 * e, 24, 1, .ro, 0, 0, 1, false, false, false⟩
def CTX_LEARNT (e : Nat) : Field := ⟨0x2900000040 + 256 * e, 25, 1, .ro, 0, 0, 1, false, false, false⟩
def CTX_CFGCNT (e : Nat) : Field := ⟨0x2900000044 + 256 * e, 0, 16, .ro, 0, 0, 65535, false, false, false⟩
def CTX_EXPSIZE (e : Nat) : Field := ⟨0x2900000044 + 256 * e, 16, 16, .ro, 0, 0, 65535, false, false, false⟩
def CTX_RX (e : Nat) : Field := ⟨0x2900000048 + 256 * e, 0, 32, .roc, 0, 0, 4294967295, false, false, false⟩
def CTX_LENERR (e : Nat) : Field := ⟨0x290000004c + 256 * e, 0, 16, .roc, 0, 0, 65535, false, true, false⟩
def CTX_FMTERR (e : Nat) : Field := ⟨0x290000004c + 256 * e, 16, 16, .roc, 0, 0, 65535, false, true, false⟩
def CTX_DUP (e : Nat) : Field := ⟨0x2900000050 + 256 * e, 0, 16, .roc, 0, 0, 65535, false, true, false⟩
def CTX_EARLY (e : Nat) : Field := ⟨0x2900000050 + 256 * e, 16, 16, .roc, 0, 0, 65535, false, true, false⟩
def CTX_AUTHERR (e : Nat) : Field := ⟨0x2900000054 + 256 * e, 0, 16, .roc, 0, 0, 65535, false, true, false⟩
def CTX_REPLAY (e : Nat) : Field := ⟨0x2900000054 + 256 * e, 16, 16, .roc, 0, 0, 65535, false, true, false⟩
def CTX_PAIRREJ (e : Nat) : Field := ⟨0x2900000058 + 256 * e, 0, 16, .roc, 0, 0, 65535, false, true, false⟩
def CTX_OFFGRID (e : Nat) : Field := ⟨0x2900000058 + 256 * e, 16, 16, .roc, 0, 0, 65535, false, true, false⟩
def CTX_STALE (e : Nat) : Field := ⟨0x290000005c + 256 * e, 0, 16, .roc, 0, 0, 65535, false, true, false⟩
def CTX_TRUNC (e : Nat) : Field := ⟨0x290000005c + 256 * e, 16, 16, .roc, 0, 0, 65535, false, true, false⟩
def CTX_QCLASS (e : Nat) : Field := ⟨0x2900000060 + 256 * e, 0, 3, .rwa, 0, 0, 7, true, false, false⟩
def CTX_ARCH_LATE (e : Nat) : Field := ⟨0x2900000060 + 256 * e, 3, 1, .rwa, 0, 0, 1, true, false, false⟩
def CTX_PRESENT (e : Nat) : Field := ⟨0x2900000064 + 256 * e, 0, 32, .roc, 0, 0, 4294967295, false, false, false⟩
def CTX_MISSING (e : Nat) : Field := ⟨0x2900000068 + 256 * e, 0, 16, .roc, 0, 0, 65535, false, true, false⟩
def CTX_LATE (e : Nat) : Field := ⟨0x2900000068 + 256 * e, 16, 16, .roc, 0, 0, 65535, false, true, false⟩
def CTX_LASTSTATE (e : Nat) : Field := ⟨0x290000006c + 256 * e, 0, 3, .ro, 0, 0, 7, false, false, false⟩
def CTX_LASTOFS (e : Nat) : Field := ⟨0x290000006c + 256 * e, 6, 10, .ro, 0, 0, 1023, false, false, false⟩
def CTX_MISSRUN (e : Nat) : Field := ⟨0x290000006c + 256 * e, 16, 16, .ro, 0, 0, 65535, false, false, false⟩
def CTX_TOLMAG (e : Nat) : Field := ⟨0x2900000070 + 256 * e, 0, 16, .rwa, 0x32, 0, 65535, true, false, false⟩
def CTX_TOLANG (e : Nat) : Field := ⟨0x2900000070 + 256 * e, 16, 16, .rwa, 0x64, 0, 65535, true, false, false⟩
def CTX_TOLF (e : Nat) : Field := ⟨0x2900000074 + 256 * e, 0, 16, .rwa, 0x14, 0, 65535, true, false, false⟩
def CTX_TOLAN (e : Nat) : Field := ⟨0x2900000074 + 256 * e, 16, 16, .rwa, 0x64, 0, 65535, true, false, false⟩
def CTX_PRED_MAX (e : Nat) : Field := ⟨0x2900000078 + 256 * e, 0, 8, .rwa, 4, 1, 255, true, false, false⟩
def CTX_PRED_EN (e : Nat) : Field := ⟨0x2900000078 + 256 * e, 8, 1, .rwa, 1, 0, 1, true, false, false⟩
def CTX_DIGDIRTY (e : Nat) : Field := ⟨0x2900000078 + 256 * e, 9, 1, .rwa, 1, 0, 1, true, false, false⟩
def CTX_STATDIRTY (e : Nat) : Field := ⟨0x2900000078 + 256 * e, 10, 1, .rwa, 1, 0, 1, true, false, false⟩
def CTX_TESTS (e : Nat) : Field := ⟨0x290000007c + 256 * e, 0, 16, .roc, 0, 0, 65535, false, true, false⟩
def CTX_DIRTY (e : Nat) : Field := ⟨0x290000007c + 256 * e, 16, 16, .roc, 0, 0, 65535, false, true, false⟩

/-! ### ACQ (block 6) -/

def ACQ_CFG_EN : Field := ⟨0x50000, 0, 1, .rwa, 0, 0, 1, true, false, false⟩
def ACQ_CFG_RATE : Field := ⟨0x50000, 1, 1, .rwa, 1, 0, 1, true, false, false⟩
def ACQ_LANE_EN_EN : Field := ⟨0x50004, 0, 24, .rwa, 0xffffff, 0, 16777215, true, false, false⟩
def ACQ_MCLK_EN : Field := ⟨0x50008, 0, 6, .rwa, 0x3f, 0, 63, true, false, false⟩
def ACQ_SYNC_CFG_SRC : Field := ⟨0x5000c, 0, 2, .rwa, 0, 0, 3, true, false, false⟩
def ACQ_SYNC_GO : Field := ⟨0x50010, 0, 1, .wo, 0, 0, 1, false, false, false⟩
def ACQ_SYNC_SEC_SEC : Field := ⟨0x50014, 0, 32, .ro, 0, 0, 4294967295, false, false, false⟩
def ACQ_SYNC_NS_NS : Field := ⟨0x50018, 0, 30, .ro, 0, 0, 1073741823, false, false, false⟩
def ACQ_STAT_RUN : Field := ⟨0x5001c, 0, 1, .ro, 0, 0, 1, false, false, false⟩
def ACQ_STAT_ARMED : Field := ⟨0x5001c, 1, 1, .ro, 0, 0, 1, false, false, false⟩
def ACQ_STAT_SETTLING : Field := ⟨0x5001c, 2, 1, .ro, 0, 0, 1, false, false, false⟩
def ACQ_STAT_GAP : Field := ⟨0x5001c, 3, 1, .ro, 0, 0, 1, false, false, false⟩
def ACQ_FAULT_PARMAX : Field := ⟨0x50020, 0, 8, .rwa, 8, 1, 255, true, false, false⟩
def ACQ_FAULT_OVLRUN : Field := ⟨0x50020, 8, 8, .rwa, 0x30, 16, 255, true, false, false⟩
def ACQ_DET_CFG_RMS_CYC : Field := ⟨0x50024, 0, 4, .rwa, 1, 1, 15, true, false, false⟩
def ACQ_DET_CFG_DECAY : Field := ⟨0x50024, 4, 5, .rwa, 0xa, 4, 20, true, false, false⟩
def ACQ_DET_CFG_HYST : Field := ⟨0x50024, 12, 4, .rwa, 4, 0, 15, true, false, false⟩
def ACQ_FIR_SEL_BANK : Field := ⟨0x50030, 0, 1, .rw, 0, 0, 1, true, false, false⟩
def ACQ_FIR_SEL_ACTIVE : Field := ⟨0x50030, 1, 1, .ro, 0, 0, 1, false, false, false⟩
def ACQ_FIRA_CFG_NTAP : Field := ⟨0x50040, 0, 7, .rw, 1, 1, 64, true, false, false⟩
def ACQ_FIRA_CFG_GDLY : Field := ⟨0x50040, 16, 16, .rw, 0, 0, 65535, true, false, false⟩
def ACQ_FIRB_CFG_NTAP : Field := ⟨0x50044, 0, 7, .rw, 1, 1, 64, true, false, false⟩
def ACQ_FIRB_CFG_GDLY : Field := ⟨0x50044, 16, 16, .rw, 0, 0, 65535, true, false, false⟩
def ACQ_FIRA_C_COEF (i : Nat) : Field := ⟨0x50100 + 0x4 * i, 0, 20, .rw, (if i = 0 then 0x40000 else 0), 0, 1048575, true, false, false⟩
def ACQ_FIRB_C_COEF (i : Nat) : Field := ⟨0x50200 + 0x4 * i, 0, 20, .rw, (if i = 0 then 0x40000 else 0), 0, 1048575, true, false, false⟩
def ACQ_L_DEC1_LEN (k : Nat) : Field := ⟨0x50400 + 0x20 * k, 0, 11, .rwa, 0x190, 1, 1024, true, false, false⟩
def ACQ_L_DEC1_SH (k : Nat) : Field := ⟨0x50400 + 0x20 * k, 16, 4, .rwa, 0, 0, 15, true, false, false⟩
def ACQ_L_DEC2_LEN (k : Nat) : Field := ⟨0x50404 + 0x20 * k, 0, 11, .rwa, 0x190, 1, 1024, true, false, false⟩
def ACQ_L_DEC2_SH (k : Nat) : Field := ⟨0x50404 + 0x20 * k, 16, 4, .rwa, 0, 0, 15, true, false, false⟩
def ACQ_L_DEC3_LEN (k : Nat) : Field := ⟨0x50408 + 0x20 * k, 0, 11, .rwa, 0x190, 1, 1024, true, false, false⟩
def ACQ_L_DEC3_SH (k : Nat) : Field := ⟨0x50408 + 0x20 * k, 16, 4, .rwa, 3, 0, 15, true, false, false⟩
def ACQ_L_CFG_RTD_CYC (k : Nat) : Field := ⟨0x5040c + 0x20 * k, 0, 2, .rwa, 0, 0, 3, true, false, false⟩
def ACQ_L_CFG_TCOR (k : Nat) : Field := ⟨0x5040c + 0x20 * k, 16, 16, .rwa, 0, 0, 65535, true, false, false⟩
def ACQ_L_STAT_LOCK (k : Nat) : Field := ⟨0x50410 + 0x20 * k, 0, 1, .ro, 0, 0, 1, false, false, false⟩
def ACQ_L_STAT_FAULT (k : Nat) : Field := ⟨0x50410 + 0x20 * k, 1, 1, .ro, 0, 0, 1, false, false, false⟩
def ACQ_L_STAT_RTD (k : Nat) : Field := ⟨0x50410 + 0x20 * k, 8, 8, .ro, 0, 0, 255, false, false, false⟩
def ACQ_L_STAT_SATCH (k : Nat) : Field := ⟨0x50410 + 0x20 * k, 16, 8, .ro, 0, 0, 255, false, false, false⟩
def ACQ_L_GDLY_GDLY (k : Nat) : Field := ⟨0x50414 + 0x20 * k, 0, 20, .ro, 0x24879, 0, 1048575, false, false, false⟩
def ACQ_L_PARERR_COUNT (k : Nat) : Field := ⟨0x50418 + 0x20 * k, 0, 16, .roc, 0, 0, 65535, false, false, false⟩
def ACQ_L_SATCNT_COUNT (k : Nat) : Field := ⟨0x5041c + 0x20 * k, 0, 16, .roc, 0, 0, 65535, false, true, false⟩
def ACQ_CH_CFG_EN (c : Nat) : Field := ⟨0x51000 + 0x20 * c, 0, 1, .rwa, 1, 0, 1, true, false, false⟩
def ACQ_CH_CFG_FLAGS (c : Nat) : Field := ⟨0x51000 + 0x20 * c, 8, 4, .ro, 0, 0, 15, false, false, false⟩
def ACQ_CH_THR_PK_THR (c : Nat) : Field := ⟨0x51004 + 0x20 * c, 0, 24, .rwa, 0, 0, 16777215, true, false, false⟩
def ACQ_CH_THR_RMSHI_THR (c : Nat) : Field := ⟨0x51008 + 0x20 * c, 0, 24, .rwa, 0, 0, 16777215, true, false, false⟩
def ACQ_CH_THR_RMSLO_THR (c : Nat) : Field := ⟨0x5100c + 0x20 * c, 0, 24, .rwa, 0, 0, 16777215, true, false, false⟩
def ACQ_CH_THR_ENVLO_THR (c : Nat) : Field := ⟨0x51010 + 0x20 * c, 0, 24, .rwa, 0, 0, 16777215, true, false, false⟩
def ACQ_CH_PK_VALUE (c : Nat) : Field := ⟨0x51014 + 0x20 * c, 0, 24, .ro, 0, 0, 16777215, false, false, false⟩
def ACQ_CH_RMS_VALUE (c : Nat) : Field := ⟨0x51018 + 0x20 * c, 0, 24, .ro, 0, 0, 16777215, false, false, false⟩
def ACQ_CH_ENV_VALUE (c : Nat) : Field := ⟨0x5101c + 0x20 * c, 0, 24, .ro, 0, 0, 16777215, false, false, false⟩
def ACQ_STI_CFG_EN (i : Nat) : Field := ⟨0x53000 + 0x4 * i, 0, 1, .rwa, 0, 0, 1, true, false, false⟩
def ACQ_STI_CFG_INV (i : Nat) : Field := ⟨0x53000 + 0x4 * i, 1, 1, .rwa, 0, 0, 1, true, false, false⟩
def ACQ_STI_CFG_LOG (i : Nat) : Field := ⟨0x53000 + 0x4 * i, 2, 1, .rwa, 0, 0, 1, true, false, false⟩
def ACQ_STI_CFG_DEB (i : Nat) : Field := ⟨0x53000 + 0x4 * i, 16, 16, .rwa, 0x1f4, 0, 65535, true, false, false⟩
def ACQ_STI_STATE_LO_STATE : Field := ⟨0x53100, 0, 32, .ro, 0, 0, 4294967295, false, false, false⟩
def ACQ_STI_STATE_HI_STATE : Field := ⟨0x53104, 0, 32, .ro, 0, 0, 4294967295, false, false, false⟩
def ACQ_STI_CHAT_LO_CHAT : Field := ⟨0x53108, 0, 32, .ro, 0, 0, 4294967295, false, false, false⟩
def ACQ_STI_CHAT_HI_CHAT : Field := ⟨0x5310c, 0, 32, .ro, 0, 0, 4294967295, false, false, false⟩
def ACQ_STI_GCFG_CHAT_MAX : Field := ⟨0x53110, 0, 8, .rwa, 0x14, 0, 255, true, false, false⟩
def ACQ_STI_CHGCNT_COUNT : Field := ⟨0x53114, 0, 32, .roc, 0, 0, 4294967295, false, false, false⟩

/-! ### PHS (block 7) -/

def PHS_CFG_EN : Field := ⟨0x60000, 0, 1, .rwa, 0, 0, 1, true, false, false⟩
def PHS_CFG_TEST : Field := ⟨0x60000, 1, 1, .rwa, 0, 0, 1, true, false, false⟩
def PHS_STAT_RUN : Field := ⟨0x60004, 0, 1, .ro, 0, 0, 1, false, false, false⟩
def PHS_HS_ACT_ACT : Field := ⟨0x60008, 0, 32, .ro, 0, 0, 4294967295, false, false, false⟩
def PHS_HS_MISS_MISS : Field := ⟨0x6000c, 0, 32, .ro, 0, 0, 4294967295, false, false, false⟩
def PHS_CH_SCALE_SCALE (c : Nat) : Field := ⟨0x61000 + 0x8 * c, 0, 32, .rwa, 0x3f800000, 0, 4294967295, true, false, false⟩
def PHS_CH_ANG_ANG (c : Nat) : Field := ⟨0x61004 + 0x8 * c, 0, 24, .rwa, 0, 0, 16777215, true, false, false⟩
def PHS_LOM_CFG_CH (d : Nat) : Field := ⟨0x62000 + 0x20 * d, 0, 8, .rwa, 0, 0, 255, true, false, false⟩
def PHS_LOM_CFG_SEQ (d : Nat) : Field := ⟨0x62000 + 0x20 * d, 8, 1, .rwa, 0, 0, 1, true, false, false⟩
def PHS_LOM_CFG_RC_EN (d : Nat) : Field := ⟨0x62000 + 0x20 * d, 9, 1, .rwa, 0, 0, 1, true, false, false⟩
def PHS_LOM_CFG_VS_EN (d : Nat) : Field := ⟨0x62000 + 0x20 * d, 10, 1, .rwa, 0, 0, 1, true, false, false⟩
def PHS_LOM_RC_RC_THR (d : Nat) : Field := ⟨0x62004 + 0x20 * d, 0, 16, .rwa, 0x64, 1, 65535, true, false, false⟩
def PHS_LOM_RC_RC_WIN (d : Nat) : Field := ⟨0x62004 + 0x20 * d, 16, 6, .rwa, 2, 1, 50, true, false, false⟩
def PHS_LOM_RC_RC_N (d : Nat) : Field := ⟨0x62004 + 0x20 * d, 24, 4, .rwa, 4, 1, 15, true, false, false⟩
def PHS_LOM_VS_VS_THR (d : Nat) : Field := ⟨0x62008 + 0x20 * d, 0, 16, .rwa, 0x384, 1, 65535, true, false, false⟩
def PHS_LOM_VS_VS_N (d : Nat) : Field := ⟨0x62008 + 0x20 * d, 16, 4, .rwa, 2, 1, 15, true, false, false⟩
def PHS_LOM_VS_VS_HOLD (d : Nat) : Field := ⟨0x62008 + 0x20 * d, 20, 12, .rwa, 0x64, 1, 4095, true, false, false⟩
def PHS_LOM_VMIN_VMIN (d : Nat) : Field := ⟨0x6200c + 0x20 * d, 0, 32, .rwa, 0, 0, 4294967295, true, false, false⟩
def PHS_LOM_STAT_RC (d : Nat) : Field := ⟨0x62010 + 0x20 * d, 0, 1, .ro, 0, 0, 1, false, false, false⟩
def PHS_LOM_STAT_VS (d : Nat) : Field := ⟨0x62010 + 0x20 * d, 1, 1, .ro, 0, 0, 1, false, false, false⟩
def PHS_LOM_STAT_BLOCKED (d : Nat) : Field := ⟨0x62010 + 0x20 * d, 2, 1, .ro, 0, 0, 1, false, false, false⟩
def PHS_LOM_STAT_READY (d : Nat) : Field := ⟨0x62010 + 0x20 * d, 3, 1, .ro, 0, 0, 1, false, false, false⟩
def PHS_LOM_VAL_ROCOF (d : Nat) : Field := ⟨0x62014 + 0x20 * d, 0, 16, .ro, 0, 0, 65535, false, false, false⟩
def PHS_LOM_VAL_SHIFT (d : Nat) : Field := ⟨0x62014 + 0x20 * d, 16, 16, .ro, 0, 0, 65535, false, false, false⟩
def PHS_LOM_TRIPS_RC (d : Nat) : Field := ⟨0x62018 + 0x20 * d, 0, 16, .roc, 0, 0, 65535, false, true, false⟩
def PHS_LOM_TRIPS_VS (d : Nat) : Field := ⟨0x62018 + 0x20 * d, 16, 16, .roc, 0, 0, 65535, false, true, false⟩
def PHS_SSO_CFG_CH (m : Nat) : Field := ⟨0x63000 + 0x20 * m, 0, 8, .rwa, 0, 0, 255, true, false, false⟩
def PHS_SSO_CFG_EN (m : Nat) : Field := ⟨0x63000 + 0x20 * m, 8, 1, .rwa, 0, 0, 1, true, false, false⟩
def PHS_SSO_THR_THR (m : Nat) : Field := ⟨0x63004 + 0x20 * m, 0, 16, .rwa, 0x32, 0, 65535, true, false, false⟩
def PHS_SSO_THR_SSO_N (m : Nat) : Field := ⟨0x63004 + 0x20 * m, 16, 4, .rwa, 3, 1, 15, true, false, false⟩
def PHS_SSO_F1 (m : Nat) : Field := ⟨0x63008 + 0x20 * m, 0, 32, .ro, 0, 0, 4294967295, false, false, false⟩
def PHS_SSO_A1 (m : Nat) : Field := ⟨0x6300c + 0x20 * m, 0, 32, .ro, 0, 0, 4294967295, false, false, false⟩
def PHS_SSO_F2 (m : Nat) : Field := ⟨0x63010 + 0x20 * m, 0, 32, .ro, 0, 0, 4294967295, false, false, false⟩
def PHS_SSO_A2 (m : Nat) : Field := ⟨0x63014 + 0x20 * m, 0, 32, .ro, 0, 0, 4294967295, false, false, false⟩
def PHS_SSO_STAT_FLAG (m : Nat) : Field := ⟨0x63018 + 0x20 * m, 0, 1, .ro, 0, 0, 1, false, false, false⟩
def PHS_SSO_STAT_READY (m : Nat) : Field := ⟨0x63018 + 0x20 * m, 1, 1, .ro, 0, 0, 1, false, false, false⟩
def HSM_EN (e : Nat) : Field := ⟨0x3900000000 + 256 * e, 0, 1, .rwa, 0, 0, 1, true, false, false⟩
def HSM_CLASS (e : Nat) : Field := ⟨0x3900000000 + 256 * e, 1, 1, .rwa, 0, 0, 1, true, false, false⟩
def HSM_DIV (e : Nat) : Field := ⟨0x3900000000 + 256 * e, 2, 5, .rwa, 1, 1, 24, true, false, false⟩
def HSM_COLUMN (e : Nat) : Field := ⟨0x3900000000 + 256 * e, 8, 12, .rwa, 0, 0, 4095, true, false, false⟩
def HSM_DIG_EN (e : Nat) : Field := ⟨0x3900000000 + 256 * e, 20, 1, .rwa, 0, 0, 1, true, false, false⟩
def HSM_DIG_BASE (e : Nat) : Field := ⟨0x3900000000 + 256 * e, 21, 6, .rwa, 0, 0, 63, true, false, false⟩
def HSM_FCH (e : Nat) : Field := ⟨0x3900000004 + 256 * e, 0, 8, .rwa, 0, 0, 255, true, false, false⟩
def HSM_FSEQ (e : Nat) : Field := ⟨0x3900000004 + 256 * e, 8, 1, .rwa, 0, 0, 1, true, false, false⟩
def HSM_PH_BASE (e : Nat) : Field := ⟨0x3900000004 + 256 * e, 16, 15, .rwa, 0, 0, 32767, true, false, false⟩
def HSM_AN_BASE (e : Nat) : Field := ⟨0x3900000008 + 256 * e, 0, 13, .rwa, 0, 0, 8191, true, false, false⟩
def HSM_NPH (e : Nat) : Field := ⟨0x3900000008 + 256 * e, 16, 5, .ro, 0, 0, 31, false, false, false⟩
def HSM_NAN (e : Nat) : Field := ⟨0x3900000008 + 256 * e, 24, 8, .ro, 0, 0, 255, false, false, false⟩
def HSM_PHDL (e : Nat) (b : Nat) : Field := ⟨0x390000000c + 256 * e + 4 * b, 0, 16, .rwa, 0, 0, 65535, true, false, false⟩
def HSM_PHDH (e : Nat) (b : Nat) : Field := ⟨0x390000000c + 256 * e + 4 * b, 16, 16, .rwa, 0, 0, 65535, true, false, false⟩
def HSM_SSOMASK (e : Nat) : Field := ⟨0x390000002c + 256 * e, 0, 16, .rwa, 0, 0, 65535, true, false, false⟩
def HSM_LASTSTAT (e : Nat) : Field := ⟨0x3900000030 + 256 * e, 0, 16, .ro, 0, 0, 65535, false, false, false⟩

/-! ### CCD (block 8) -/

def CCD_CFG_FSYS : Field := ⟨0x70000, 0, 1, .rw, 0, 0, 1, true, false, false⟩
def CCD_CFG_RATE : Field := ⟨0x70000, 8, 8, .rw, 0x32, 0, 255, true, false, false⟩
def CCD_TBASE_TBASE : Field := ⟨0x70004, 0, 24, .rw, 0xf4240, 1, 16777215, true, false, false⟩
def CCD_SPEC_DELAY : Field := ⟨0x70008, 0, 20, .rwa, 0x1f40, 1000, 1000000, true, false, false⟩
def CCD_SPEC_EN : Field := ⟨0x70008, 31, 1, .rwa, 1, 0, 1, true, false, false⟩
def CCD_WAIT_WAIT : Field := ⟨0x7000c, 0, 7, .rwa, 3, 1, 127, true, false, false⟩
def CCD_HZN_WARN : Field := ⟨0x70010, 0, 16, .rwa, 0x1f4, 0, 65535, true, false, false⟩
def CCD_MISS_EV_RUN : Field := ⟨0x70014, 0, 8, .rwa, 0xa, 0, 255, true, false, false⟩
def CCD_QC_QPCT (q : Nat) : Field := ⟨0x70020 + 0x4 * q, 0, 7, .rwa, 0, 0, 100, true, false, false⟩
def CCD_QC_LASTPRES (q : Nat) : Field := ⟨0x70020 + 0x4 * q, 16, 13, .ro, 0, 0, 8191, false, false, false⟩
def CCD_LANES_COUNT : Field := ⟨0x70040, 0, 5, .ro, 0x10, 0, 31, false, false, false⟩
def CCD_LANES_FENCED : Field := ⟨0x70040, 16, 16, .ro, 0, 0, 65535, false, false, false⟩
def CCD_STAT_OPEN : Field := ⟨0x70044, 0, 8, .ro, 0, 0, 255, false, false, false⟩
def CCD_STAT_HELD : Field := ⟨0x70044, 8, 1, .ro, 0, 0, 1, false, false, false⟩
def CCD_STAT_INQUORATE : Field := ⟨0x70044, 9, 1, .ro, 0, 0, 1, false, false, false⟩
def CCD_STAT_RATE_ACT : Field := ⟨0x70044, 16, 8, .ro, 0, 0, 255, false, false, false⟩
def CCD_STAT_FSYS_ACT : Field := ⟨0x70044, 24, 1, .ro, 0, 0, 1, false, false, false⟩
def CCD_NEXT_SERIAL_SERIAL : Field := ⟨0x70048, 0, 32, .ro, 0, 0, 4294967295, false, false, false⟩
def CCD_LAST_SERIAL_SERIAL : Field := ⟨0x7004c, 0, 32, .ro, 0, 0, 4294967295, false, false, false⟩
def CCD_DIR_SEL_POS : Field := ⟨0x70050, 0, 7, .rw, 0, 0, 127, false, false, false⟩
def CCD_OPENED_COUNT : Field := ⟨0x70060, 0, 32, .roc, 0, 0, 4294967295, false, false, false⟩
def CCD_COMMITTED_COUNT : Field := ⟨0x70064, 0, 32, .roc, 0, 0, 4294967295, false, false, false⟩
def CCD_ABORTED_COUNT : Field := ⟨0x70068, 0, 32, .roc, 0, 0, 4294967295, false, false, false⟩
def CCD_SKIPPED_COUNT : Field := ⟨0x7006c, 0, 32, .roc, 0, 0, 4294967295, false, false, false⟩
def CCD_DEFERRED_COUNT : Field := ⟨0x70070, 0, 32, .roc, 0, 0, 4294967295, false, false, false⟩
def CCD_POSTCOMMIT_COUNT : Field := ⟨0x70074, 0, 32, .roc, 0, 0, 4294967295, false, false, false⟩
def CCD_DEADFR_COUNT : Field := ⟨0x70078, 0, 32, .roc, 0, 0, 4294967295, false, false, false⟩
def CCD_INQUORATE_COUNT : Field := ⟨0x7007c, 0, 32, .roc, 0, 0, 4294967295, false, false, false⟩
def CCD_HZN_MAX_US : Field := ⟨0x70080, 0, 32, .roc, 0, 0, 4294967295, false, false, false⟩
def CCD_SECDED_COUNT : Field := ⟨0x70084, 0, 32, .roc, 0, 0, 4294967295, false, false, false⟩
def CCD_UNEXP_COUNT : Field := ⟨0x70088, 0, 32, .roc, 0, 0, 4294967295, false, false, false⟩
def CCD_DIR_HDR_W (i : Nat) : Field := ⟨0x71000 + 0x4 * i, 0, 32, .ro, 0, 0, 4294967295, false, false, false⟩
def CCD_DIR_COL_H0 (i : Nat) : Field := ⟨0x72000 + 0x4 * i, 0, 16, .ro, 0, 0, 65535, false, false, false⟩
def CCD_DIR_COL_H1 (i : Nat) : Field := ⟨0x72000 + 0x4 * i, 16, 16, .ro, 0, 0, 65535, false, false, false⟩
def CCD_CATCHUP_PCT : Field := ⟨0x70100, 0, 7, .rwa, 0x32, 10, 100, true, false, false⟩
def CCD_SPECSTAT_INFLIGHT : Field := ⟨0x70104, 0, 8, .ro, 0, 0, 255, false, false, false⟩
def CCD_SPECSTAT_CATCHUP : Field := ⟨0x70104, 8, 1, .ro, 0, 0, 1, false, false, false⟩
def CCD_SPECSTAT_SBUSY : Field := ⟨0x70104, 9, 1, .ro, 0, 0, 1, false, false, false⟩
def CCD_SPECSTAT_IBUSY : Field := ⟨0x70104, 10, 1, .ro, 0, 0, 1, false, false, false⟩
def CCD_SPECSTAT_NOSPILL : Field := ⟨0x70104, 11, 1, .ro, 0, 0, 1, false, false, false⟩
def CCD_LAG_US : Field := ⟨0x70108, 0, 32, .ro, 0, 0, 4294967295, false, false, false⟩
def CCD_LAG_MAX_US : Field := ⟨0x7010c, 0, 32, .roc, 0, 0, 4294967295, false, false, false⟩
def CCD_INFL_MAX_MAX : Field := ⟨0x70110, 0, 8, .roc, 0, 0, 255, false, false, false⟩
def CCD_CKPT_SIZE_BYTES : Field := ⟨0x70114, 0, 22, .ro, 0x40, 0, 4194303, false, false, false⟩
def CCD_MSG_SEQ_SEQ : Field := ⟨0x70118, 0, 32, .ro, 0, 0, 4294967295, false, false, false⟩
def CCD_SPECCNT_COUNT : Field := ⟨0x70120, 0, 32, .roc, 0, 0, 4294967295, false, false, false⟩
def CCD_REEVAL_COUNT : Field := ⟨0x70124, 0, 32, .roc, 0, 0, 4294967295, false, false, false⟩
def CCD_REVPUB_COUNT : Field := ⟨0x70128, 0, 32, .roc, 0, 0, 4294967295, false, false, false⟩
def CCD_SAME_COUNT : Field := ⟨0x7012c, 0, 32, .roc, 0, 0, 4294967295, false, false, false⟩
def CCD_DIRTYCNT_COUNT : Field := ⟨0x70130, 0, 32, .roc, 0, 0, 4294967295, false, false, false⟩
def CCD_REVFULL_COUNT : Field := ⟨0x70134, 0, 32, .roc, 0, 0, 4294967295, false, false, false⟩
def CCD_CONFIRMS_COUNT : Field := ⟨0x70138, 0, 32, .roc, 0, 0, 4294967295, false, false, false⟩
def CCD_RETRACTS_COUNT : Field := ⟨0x7013c, 0, 32, .roc, 0, 0, 4294967295, false, false, false⟩
def CCD_NOREPLAY_COUNT : Field := ⟨0x70140, 0, 32, .roc, 0, 0, 4294967295, false, false, false⟩
def CCD_NOSPECRUN_COUNT : Field := ⟨0x70144, 0, 32, .roc, 0, 0, 4294967295, false, false, false⟩
def CCD_CKPT_ERR_COUNT : Field := ⟨0x70148, 0, 32, .roc, 0, 0, 4294967295, false, false, false⟩
def CCD_GENMERGE_COUNT : Field := ⟨0x7014c, 0, 32, .roc, 0, 0, 4294967295, false, false, false⟩

/-! ### ANA (block 9) -/

def ANA_CFG_EN : Field := ⟨0x80000, 0, 1, .rwa, 0, 0, 1, true, false, false⟩
def ANA_REF_REFNODE : Field := ⟨0x80004, 0, 12, .rwa, 0, 0, 4095, true, false, false⟩
def ANA_REF_REFGROUP : Field := ⟨0x80004, 16, 5, .rwa, 0, 0, 31, true, false, false⟩
def ANA_ROOT_ROOT_N : Field := ⟨0x80008, 0, 8, .rwa, 0x19, 8, 255, true, false, false⟩
def ANA_MODE_FMIN : Field := ⟨0x8000c, 0, 16, .rwa, 0xa, 0, 65535, true, false, false⟩
def ANA_MODE_FMAX : Field := ⟨0x8000c, 16, 16, .rwa, 0x1f4, 0, 65535, true, false, false⟩
def ANA_MODE2_ZMAX : Field := ⟨0x80010, 0, 16, .rwa, 0x12c, 0, 65535, true, false, false⟩
def ANA_FO_FO_ZETA : Field := ⟨0x80014, 0, 16, .rwa, 0x32, 0, 65535, true, false, false⟩
def ANA_FO_FO_K : Field := ⟨0x80014, 16, 8, .rwa, 4, 2, 255, true, false, false⟩
def ANA_FO_FO_DF : Field := ⟨0x80014, 24, 8, .rwa, 0x14, 0, 255, true, false, false⟩
def ANA_RLS_PINIT_PINIT : Field := ⟨0x80018, 0, 32, .rwa, 0x447a0000, 0, 4294967295, true, false, false⟩
def ANA_RLS_PMAX_PMAX : Field := ⟨0x8001c, 0, 32, .rwa, 0x49742400, 0, 4294967295, true, false, false⟩
def ANA_EVAL_S_US : Field := ⟨0x80024, 0, 16, .ro, 0, 0, 65535, false, false, false⟩
def ANA_EVAL_I_US : Field := ⟨0x80028, 0, 16, .ro, 0, 0, 65535, false, false, false⟩
def ANA_EVAL_S_MAX_US : Field := ⟨0x8002c, 0, 16, .roc, 0, 0, 65535, false, false, false⟩
def ANA_EVAL_I_MAX_US : Field := ⟨0x80030, 0, 16, .roc, 0, 0, 65535, false, false, false⟩
def ANA_ISL_CNT_COUNT : Field := ⟨0x80034, 0, 13, .ro, 0, 0, 8191, false, false, false⟩
def ANA_ISL_CNT_OVF : Field := ⟨0x80034, 16, 1, .ro, 0, 0, 1, false, false, false⟩
def ANA_ALM_ACK_DEF : Field := ⟨0x80038, 0, 11, .wo, 0, 0, 2047, false, false, false⟩
def ANA_PIN_STATE_LOGIC : Field := ⟨0x8003c, 0, 16, .ro, 0, 0, 65535, false, false, false⟩
def ANA_PIN_STATE_DRIVEN : Field := ⟨0x8003c, 16, 16, .ro, 0, 0, 65535, false, false, false⟩
def ANA_NUMERR_COUNT : Field := ⟨0x80040, 0, 32, .roc, 0, 0, 4294967295, false, false, false⟩
def ANA_RISES_COUNT : Field := ⟨0x80044, 0, 32, .roc, 0, 0, 4294967295, false, false, false⟩
def ANA_FALLS_COUNT : Field := ⟨0x80048, 0, 32, .roc, 0, 0, 4294967295, false, false, false⟩
def ANA_RESETS_COUNT : Field := ⟨0x8004c, 0, 32, .roc, 0, 0, 4294967295, false, false, false⟩
def ANA_BAND_FL (i : Nat) : Field := ⟨0x80100 + 0x4 * i, 0, 16, .rwa, (if i = 0 then 0xA else if i = 1 then 0x50 else if i = 2 then 0xC8 else if i = 3 then 0x1F4 else 0), 0, 65535, true, false, false⟩
def ANA_BAND_FH (i : Nat) : Field := ⟨0x80100 + 0x4 * i, 16, 16, .rwa, (if i = 0 then 0x50 else if i = 1 then 0xC8 else if i = 2 then 0x1F4 else if i = 3 then 0x3E8 else 0), 0, 65535, true, false, false⟩
def ANA_PIN_CFG_POL (p : Nat) : Field := ⟨0x80200 + 0x4 * p, 0, 1, .rwa, 0, 0, 1, true, false, false⟩
def ANA_PIN_CFG_OD (p : Nat) : Field := ⟨0x80200 + 0x4 * p, 1, 1, .rwa, 0, 0, 1, true, false, false⟩
def ANA_PIN_CFG_HOLD (p : Nat) : Field := ⟨0x80200 + 0x4 * p, 8, 8, .rwa, 0, 0, 255, true, false, false⟩
def ANA_PIN_CFG_FORCE (p : Nat) : Field := ⟨0x80200 + 0x4 * p, 16, 1, .rw, 0, 0, 1, false, false, false⟩
def ANA_PIN_CFG_FVAL (p : Nat) : Field := ⟨0x80200 + 0x4 * p, 17, 1, .rw, 0, 0, 1, false, false, false⟩
def ANA_MS_CFG_REF (g : Nat) : Field := ⟨0x80300 + 0x4 * g, 0, 10, .rwa, 0, 0, 1023, true, false, false⟩
def ANA_MS_CFG_EN (g : Nat) : Field := ⟨0x80300 + 0x4 * g, 15, 1, .rwa, 0, 0, 1, true, false, false⟩
def ANA_MS_CFG_MS_DF (g : Nat) : Field := ⟨0x80300 + 0x4 * g, 16, 12, .rwa, 0x32, 0, 4095, true, false, false⟩
def ANA_GRP_CFG_FSPLIT (g : Nat) : Field := ⟨0x80400 + 0x20 * g, 0, 16, .rwa, 0x64, 0, 65535, true, false, false⟩
def ANA_GRP_CFG_SLIP (g : Nat) : Field := ⟨0x80400 + 0x20 * g, 16, 16, .rwa, 0x1f4, 0, 65535, true, false, false⟩
def ANA_GRP_CFG2_DUR (g : Nat) : Field := ⟨0x80404 + 0x20 * g, 0, 4, .rwa, 3, 1, 15, true, false, false⟩
def ANA_GRP_CFG2_SLIP_SH (g : Nat) : Field := ⟨0x80404 + 0x20 * g, 4, 4, .rwa, 2, 0, 15, true, false, false⟩
def ANA_GRP_CFG2_GMIN (g : Nat) : Field := ⟨0x80404 + 0x20 * g, 8, 8, .rwa, 1, 1, 255, true, false, false⟩
def ANA_GRP_F (g : Nat) : Field := ⟨0x80408 + 0x20 * g, 0, 32, .ro, 0, 0, 4294967295, false, false, false⟩
def ANA_GRP_SPLIT (g : Nat) : Field := ⟨0x8040c + 0x20 * g, 0, 32, .ro, 0, 0, 4294967295, false, false, false⟩
def ANA_GRP_SLIPR (g : Nat) : Field := ⟨0x80410 + 0x20 * g, 0, 32, .ro, 0, 0, 4294967295, false, false, false⟩
def ANA_GRP_STAT_DIV (g : Nat) : Field := ⟨0x80414 + 0x20 * g, 0, 1, .ro, 0, 0, 1, false, false, false⟩
def ANA_GRP_STAT_MISSING (g : Nat) : Field := ⟨0x80414 + 0x20 * g, 1, 1, .ro, 0, 0, 1, false, false, false⟩
def ANA_GRP_STAT_PRESENT (g : Nat) : Field := ⟨0x80414 + 0x20 * g, 16, 13, .ro, 0, 0, 8191, false, false, false⟩
def ANA_ISL_W0_LOW (i : Nat) : Field := ⟨0x80800 + 0x10 * i, 0, 12, .ro, 0, 0, 4095, false, false, false⟩
def ANA_ISL_W0_NODES (i : Nat) : Field := ⟨0x80800 + 0x10 * i, 16, 13, .ro, 0, 0, 8191, false, false, false⟩
def ANA_ISL_W1_FNODES (i : Nat) : Field := ⟨0x80804 + 0x10 * i, 0, 13, .ro, 0, 0, 8191, false, false, false⟩
def ANA_ISL_W1_DEAD (i : Nat) : Field := ⟨0x80804 + 0x10 * i, 16, 1, .ro, 0, 0, 1, false, false, false⟩
def ANA_ISL_W2_MEAN (i : Nat) : Field := ⟨0x80808 + 0x10 * i, 0, 32, .ro, 0, 0, 4294967295, false, false, false⟩
def ANA_ISL_W3_SPLIT (i : Nat) : Field := ⟨0x8080c + 0x10 * i, 0, 32, .ro, 0, 0, 4294967295, false, false, false⟩
def ANA_ALM_ACT_DRIVE (j : Nat) : Field := ⟨0x80c00 + 0x4 * j, 0, 32, .ro, 0, 0, 4294967295, false, false, false⟩
def ANA_ALM_LAT_LATCHED (j : Nat) : Field := ⟨0x80d00 + 0x4 * j, 0, 32, .ro, 0, 0, 4294967295, false, false, false⟩
def DER_EN (e : Nat) : Field := ⟨0x4900000000 + 256 * e, 0, 1, .rwa, 0, 0, 1, true, false, false⟩
def DER_KIND (e : Nat) : Field := ⟨0x4900000000 + 256 * e, 1, 3, .rwa, 0, 0, 7, true, false, false⟩
def DER_NEG (e : Nat) : Field := ⟨0x4900000000 + 256 * e, 4, 4, .rwa, 0, 0, 15, true, false, false⟩
def DER_RSH (e : Nat) : Field := ⟨0x4900000000 + 256 * e, 8, 4, .rwa, 2, 0, 15, true, false, false⟩
def DER_MISS (e : Nat) : Field := ⟨0x4900000000 + 256 * e, 16, 1, .ro, 0, 0, 1, false, false, false⟩
def DER_OP (e : Nat) (b : Nat) : Field := ⟨0x4900000004 + 256 * e + 4 * b, 0, 32, .rwa, 0, 0, 4294967295, true, false, false⟩
def DER_K (e : Nat) : Field := ⟨0x4900000014 + 256 * e, 0, 32, .rwa, 0x3F800000, 0, 4294967295, true, false, false⟩
def DER_RE (e : Nat) : Field := ⟨0x4900000018 + 256 * e, 0, 32, .ro, 0, 0, 4294967295, false, false, false⟩
def DER_IM (e : Nat) : Field := ⟨0x490000001c + 256 * e, 0, 32, .ro, 0, 0, 4294967295, false, false, false⟩
def WAT_EN (e : Nat) : Field := ⟨0x4a00000000 + 256 * e, 0, 1, .rwa, 0, 0, 1, true, false, false⟩
def WAT_SRC (e : Nat) : Field := ⟨0x4a00000000 + 256 * e, 1, 3, .rwa, 0, 0, 7, true, false, false⟩
def WAT_ORDER (e : Nat) : Field := ⟨0x4a00000000 + 256 * e, 4, 5, .rwa, 10, 2, 20, true, false, false⟩
def WAT_ARBAND (e : Nat) : Field := ⟨0x4a00000000 + 256 * e, 9, 2, .rwa, 0, 0, 3, true, false, false⟩
def WAT_MSGROUP (e : Nat) : Field := ⟨0x4a00000000 + 256 * e, 11, 7, .rwa, 0x7F, 0, 127, true, false, false⟩
def WAT_INDEX (e : Nat) : Field := ⟨0x4a00000004 + 256 * e, 0, 15, .rwa, 0, 0, 32767, true, false, false⟩
def WAT_BANDS (e : Nat) : Field := ⟨0x4a00000008 + 256 * e, 0, 16, .rwa, 0x3210, 0, 65535, true, false, false⟩
def WAT_BAND_EN (e : Nat) : Field := ⟨0x4a00000008 + 256 * e, 16, 4, .rwa, 0xF, 0, 15, true, false, false⟩
def WAT_ESH (e : Nat) : Field := ⟨0x4a00000008 + 256 * e, 20, 4, .rwa, 6, 1, 15, true, false, false⟩
def WAT_LAMBDA (e : Nat) : Field := ⟨0x4a0000000c + 256 * e, 0, 32, .rwa, 0x3F7FBE77, 0, 4294967295, true, false, false⟩
def WAT_SCALE (e : Nat) : Field := ⟨0x4a00000010 + 256 * e, 0, 32, .rwa, 0x3F800000, 0, 4294967295, true, false, false⟩
def WAT_READY (e : Nat) : Field := ⟨0x4a00000018 + 256 * e, 0, 1, .ro, 0, 0, 1, false, false, false⟩
def WAT_NMODE (e : Nat) : Field := ⟨0x4a00000018 + 256 * e, 1, 3, .ro, 0, 0, 7, false, false, false⟩
def WAT_CLASS (e : Nat) : Field := ⟨0x4a00000018 + 256 * e, 4, 8, .ro, 0, 0, 255, false, false, false⟩
def WAT_NUPD (e : Nat) : Field := ⟨0x4a00000018 + 256 * e, 16, 16, .ro, 0, 0, 65535, false, false, false⟩
def WAT_BRMS (e : Nat) (b : Nat) : Field := ⟨0x4a0000001c + 256 * e + 4 * b, 0, 32, .ro, 0, 0, 4294967295, false, false, false⟩
def WAT_MODE (e : Nat) (b : Nat) : Field := ⟨0x4a0000002c + 256 * e + 4 * b, 0, 32, .ro, 0, 0, 4294967295, false, false, false⟩
def WAT_MSMAG (e : Nat) : Field := ⟨0x4a0000006c + 256 * e, 0, 32, .ro, 0, 0, 4294967295, false, false, false⟩
def WAT_MSPH (e : Nat) : Field := ⟨0x4a00000070 + 256 * e, 0, 32, .ro, 0, 0, 4294967295, false, false, false⟩
def WAT_EXTR (e : Nat) : Field := ⟨0x4a00000074 + 256 * e, 0, 32, .ro, 0, 0, 4294967295, false, false, false⟩
def ALM_EN (e : Nat) : Field := ⟨0x4b00000000 + 256 * e, 0, 1, .rwa, 0, 0, 1, true, false, false⟩
def ALM_SOURCE (e : Nat) : Field := ⟨0x4b00000000 + 256 * e, 1, 6, .rwa, 0, 0, 63, true, false, false⟩
def ALM_CMP (e : Nat) : Field := ⟨0x4b00000000 + 256 * e, 7, 3, .rwa, 0, 0, 7, true, false, false⟩
def ALM_MOOD (e : Nat) : Field := ⟨0x4b00000000 + 256 * e, 10, 2, .rwa, 0, 0, 3, true, false, false⟩
def ALM_QMASK (e : Nat) : Field := ⟨0x4b00000000 + 256 * e, 12, 7, .rwa, 0, 0, 127, true, false, false⟩
def ALM_MISS (e : Nat) : Field := ⟨0x4b00000000 + 256 * e, 19, 2, .rwa, 0, 0, 3, true, false, false⟩
def ALM_LATCH (e : Nat) : Field := ⟨0x4b00000000 + 256 * e, 21, 1, .rwa, 0, 0, 1, true, false, false⟩
def ALM_EV (e : Nat) : Field := ⟨0x4b00000000 + 256 * e, 22, 1, .rwa, 1, 0, 1, true, false, false⟩
def ALM_PUB (e : Nat) : Field := ⟨0x4b00000000 + 256 * e, 23, 1, .rwa, 0, 0, 1, true, false, false⟩
def ALM_CAP (e : Nat) : Field := ⟨0x4b00000000 + 256 * e, 24, 5, .rwa, 0x1F, 0, 31, true, false, false⟩
def ALM_INDEX (e : Nat) : Field := ⟨0x4b00000004 + 256 * e, 0, 13, .rwa, 0, 0, 8191, true, false, false⟩
def ALM_SUB (e : Nat) : Field := ⟨0x4b00000004 + 256 * e, 16, 4, .rwa, 0, 0, 15, true, false, false⟩
def ALM_INDEX2 (e : Nat) : Field := ⟨0x4b00000004 + 256 * e, 20, 11, .rwa, 0, 0, 2047, true, false, false⟩
def ALM_THR (e : Nat) : Field := ⟨0x4b00000008 + 256 * e, 0, 32, .rwa, 0, 0, 4294967295, true, false, false⟩
def ALM_HYST (e : Nat) : Field := ⟨0x4b0000000c + 256 * e, 0, 32, .rwa, 0, 0, 4294967295, true, false, false⟩
def ALM_PINS (e : Nat) : Field := ⟨0x4b00000010 + 256 * e, 0, 16, .rwa, 0, 0, 65535, true, false, false⟩
def ALM_ON_DUR (e : Nat) : Field := ⟨0x4b00000014 + 256 * e, 0, 16, .rwa, 0, 0, 65535, true, false, false⟩
def ALM_OFF_DUR (e : Nat) : Field := ⟨0x4b00000014 + 256 * e, 16, 16, .rwa, 0, 0, 65535, true, false, false⟩
def ALM_ACT_I (e : Nat) : Field := ⟨0x4b00000018 + 256 * e, 0, 1, .ro, 0, 0, 1, false, false, false⟩
def ALM_ACT_S (e : Nat) : Field := ⟨0x4b00000018 + 256 * e, 1, 1, .ro, 0, 0, 1, false, false, false⟩
def ALM_LATCHED (e : Nat) : Field := ⟨0x4b00000018 + 256 * e, 2, 1, .ro, 0, 0, 1, false, false, false⟩
def ALM_DRIVE (e : Nat) : Field := ⟨0x4b00000018 + 256 * e, 3, 1, .ro, 0, 0, 1, false, false, false⟩
def ALM_VALUE (e : Nat) : Field := ⟨0x4b0000001c + 256 * e, 0, 32, .ro, 0, 0, 4294967295, false, false, false⟩
def NOD_EN (e : Nat) : Field := ⟨0x4c00000000 + 256 * e, 0, 1, .rwa, 0, 0, 1, true, false, false⟩
def NOD_GROUP (e : Nat) : Field := ⟨0x4c00000000 + 256 * e, 1, 5, .rwa, 0, 0, 31, true, false, false⟩
def NOD_GRP_EN (e : Nat) : Field := ⟨0x4c00000000 + 256 * e, 6, 1, .rwa, 0, 0, 1, true, false, false⟩
def NOD_PH (e : Nat) : Field := ⟨0x4c00000004 + 256 * e, 0, 15, .rwa, 0, 0, 32767, true, false, false⟩
def NOD_PH_EN (e : Nat) : Field := ⟨0x4c00000004 + 256 * e, 15, 1, .rwa, 0, 0, 1, true, false, false⟩
def NOD_FCOL (e : Nat) : Field := ⟨0x4c00000004 + 256 * e, 16, 12, .rwa, 0, 0, 4095, true, false, false⟩
def NOD_F_EN (e : Nat) : Field := ⟨0x4c00000004 + 256 * e, 28, 1, .rwa, 0, 0, 1, true, false, false⟩
def NOD_ISLAND (e : Nat) : Field := ⟨0x4c00000008 + 256 * e, 0, 8, .ro, 0xFF, 0, 255, false, false, false⟩
def NOD_FPRES (e : Nat) : Field := ⟨0x4c00000008 + 256 * e, 8, 1, .ro, 0, 0, 1, false, false, false⟩
def NOD_RELANG (e : Nat) : Field := ⟨0x4c0000000c + 256 * e, 0, 32, .ro, 0, 0, 4294967295, false, false, false⟩
def BRA_EN (e : Nat) : Field := ⟨0x4d00000000 + 256 * e, 0, 1, .rwa, 0, 0, 1, true, false, false⟩
def BRA_NODE_A (e : Nat) : Field := ⟨0x4d00000000 + 256 * e, 1, 12, .rwa, 0, 0, 4095, true, false, false⟩
def BRA_NODE_B (e : Nat) : Field := ⟨0x4d00000000 + 256 * e, 13, 12, .rwa, 0, 0, 4095, true, false, false⟩
def BRA_SRC (e : Nat) : Field := ⟨0x4d00000000 + 256 * e, 25, 2, .rwa, 0, 0, 3, true, false, false⟩
def BRA_UNK (e : Nat) : Field := ⟨0x4d00000000 + 256 * e, 27, 2, .rwa, 0, 0, 3, true, false, false⟩
def BRA_INV (e : Nat) : Field := ⟨0x4d00000000 + 256 * e, 29, 1, .rwa, 0, 0, 1, true, false, false⟩
def BRA_SEL (e : Nat) : Field := ⟨0x4d00000004 + 256 * e, 0, 12, .rwa, 0, 0, 4095, true, false, false⟩
def BRA_BIT (e : Nat) : Field := ⟨0x4d00000004 + 256 * e, 12, 4, .rwa, 0, 0, 15, true, false, false⟩
def BRA_CLOSED (e : Nat) : Field := ⟨0x4d00000004 + 256 * e, 16, 1, .ro, 0, 0, 1, false, false, false⟩
def BRA_UNKNOWN (e : Nat) : Field := ⟨0x4d00000004 + 256 * e, 17, 1, .ro, 0, 0, 1, false, false, false⟩

/-! ### SCH (block 10) -/

def SCH_SHEDOK_OK : Field := ⟨0x9000c, 0, 8, .rwa, 0xfc, 0, 255, true, false, false⟩
def SCH_STEST_MS : Field := ⟨0x90010, 0, 16, .rwa, 0x3e8, 0, 65535, true, false, false⟩
def SCH_STAT_BUSY : Field := ⟨0x90014, 0, 5, .ro, 0, 0, 31, false, false, false⟩
def SCH_STAT_SHED : Field := ⟨0x90014, 8, 8, .ro, 0, 0, 255, false, false, false⟩
def SCH_STAT_HOLD : Field := ⟨0x90014, 16, 1, .ro, 0, 0, 1, false, false, false⟩
def SCH_STAT_LEVEL : Field := ⟨0x90014, 17, 4, .ro, 0, 0, 15, false, false, false⟩
def SCH_ITEMS_USED : Field := ⟨0x90018, 0, 11, .ro, 0, 0, 2047, false, false, false⟩
def SCH_ITEMS_FW_USED : Field := ⟨0x90018, 16, 11, .ro, 0, 0, 2047, false, false, false⟩
def SCH_DLY_USED : Field := ⟨0x9001c, 0, 13, .ro, 0, 0, 8191, false, false, false⟩
def SCH_DLY_FW_USED : Field := ⟨0x9001c, 16, 13, .ro, 0, 0, 8191, false, false, false⟩
def SCH_SUB_W0_TYPE : Field := ⟨0x90020, 0, 4, .rw, 0, 0, 15, false, false, false⟩
def SCH_SUB_W0_KEY : Field := ⟨0x90020, 16, 16, .rw, 0, 0, 65535, false, false, false⟩
def SCH_SUB_W1_AFTER : Field := ⟨0x90024, 0, 10, .rw, 0, 0, 1023, false, false, false⟩
def SCH_SUB_W1_AGEN : Field := ⟨0x90024, 10, 4, .rw, 0, 0, 15, false, false, false⟩
def SCH_SUB_W1_AFTER_EN : Field := ⟨0x90024, 15, 1, .rw, 0, 0, 1, false, false, false⟩
def SCH_SUB_W2_DELAY : Field := ⟨0x90028, 0, 32, .rw, 0, 0, 4294967295, false, false, false⟩
def SCH_SUB_W3_JOB : Field := ⟨0x9002c, 0, 32, .rw, 0, 0, 4294967295, false, false, false⟩
def SCH_SUB_CMD_GO : Field := ⟨0x90030, 0, 1, .wo, 0, 0, 1, false, false, false⟩
def SCH_SUB_STAT_HANDLE : Field := ⟨0x90034, 0, 10, .ro, 0, 0, 1023, false, false, false⟩
def SCH_SUB_STAT_GEN : Field := ⟨0x90034, 10, 4, .ro, 0, 0, 15, false, false, false⟩
def SCH_SUB_STAT_OK : Field := ⟨0x90034, 16, 1, .ro, 0, 0, 1, false, false, false⟩
def SCH_SUB_STAT_FULL : Field := ⟨0x90034, 17, 1, .ro, 0, 0, 1, false, false, false⟩
def SCH_DISP_COUNT (g : Nat) : Field := ⟨0x90040 + 0x4 * g, 0, 32, .roc, 0, 0, 4294967295, false, false, false⟩
def SCH_RETRY_COUNT : Field := ⟨0x90060, 0, 32, .roc, 0, 0, 4294967295, false, false, false⟩
def SCH_REQUEUE_COUNT : Field := ⟨0x90064, 0, 32, .roc, 0, 0, 4294967295, false, false, false⟩
def SCH_SHEDDROP_COUNT : Field := ⟨0x90068, 0, 32, .roc, 0, 0, 4294967295, false, false, false⟩
def SCH_REFUSED_COUNT : Field := ⟨0x9006c, 0, 32, .roc, 0, 0, 4294967295, false, false, false⟩
def SCH_GRP_STAT_READY (g : Nat) : Field := ⟨0x90080 + 0x4 * g, 0, 11, .ro, 0, 0, 2047, false, false, false⟩
def SCH_GRP_STAT_RUN (g : Nat) : Field := ⟨0x90080 + 0x4 * g, 16, 5, .ro, 0, 0, 31, false, false, false⟩
def SCH_GRP_STAT_SHED (g : Nat) : Field := ⟨0x90080 + 0x4 * g, 31, 1, .ro, 0, 0, 1, false, false, false⟩
def SCH_GRPW_W (g : Nat) : Field := ⟨0x90000 + 4 * (g / 4), 8 * (g % 4), 8, .rwa, (if g = 0 then 255 else if g = 1 then 128 else if g = 2 then 32 else if g = 3 then 16 else if g = 7 then 4 else 1), 1, 255, true, false, false⟩
def SCH_MAP_GRP (t : Nat) : Field := ⟨0x90008, 4 * t, 3, .rwa, (if t = 1 then 1 else if t = 4 then 2 else if t = 5 then 7 else if t = 7 then 3 else 0), 0, 7, true, false, false⟩

/-! ### PUB (block 11) -/

def PUB_CFG_EN : Field := ⟨0xa0000, 0, 1, .rwa, 0, 0, 1, true, false, false⟩
def PUB_MAXAGE_US : Field := ⟨0xa0004, 0, 20, .rwa, 0x1388, 100, 1000000, true, false, false⟩
def PUB_TCP_PORT : Field := ⟨0xa0008, 0, 16, .rwa, 0x1268, 0, 65535, true, false, false⟩
def PUB_TCP_MAXSESS : Field := ⟨0xa0008, 16, 6, .rwa, 0x10, 1, 63, true, false, false⟩
def PUB_TCP_IDLE : Field := ⟨0xa0008, 24, 8, .rwa, 0x3c, 0, 255, true, false, false⟩
def PUB_GATE_DRIVING : Field := ⟨0xa000c, 0, 1, .ro, 0, 0, 1, false, false, false⟩
def PUB_GATE_SESS : Field := ⟨0xa000c, 8, 6, .ro, 0, 0, 63, false, false, false⟩
def PUB_SRCIP_IP (n : Nat) : Field := ⟨0xa0010 + 0x4 * n, 0, 32, .rwa, 0, 0, 4294967295, true, false, false⟩
def PUB_QLVL_BYTES (n : Nat) : Field := ⟨0xa0030 + 0x4 * n, 0, 20, .ro, 0, 0, 1048575, false, false, false⟩
def OST_EN (e : Nat) : Field := ⟨0x5900000000 + 256 * e, 0, 1, .rwa, 0, 0, 1, true, false, false⟩
def OST_FORMAT (e : Nat) : Field := ⟨0x5900000000 + 256 * e, 1, 2, .rwa, 0, 0, 3, true, false, false⟩
def OST_MOOD (e : Nat) : Field := ⟨0x5900000000 + 256 * e, 3, 2, .rwa, 0, 0, 3, true, false, false⟩
def OST_DIV (e : Nat) : Field := ⟨0x5900000000 + 256 * e, 5, 5, .rwa, 1, 1, 24, true, false, false⟩
def OST_POLAR (e : Nat) : Field := ⟨0x5900000000 + 256 * e, 10, 1, .rwa, 0, 0, 1, true, false, false⟩
def OST_ALM_EN (e : Nat) : Field := ⟨0x5900000000 + 256 * e, 11, 1, .rwa, 0, 0, 1, true, false, false⟩
def OST_MSG_EN (e : Nat) : Field := ⟨0x5900000000 + 256 * e, 12, 1, .rwa, 0, 0, 1, true, false, false⟩
def OST_AUTOSTART (e : Nat) : Field := ⟨0x5900000000 + 256 * e, 13, 1, .rwa, 1, 0, 1, true, false, false⟩
def OST_PACE_EN (e : Nat) : Field := ⟨0x5900000000 + 256 * e, 14, 1, .rwa, 0, 0, 1, true, false, false⟩
def OST_CODE (e : Nat) : Field := ⟨0x5900000000 + 256 * e, 15, 3, .rwa, 0, 0, 7, true, false, false⟩
def OST_CODE_EN (e : Nat) : Field := ⟨0x5900000000 + 256 * e, 18, 1, .rwa, 0, 0, 1, true, false, false⟩
def OST_PORTMASK (e : Nat) : Field := ⟨0x5900000000 + 256 * e, 19, 6, .rwa, 0, 0, 63, true, false, false⟩
def OST_VLAN_EN (e : Nat) : Field := ⟨0x5900000000 + 256 * e, 25, 1, .rwa, 0, 0, 1, true, false, false⟩
def OST_COL_BASE (e : Nat) : Field := ⟨0x5900000004 + 256 * e, 0, 12, .rwa, 0, 0, 4095, true, false, false⟩
def OST_COL_CNT (e : Nat) : Field := ⟨0x5900000004 + 256 * e, 12, 13, .rwa, 0, 0, 4096, true, false, false⟩
def OST_DER_BASE (e : Nat) : Field := ⟨0x5900000008 + 256 * e, 0, 13, .rwa, 0, 0, 8191, true, false, false⟩
def OST_DER_CNT (e : Nat) : Field := ⟨0x5900000008 + 256 * e, 16, 8, .rwa, 0, 0, 255, true, false, false⟩
def OST_DSTIP (e : Nat) : Field := ⟨0x590000000c + 256 * e, 0, 32, .rwa, 0, 0, 4294967295, true, false, false⟩
def OST_DSTPORT (e : Nat) : Field := ⟨0x5900000010 + 256 * e, 0, 16, .rwa, 0x1269, 0, 65535, true, false, false⟩
def OST_SRCPORT (e : Nat) : Field := ⟨0x5900000010 + 256 * e, 16, 16, .rwa, 0x1269, 0, 65535, true, false, false⟩
def OST_DMACLO (e : Nat) : Field := ⟨0x5900000014 + 256 * e, 0, 32, .rwa, 0, 0, 4294967295, true, false, false⟩
def OST_DMACHI (e : Nat) : Field := ⟨0x5900000018 + 256 * e, 0, 16, .rwa, 0, 0, 65535, true, false, false⟩
def OST_DMAC_AUTO (e : Nat) : Field := ⟨0x5900000018 + 256 * e, 16, 1, .rwa, 1, 0, 1, true, false, false⟩
def OST_TTL (e : Nat) : Field := ⟨0x590000001c + 256 * e, 0, 8, .rwa, 0x40, 0, 255, true, false, false⟩
def OST_DSCP (e : Nat) : Field := ⟨0x590000001c + 256 * e, 8, 6, .rwa, 0, 0, 63, true, false, false⟩
def OST_VID (e : Nat) : Field := ⟨0x590000001c + 256 * e, 16, 12, .rwa, 0, 0, 4095, true, false, false⟩
def OST_PCP (e : Nat) : Field := ⟨0x590000001c + 256 * e, 28, 3, .rwa, 0, 0, 7, true, false, false⟩
def OST_IDCODE (e : Nat) : Field := ⟨0x5900000020 + 256 * e, 0, 16, .rwa, 0, 0, 65535, true, false, false⟩
def OST_CFGCNT (e : Nat) : Field := ⟨0x5900000020 + 256 * e, 16, 16, .ro, 0, 0, 65535, false, false, false⟩
def OST_SID (e : Nat) : Field := ⟨0x5900000024 + 256 * e, 0, 32, .rwa, 0, 0, 4294967295, true, false, false⟩
def OST_KEYSLOT (e : Nat) : Field := ⟨0x5900000028 + 256 * e, 0, 6, .rwa, 0, 0, 63, true, false, false⟩
def OST_SEC (e : Nat) : Field := ⟨0x5900000028 + 256 * e, 6, 2, .rwa, 0, 0, 2, true, false, false⟩
def OST_PACE_US (e : Nat) : Field := ⟨0x590000002c + 256 * e, 0, 20, .rwa, 0x11170, 1000, 1000000, true, false, false⟩
def OST_OWNER_IP (e : Nat) : Field := ⟨0x5900000030 + 256 * e, 0, 32, .rwa, 0, 0, 4294967295, true, false, false⟩
def OST_OWNER_EN (e : Nat) : Field := ⟨0x5900000034 + 256 * e, 0, 1, .rwa, 0, 0, 1, true, false, false⟩
def OST_TXON (e : Nat) : Field := ⟨0x5900000034 + 256 * e, 1, 1, .ro, 0, 0, 1, false, false, false⟩
def OST_ACL_LEN (e : Nat) : Field := ⟨0x5900000034 + 256 * e, 8, 6, .rwa, 0, 0, 32, true, false, false⟩
def OST_ACL_NET (e : Nat) : Field := ⟨0x5900000038 + 256 * e, 0, 32, .rwa, 0, 0, 4294967295, true, false, false⟩
def OST_FRAMESIZE (e : Nat) : Field := ⟨0x590000003c + 256 * e, 0, 16, .ro, 0, 0, 65535, false, false, false⟩
def OST_PACELATE (e : Nat) : Field := ⟨0x590000003c + 256 * e, 16, 16, .roc, 0, 0, 65535, false, true, false⟩
def OST_NAME (e : Nat) (b : Nat) : Field := ⟨0x5900000040 + 256 * e + 4 * b, 0, 32, .rwa, 0, 0, 4294967295, true, false, false⟩
def OST_SENT (e : Nat) : Field := ⟨0x59000000c4 + 256 * e, 0, 32, .roc, 0, 0, 4294967295, false, false, false⟩
def OST_SUPP (e : Nat) : Field := ⟨0x59000000c8 + 256 * e, 0, 32, .roc, 0, 0, 4294967295, false, false, false⟩
def OST_STALEDROP (e : Nat) : Field := ⟨0x59000000cc + 256 * e, 0, 16, .roc, 0, 0, 65535, false, true, false⟩
def OST_IDROP (e : Nat) : Field := ⟨0x59000000cc + 256 * e, 16, 16, .roc, 0, 0, 65535, false, true, false⟩
def OST_CMD_ON (e : Nat) : Field := ⟨0x59000000d0 + 256 * e, 0, 16, .roc, 0, 0, 65535, false, true, false⟩
def OST_CMD_OFF (e : Nat) : Field := ⟨0x59000000d0 + 256 * e, 16, 16, .roc, 0, 0, 65535, false, true, false⟩
def OST_CONFLICT (e : Nat) : Field := ⟨0x59000000d4 + 256 * e, 0, 16, .roc, 0, 0, 65535, false, true, false⟩
def OST_CMD_IGN (e : Nat) : Field := ⟨0x59000000d4 + 256 * e, 16, 16, .roc, 0, 0, 65535, false, true, false⟩
def OST_CFGREQ (e : Nat) : Field := ⟨0x59000000d8 + 256 * e, 0, 16, .roc, 0, 0, 65535, false, true, false⟩
def OST_CODEFALL (e : Nat) : Field := ⟨0x59000000d8 + 256 * e, 16, 16, .roc, 0, 0, 65535, false, true, false⟩
def OST_SEQ (e : Nat) : Field := ⟨0x59000000dc + 256 * e, 0, 32, .ro, 0, 0, 4294967295, false, false, false⟩

/-! ### QTY (block 12) -/

def QTY_CFG_EN : Field := ⟨0xb0000, 0, 1, .rwa, 0, 0, 1, true, false, false⟩
def QTY_SEAL_SEALED : Field := ⟨0xb0004, 0, 1, .w1, 0, 0, 1, false, false, false⟩
def QTY_PARAM_PARAMCNT : Field := ⟨0xb0008, 0, 16, .ro, 0, 0, 65535, false, false, false⟩
def QTY_PARAM_REGGEN : Field := ⟨0xb0008, 16, 16, .ro, 0, 0, 65535, false, false, false⟩
def QTY_SEAL_VIOL_COUNT : Field := ⟨0xb000c, 0, 32, .roc, 0, 0, 4294967295, false, true, false⟩
def QTY_SIGN_KEYSLOT : Field := ⟨0xb0010, 0, 6, .rwa, 0, 0, 63, true, false, true⟩
def QTY_SIGN_EN : Field := ⟨0xb0010, 8, 1, .rwa, 1, 0, 1, true, false, true⟩
def QTY_SNAP_GO : Field := ⟨0xb0014, 0, 1, .wo, 0, 0, 1, false, false, false⟩
def QTY_SNAP_STAT_DONE : Field := ⟨0xb0018, 0, 1, .ro, 0, 0, 1, false, false, false⟩
def QTY_SNAP_STAT_EPOCH : Field := ⟨0xb0018, 16, 16, .ro, 0, 0, 65535, false, false, false⟩
def QTY_SNAP_SEC_SEC : Field := ⟨0xb001c, 0, 32, .ro, 0, 0, 4294967295, false, false, false⟩
def QTY_SNAP_NS_NS : Field := ⟨0xb0020, 0, 30, .ro, 0, 0, 1073741823, false, false, false⟩
def QTY_MD_RST_POINT : Field := ⟨0xb0028, 0, 9, .wo, 0, 0, 511, false, false, false⟩
def QTY_REC_STAT_COUNT : Field := ⟨0xb0030, 0, 10, .ro, 0, 0, 1023, false, false, false⟩
def QTY_REC_POP_POP : Field := ⟨0xb0034, 0, 1, .wo, 0, 0, 1, false, false, false⟩
def QTY_REC_LOST_COUNT : Field := ⟨0xb0038, 0, 32, .roc, 0, 0, 4294967295, false, false, false⟩
def QTY_RET_STAT_A_OK : Field := ⟨0xb0040, 0, 1, .ro, 0, 0, 1, false, false, false⟩
def QTY_RET_STAT_B_OK : Field := ⟨0xb0040, 1, 1, .ro, 0, 0, 1, false, false, false⟩
def QTY_RET_STAT_AGE : Field := ⟨0xb0040, 16, 16, .ro, 0, 0, 65535, false, false, false⟩
def QTY_SEGCHG_COUNT : Field := ⟨0xb0044, 0, 32, .roc, 0, 0, 4294967295, false, false, false⟩
def QTY_WRAPS_COUNT : Field := ⟨0xb0048, 0, 32, .roc, 0, 0, 4294967295, false, false, false⟩
def QTY_FLOW_BAD_COUNT : Field := ⟨0xb004c, 0, 32, .roc, 0, 0, 4294967295, false, false, false⟩
def QTY_REC_W (i : Nat) : Field := ⟨0xb0100 + 0x4 * i, 0, 32, .ro, 0, 0, 4294967295, false, false, false⟩
def QTY_PLS_CFG_EN (j : Nat) : Field := ⟨0xb0400 + 0x10 * j, 0, 1, .rwa, 0, 0, 1, true, false, false⟩
def QTY_PLS_CFG_POINT (j : Nat) : Field := ⟨0xb0400 + 0x10 * j, 1, 9, .rwa, 0, 0, 511, true, false, true⟩
def QTY_PLS_CFG_REG (j : Nat) : Field := ⟨0xb0400 + 0x10 * j, 10, 3, .rwa, 0, 0, 7, true, false, true⟩
def QTY_PLS_CFG_POL (j : Nat) : Field := ⟨0xb0400 + 0x10 * j, 13, 1, .rwa, 0, 0, 1, true, false, false⟩
def QTY_PLS_CFG_OD (j : Nat) : Field := ⟨0xb0400 + 0x10 * j, 14, 1, .rwa, 0, 0, 1, true, false, false⟩
def QTY_PLS_CFG_WIDTH (j : Nat) : Field := ⟨0xb0400 + 0x10 * j, 16, 16, .rwa, 0xc8, 1, 1000, true, false, false⟩
def QTY_PLS_QUANT_QUANT (j : Nat) : Field := ⟨0xb0404 + 0x10 * j, 0, 32, .rwa, 0x3b9aca00, 1, 4294967295, true, false, true⟩
def QTY_PLS_STAT_BACKLOG (j : Nat) : Field := ⟨0xb0408 + 0x10 * j, 0, 16, .ro, 0, 0, 65535, false, false, false⟩
def QTY_PLS_SUPP_COUNT (j : Nat) : Field := ⟨0xb040c + 0x10 * j, 0, 32, .roc, 0, 0, 4294967295, false, false, false⟩
def QTY_SE_R_LO_VALUE (p : Nat) (r : Nat) : Field := ⟨0xb1000 + 0x80 * p + 0x8 * r, 0, 32, .ro, 0, 0, 4294967295, false, false, false⟩
def QTY_SE_R_HI_VALUE (p : Nat) (r : Nat) : Field := ⟨0xb1004 + 0x80 * p + 0x8 * r, 0, 32, .ro, 0, 0, 4294967295, false, false, false⟩
def QTY_SE_W_WRAP (p : Nat) (k : Nat) : Field := ⟨0xb1040 + 0x80 * p + 0x4 * k, 0, 16, .ro, 0, 0, 65535, false, false, false⟩
def QTY_SE_W_WRAP1 (p : Nat) (k : Nat) : Field := ⟨0xb1040 + 0x80 * p + 0x4 * k, 16, 16, .ro, 0, 0, 65535, false, false, false⟩
def QTY_ST_R_LO_VALUE (t : Nat) (r : Nat) : Field := ⟨0xb3000 + 0x40 * t + 0x8 * r, 0, 32, .ro, 0, 0, 4294967295, false, false, false⟩
def QTY_ST_R_HI_VALUE (t : Nat) (r : Nat) : Field := ⟨0xb3004 + 0x40 * t + 0x8 * r, 0, 32, .ro, 0, 0, 4294967295, false, false, false⟩
def QTY_ST_W_WRAP (t : Nat) (k : Nat) : Field := ⟨0xb3020 + 0x40 * t + 0x4 * k, 0, 16, .ro, 0, 0, 65535, false, false, false⟩
def QTY_ST_W_WRAP1 (t : Nat) (k : Nat) : Field := ⟨0xb3020 + 0x40 * t + 0x4 * k, 16, 16, .ro, 0, 0, 65535, false, false, false⟩
def QTY_COR_B_BOUND (c : Nat) (b : Nat) : Field := ⟨0xb7ffc + 0x80 * c + 0x4 * b, 0, 24, .rwa, 0xffffff, 0, 16777215, true, false, true⟩
def QTY_COR_G_GAIN (c : Nat) (s : Nat) : Field := ⟨0xb8020 + 0x80 * c + 0x4 * s, 0, 24, .rwa, 0, 0, 16777215, true, false, true⟩
def QTY_COR_P_PHASE (c : Nat) (s : Nat) : Field := ⟨0xb8040 + 0x80 * c + 0x4 * s, 0, 16, .rwa, 0, 0, 65535, true, false, true⟩
def MPT_EN (e : Nat) : Field := ⟨0x6100000000 + 256 * e, 0, 1, .rwa, 0, 0, 1, true, false, true⟩
def MPT_WIRING (e : Nat) : Field := ⟨0x6100000000 + 256 * e, 1, 2, .rwa, 0, 0, 3, true, false, true⟩
def MPT_DIRINV (e : Nat) : Field := ⟨0x6100000000 + 256 * e, 3, 1, .rwa, 0, 0, 1, true, false, true⟩
def MPT_HOME (e : Nat) : Field := ⟨0x6100000000 + 256 * e, 4, 5, .rwa, 0, 0, 31, true, false, false⟩
def MPT_HOME_EN (e : Nat) : Field := ⟨0x6100000000 + 256 * e, 9, 1, .rwa, 0, 0, 1, true, false, false⟩
def MPT_VCH0 (e : Nat) : Field := ⟨0x6100000004 + 256 * e, 0, 8, .rwa, 0, 0, 255, true, false, true⟩
def MPT_VCH1 (e : Nat) : Field := ⟨0x6100000004 + 256 * e, 8, 8, .rwa, 0, 0, 255, true, false, true⟩
def MPT_VCH2 (e : Nat) : Field := ⟨0x6100000004 + 256 * e, 16, 8, .rwa, 0, 0, 255, true, false, true⟩
def MPT_ICH0 (e : Nat) : Field := ⟨0x6100000008 + 256 * e, 0, 8, .rwa, 0, 0, 255, true, false, true⟩
def MPT_ICH1 (e : Nat) : Field := ⟨0x6100000008 + 256 * e, 8, 8, .rwa, 0, 0, 255, true, false, true⟩
def MPT_ICH2 (e : Nat) : Field := ⟨0x6100000008 + 256 * e, 16, 8, .rwa, 0, 0, 255, true, false, true⟩
def MPT_VPH (e : Nat) : Field := ⟨0x610000000c + 256 * e, 0, 15, .rwa, 0, 0, 32767, true, false, false⟩
def MPT_IPH (e : Nat) : Field := ⟨0x610000000c + 256 * e, 16, 15, .rwa, 0, 0, 32767, true, false, false⟩
def MPT_KPLO (e : Nat) : Field := ⟨0x6100000010 + 256 * e, 0, 32, .rwa, 0, 0, 4294967295, true, false, true⟩
def MPT_KPHI (e : Nat) : Field := ⟨0x6100000014 + 256 * e, 0, 32, .rwa, 0, 0, 4294967295, true, false, true⟩
def MPT_START (e : Nat) : Field := ⟨0x6100000018 + 256 * e, 0, 24, .rwa, 0, 0, 16777215, true, false, true⟩
def MPT_SEGHYST (e : Nat) : Field := ⟨0x610000001c + 256 * e, 0, 8, .rwa, 5, 0, 255, true, false, true⟩
def MPT_DEMLEN (e : Nat) : Field := ⟨0x610000001c + 256 * e, 8, 8, .rwa, 0xF, 0, 255, true, false, true⟩
def MPT_VSCALE (e : Nat) : Field := ⟨0x6100000020 + 256 * e, 0, 32, .rwa, 0x3F800000, 0, 4294967295, true, false, false⟩
def MPT_ISCALE (e : Nat) : Field := ⟨0x6100000024 + 256 * e, 0, 32, .rwa, 0x3F800000, 0, 4294967295, true, false, false⟩
def MPT_RUN (e : Nat) : Field := ⟨0x6100000028 + 256 * e, 0, 1, .ro, 0, 0, 1, false, false, false⟩
def MPT_FALLBACK (e : Nat) : Field := ⟨0x6100000028 + 256 * e, 1, 1, .ro, 0, 0, 1, false, false, false⟩
def MPT_NOLOAD (e : Nat) : Field := ⟨0x6100000028 + 256 * e, 2, 1, .ro, 0, 0, 1, false, false, false⟩
def MPT_DIR (e : Nat) : Field := ⟨0x6100000028 + 256 * e, 3, 1, .ro, 0, 0, 1, false, false, false⟩
def MPT_GAP (e : Nat) : Field := ⟨0x6100000028 + 256 * e, 4, 1, .ro, 0, 0, 1, false, false, false⟩
def MPT_SEG (e : Nat) : Field := ⟨0x610000002c + 256 * e, 0, 18, .ro, 0, 0, 262143, false, false, false⟩
def MPT_VRMS (e : Nat) (b : Nat) : Field := ⟨0x6100000030 + 256 * e + 4 * b, 0, 32, .ro, 0, 0, 4294967295, false, false, false⟩
def MPT_IRMS (e : Nat) (b : Nat) : Field := ⟨0x610000003c + 256 * e + 4 * b, 0, 32, .ro, 0, 0, 4294967295, false, false, false⟩
def MPT_P (e : Nat) : Field := ⟨0x6100000048 + 256 * e, 0, 32, .ro, 0, 0, 4294967295, false, false, false⟩
def MPT_Q (e : Nat) : Field := ⟨0x610000004c + 256 * e, 0, 32, .ro, 0, 0, 4294967295, false, false, false⟩
def MPT_S (e : Nat) : Field := ⟨0x6100000050 + 256 * e, 0, 32, .ro, 0, 0, 4294967295, false, false, false⟩
def MPT_PF (e : Nat) : Field := ⟨0x6100000054 + 256 * e, 0, 32, .ro, 0, 0, 4294967295, false, false, false⟩
def MPT_FREQ (e : Nat) : Field := ⟨0x6100000058 + 256 * e, 0, 32, .ro, 0, 0, 4294967295, false, false, false⟩
def MPT_ANG (e : Nat) (b : Nat) : Field := ⟨0x610000005c + 256 * e + 4 * b, 0, 32, .ro, 0, 0, 4294967295, false, false, false⟩
def MPT_PSEAL (e : Nat) : Field := ⟨0x6100000068 + 256 * e, 0, 32, .ro, 0, 0, 4294967295, false, false, false⟩
def MPT_MDLO (e : Nat) : Field := ⟨0x610000006c + 256 * e, 0, 32, .ro, 0, 0, 4294967295, false, false, false⟩
def MPT_MDHI (e : Nat) : Field := ⟨0x6100000070 + 256 * e, 0, 32, .ro, 0, 0, 4294967295, false, false, false⟩
def MPT_MDTIME (e : Nat) : Field := ⟨0x6100000074 + 256 * e, 0, 32, .ro, 0, 0, 4294967295, false, false, false⟩
def MPT_REVCNT (e : Nat) : Field := ⟨0x6100000078 + 256 * e, 0, 16, .roc, 0, 0, 65535, false, true, false⟩
def TPT_EN (e : Nat) : Field := ⟨0x6200000000 + 256 * e, 0, 1, .rwa, 0, 0, 1, true, false, true⟩
def TPT_KIND (e : Nat) : Field := ⟨0x6200000000 + 256 * e, 1, 2, .rwa, 0, 0, 3, true, false, true⟩
def TPT_DIRINV (e : Nat) : Field := ⟨0x6200000000 + 256 * e, 3, 1, .rwa, 0, 0, 1, true, false, true⟩
def TPT_PORT (e : Nat) : Field := ⟨0x6200000000 + 256 * e, 4, 1, .rwa, 0, 0, 1, true, false, true⟩
def TPT_FLOWID (e : Nat) : Field := ⟨0x6200000004 + 256 * e, 0, 32, .rwa, 0, 0, 4294967295, true, false, true⟩
def TPT_SRCIP (e : Nat) : Field := ⟨0x6200000008 + 256 * e, 0, 32, .rwa, 0, 0, 4294967295, true, false, true⟩
def TPT_DEMLEN (e : Nat) : Field := ⟨0x620000000c + 256 * e, 0, 8, .rwa, 0xF, 0, 255, true, false, true⟩
def TPT_TMO (e : Nat) : Field := ⟨0x620000000c + 256 * e, 8, 8, .rwa, 0xA, 1, 255, true, false, false⟩
def TPT_LASTSEQ (e : Nat) : Field := ⟨0x6200000010 + 256 * e, 0, 32, .ro, 0, 0, 4294967295, false, false, false⟩
def TPT_RUN (e : Nat) : Field := ⟨0x6200000014 + 256 * e, 0, 1, .ro, 0, 0, 1, false, false, false⟩
def TPT_FALLBACK (e : Nat) : Field := ⟨0x6200000014 + 256 * e, 1, 1, .ro, 0, 0, 1, false, false, false⟩
def TPT_DIR (e : Nat) : Field := ⟨0x6200000014 + 256 * e, 2, 1, .ro, 0, 0, 1, false, false, false⟩
def TPT_STALE (e : Nat) : Field := ⟨0x6200000014 + 256 * e, 3, 1, .ro, 0, 0, 1, false, false, false⟩
def TPT_FLOW (e : Nat) : Field := ⟨0x6200000018 + 256 * e, 0, 32, .ro, 0, 0, 4294967295, false, false, false⟩
def TPT_POWER (e : Nat) : Field := ⟨0x620000001c + 256 * e, 0, 32, .ro, 0, 0, 4294967295, false, false, false⟩
def TPT_MISSREC (e : Nat) : Field := ⟨0x6200000020 + 256 * e, 0, 16, .roc, 0, 0, 65535, false, true, false⟩
def TPT_DUPREC (e : Nat) : Field := ⟨0x6200000020 + 256 * e, 16, 16, .roc, 0, 0, 65535, false, true, false⟩
def TPT_EST (e : Nat) : Field := ⟨0x6200000024 + 256 * e, 0, 16, .roc, 0, 0, 65535, false, true, false⟩
def TPT_REVCNT (e : Nat) : Field := ⟨0x6200000028 + 256 * e, 0, 16, .roc, 0, 0, 65535, false, true, false⟩
def TPT_PSEAL (e : Nat) : Field := ⟨0x620000002c + 256 * e, 0, 32, .ro, 0, 0, 4294967295, false, false, false⟩
def TPT_MDLO (e : Nat) : Field := ⟨0x6200000030 + 256 * e, 0, 32, .ro, 0, 0, 4294967295, false, false, false⟩
def TPT_MDHI (e : Nat) : Field := ⟨0x6200000034 + 256 * e, 0, 32, .ro, 0, 0, 4294967295, false, false, false⟩
def TPT_MDTIME (e : Nat) : Field := ⟨0x6200000038 + 256 * e, 0, 32, .ro, 0, 0, 4294967295, false, false, false⟩

/-! ### CAP (block 13) -/

def CAP_CFG_MODE : Field := ⟨0xc0000, 0, 2, .rwa, 0, 0, 3, true, false, false⟩
def CAP_CFG_OVERRUN : Field := ⟨0xc0000, 2, 1, .rwa, 0, 0, 1, true, false, false⟩
def CAP_CFG_LEVEL : Field := ⟨0xc0000, 3, 3, .rwa, 0, 0, 7, true, false, false⟩
def CAP_CFG_CODE_EN : Field := ⟨0xc0000, 6, 1, .rwa, 1, 0, 1, true, false, false⟩
def CAP_CFG_STI_EN : Field := ⟨0xc0000, 7, 1, .rwa, 1, 0, 1, true, false, false⟩
def CAP_CFG_BLK_INST : Field := ⟨0xc0000, 8, 8, .rwa, 0x40, 1, 255, true, false, false⟩
def CAP_CHMASK_MASK (i : Nat) : Field := ⟨0xc0004 + 0x4 * i, 0, 32, .rwa, 0xffffffff, 0, 4294967295, true, false, false⟩
def CAP_PRE_PRE : Field := ⟨0xc001c, 0, 24, .rwa, 0x2ee0, 0, 16777215, true, false, false⟩
def CAP_POST_POST : Field := ⟨0xc0020, 0, 32, .rwa, 0x5dc0, 0, 4294967295, true, false, false⟩
def CAP_CAPACITY_INST : Field := ⟨0xc0024, 0, 32, .ro, 0, 0, 4294967295, false, false, false⟩
def CAP_STAT_RUN : Field := ⟨0xc0028, 0, 1, .ro, 0, 0, 1, false, false, false⟩
def CAP_STAT_CLAMPED : Field := ⟨0xc0028, 1, 1, .ro, 0, 0, 1, false, false, false⟩
def CAP_STAT_BLOCKED : Field := ⟨0xc0028, 2, 1, .ro, 0, 0, 1, false, false, false⟩
def CAP_STAT_FILLING : Field := ⟨0xc0028, 3, 1, .ro, 0, 0, 1, false, false, false⟩
def CAP_STAT_CAPTS : Field := ⟨0xc0028, 4, 7, .ro, 0, 0, 127, false, false, false⟩
def CAP_REL_CAPT : Field := ⟨0xc002c, 0, 7, .wo, 0, 0, 127, false, false, false⟩
def CAP_TRIG_CFG_EN (t : Nat) : Field := ⟨0xc0040 + 0x4 * t, 0, 1, .rwa, 0, 0, 1, true, false, false⟩
def CAP_TRIG_CFG_SRC (t : Nat) : Field := ⟨0xc0040 + 0x4 * t, 1, 6, .rwa, 0, 0, 63, true, false, false⟩
def CAP_TRIG_CFG_INDEX (t : Nat) : Field := ⟨0xc0040 + 0x4 * t, 8, 12, .rwa, 0, 0, 4095, true, false, false⟩
def CAP_TRIG_CFG_SUB (t : Nat) : Field := ⟨0xc0040 + 0x4 * t, 20, 4, .rwa, 0, 0, 15, true, false, false⟩
def CAP_TRIG_CFG_EDGE (t : Nat) : Field := ⟨0xc0040 + 0x4 * t, 24, 1, .rwa, 0, 0, 1, true, false, false⟩
def CAP_TRIG_MAN_FIRE : Field := ⟨0xc0080, 0, 16, .wo, 0, 0, 65535, false, false, false⟩
def CAP_NET_PORT : Field := ⟨0xc0084, 0, 2, .rwa, 0, 0, 3, true, false, false⟩
def CAP_NET_IP_IP : Field := ⟨0xc0088, 0, 32, .rwa, 0, 0, 4294967295, true, false, false⟩
def CAP_NET_UDP_DST : Field := ⟨0xc008c, 0, 16, .rwa, 0x1274, 0, 65535, true, false, false⟩
def CAP_NET_UDP_SRC : Field := ⟨0xc008c, 16, 16, .rwa, 0x1274, 0, 65535, true, false, false⟩
def CAP_RDPTR_LO_OFS : Field := ⟨0xc0090, 0, 32, .rw, 0, 0, 4294967295, false, false, false⟩
def CAP_RDPTR_HI_OFS : Field := ⟨0xc0094, 0, 32, .rw, 0, 0, 4294967295, false, false, false⟩
def CAP_WRPTR_LO_OFS : Field := ⟨0xc0098, 0, 32, .ro, 0, 0, 4294967295, false, false, false⟩
def CAP_WRPTR_HI_OFS : Field := ⟨0xc009c, 0, 32, .ro, 0, 0, 4294967295, false, false, false⟩
def CAP_BSEQ_SEQ : Field := ⟨0xc00a0, 0, 32, .ro, 0, 0, 4294967295, false, false, false⟩
def CAP_TRIGS_COUNT : Field := ⟨0xc00b0, 0, 32, .roc, 0, 0, 4294967295, false, false, false⟩
def CAP_MISSED_COUNT : Field := ⟨0xc00b4, 0, 32, .roc, 0, 0, 4294967295, false, false, false⟩
def CAP_DEADTIME_US : Field := ⟨0xc00b8, 0, 32, .roc, 0, 0, 4294967295, false, true, false⟩
def CAP_LOSTREC_COUNT : Field := ⟨0xc00bc, 0, 32, .roc, 0, 0, 4294967295, false, false, false⟩
def CAP_NETDROP_COUNT : Field := ⟨0xc00c0, 0, 32, .roc, 0, 0, 4294967295, false, false, false⟩
def CAP_PART_CAP_MIB : Field := ⟨0xc0100, 0, 13, .rw, 0x600, 0, 8191, true, false, false⟩
def CAP_PART_ARC_MIB : Field := ⟨0xc0104, 0, 13, .rw, 0x1600, 0, 8191, true, false, false⟩
def CAP_PART_WA_MIB (w : Nat) : Field := ⟨0xc0108 + 0x4 * w, 0, 13, .rw, 0x40, 0, 8191, true, false, false⟩
def CAP_CAPT_W0_STATE (i : Nat) : Field := ⟨0xc1000 + 0x10 * i, 0, 2, .ro, 0, 0, 3, false, false, false⟩
def CAP_CAPT_W0_SHORTPRE (i : Nat) : Field := ⟨0xc1000 + 0x10 * i, 2, 1, .ro, 0, 0, 1, false, false, false⟩
def CAP_CAPT_W0_TRUNC (i : Nat) : Field := ⟨0xc1000 + 0x10 * i, 3, 1, .ro, 0, 0, 1, false, false, false⟩
def CAP_CAPT_W0_TRIG (i : Nat) : Field := ⟨0xc1000 + 0x10 * i, 4, 4, .ro, 0, 0, 15, false, false, false⟩
def CAP_CAPT_W1_START (i : Nat) : Field := ⟨0xc1004 + 0x10 * i, 0, 32, .ro, 0, 0, 4294967295, false, false, false⟩
def CAP_CAPT_W2_MARK (i : Nat) : Field := ⟨0xc1008 + 0x10 * i, 0, 32, .ro, 0, 0, 4294967295, false, false, false⟩
def CAP_CAPT_W3_END (i : Nat) : Field := ⟨0xc100c + 0x10 * i, 0, 32, .ro, 0, 0, 4294967295, false, false, false⟩
def ARC_CFG_EN : Field := ⟨0xc0200, 0, 1, .rwa, 1, 0, 1, true, false, false⟩
def ARC_CFG_LEVEL : Field := ⟨0xc0200, 1, 3, .rwa, 0, 0, 7, true, false, false⟩
def ARC_CFG_CODE_EN : Field := ⟨0xc0200, 4, 1, .rwa, 1, 0, 1, true, false, false⟩
def ARC_CFG_LATE_EN : Field := ⟨0xc0200, 5, 1, .rwa, 1, 0, 1, true, false, false⟩
def ARC_CFG_QTY_EN : Field := ⟨0xc0200, 6, 1, .rwa, 1, 0, 1, true, false, false⟩
def ARC_NEWEST_OFS : Field := ⟨0xc0204, 0, 32, .ro, 0xffffffff, 0, 4294967295, false, false, false⟩
def ARC_OLDEST_OFS : Field := ⟨0xc0208, 0, 32, .ro, 0xffffffff, 0, 4294967295, false, false, false⟩
def ARC_NEWSEQ_ASEQ : Field := ⟨0xc020c, 0, 32, .ro, 0, 0, 4294967295, false, false, false⟩
def ARC_FIND_SERIAL : Field := ⟨0xc0210, 0, 32, .wo, 0, 0, 4294967295, false, false, false⟩
def ARC_FIND_STAT_BUSY : Field := ⟨0xc0214, 0, 1, .ro, 0, 0, 1, false, false, false⟩
def ARC_FIND_STAT_FOUND : Field := ⟨0xc0214, 1, 1, .ro, 0, 0, 1, false, false, false⟩
def ARC_FIND_OFS_OFS : Field := ⟨0xc0218, 0, 32, .ro, 0, 0, 4294967295, false, false, false⟩
def ARC_WRITTEN_COUNT : Field := ⟨0xc0220, 0, 32, .roc, 0, 0, 4294967295, false, false, false⟩
def ARC_SKIPPED_COUNT : Field := ⟨0xc0224, 0, 32, .roc, 0, 0, 4294967295, false, false, false⟩
def ARC_BYTES_LO_COUNT : Field := ⟨0xc0228, 0, 32, .roc, 0, 0, 4294967295, false, false, false⟩
def ARC_BYTES_HI_COUNT : Field := ⟨0xc022c, 0, 32, .roc, 0, 0, 4294967295, false, false, false⟩

/-! ### ELS (block 14) -/

def ELS_STAT_QUEUE : Field := ⟨0xc8000, 0, 7, .ro, 0, 0, 127, false, false, false⟩
def ELS_STAT_BUSY : Field := ⟨0xc8000, 7, 1, .ro, 0, 0, 1, false, false, false⟩
def ELS_JOBS_COUNT : Field := ⟨0xc8010, 0, 32, .roc, 0, 0, 4294967295, false, false, false⟩
def ELS_FAIL_COUNT : Field := ⟨0xc8014, 0, 32, .roc, 0, 0, 4294967295, false, false, false⟩
def ELS_BYPASS_COUNT : Field := ⟨0xc8018, 0, 32, .roc, 0, 0, 4294967295, false, false, false⟩
def ELS_IN_LO_COUNT : Field := ⟨0xc8020, 0, 32, .roc, 0, 0, 4294967295, false, false, false⟩
def ELS_IN_HI_COUNT : Field := ⟨0xc8024, 0, 32, .roc, 0, 0, 4294967295, false, false, false⟩
def ELS_OUT_LO_COUNT : Field := ⟨0xc8028, 0, 32, .roc, 0, 0, 4294967295, false, false, false⟩
def ELS_OUT_HI_COUNT : Field := ⟨0xc802c, 0, 32, .roc, 0, 0, 4294967295, false, false, false⟩
def ELS_J_OP_OP (m : Nat) : Field := ⟨0xc8100 + 0x100 * m, 0, 2, .rw, 0, 0, 3, false, false, false⟩
def ELS_J_OP_LEVEL (m : Nat) : Field := ⟨0xc8100 + 0x100 * m, 2, 3, .rw, 0, 0, 7, false, false, false⟩
def ELS_J_OP_SRC_PART (m : Nat) : Field := ⟨0xc8100 + 0x100 * m, 8, 4, .rw, 0, 0, 15, false, false, false⟩
def ELS_J_OP_DST_PART (m : Nat) : Field := ⟨0xc8100 + 0x100 * m, 12, 4, .rw, 0, 0, 15, false, false, false⟩
def ELS_J_LEN_LEN (m : Nat) : Field := ⟨0xc8104 + 0x100 * m, 0, 32, .rw, 0, 0, 4294967295, false, false, false⟩
def ELS_J_SRC_LO_OFS (m : Nat) : Field := ⟨0xc8108 + 0x100 * m, 0, 32, .rw, 0, 0, 4294967295, false, false, false⟩
def ELS_J_SRC_HI_OFS (m : Nat) : Field := ⟨0xc810c + 0x100 * m, 0, 32, .rw, 0, 0, 4294967295, false, false, false⟩
def ELS_J_DST_LO_OFS (m : Nat) : Field := ⟨0xc8110 + 0x100 * m, 0, 32, .rw, 0, 0, 4294967295, false, false, false⟩
def ELS_J_DST_HI_OFS (m : Nat) : Field := ⟨0xc8114 + 0x100 * m, 0, 32, .rw, 0, 0, 4294967295, false, false, false⟩
def ELS_J_DSTCAP_CAP (m : Nat) : Field := ⟨0xc8118 + 0x100 * m, 0, 32, .rw, 0, 0, 4294967295, false, false, false⟩
def ELS_J_CMD_CMD (m : Nat) : Field := ⟨0xc811c + 0x100 * m, 0, 2, .wo, 0, 0, 3, false, false, false⟩
def ELS_J_STAT_BUSY (m : Nat) : Field := ⟨0xc8120 + 0x100 * m, 0, 1, .ro, 0, 0, 1, false, false, false⟩
def ELS_J_STAT_DONE (m : Nat) : Field := ⟨0xc8120 + 0x100 * m, 1, 1, .ro, 0, 0, 1, false, false, false⟩
def ELS_J_STAT_PAUSED (m : Nat) : Field := ⟨0xc8120 + 0x100 * m, 2, 1, .ro, 0, 0, 1, false, false, false⟩
def ELS_J_STAT_ERR (m : Nat) : Field := ⟨0xc8120 + 0x100 * m, 4, 4, .ro, 0, 0, 15, false, false, false⟩
def ELS_J_INDONE (m : Nat) : Field := ⟨0xc8124 + 0x100 * m, 0, 32, .ro, 0, 0, 4294967295, false, false, false⟩
def ELS_J_OUTLEN (m : Nat) : Field := ⟨0xc8128 + 0x100 * m, 0, 32, .ro, 0, 0, 4294967295, false, false, false⟩
def ELS_J_CRC (m : Nat) : Field := ⟨0xc812c + 0x100 * m, 0, 32, .ro, 0, 0, 4294967295, false, false, false⟩

/-! ### LOG (block 15) -/

def LOG_CFG_RATE_MAX : Field := ⟨0xd0000, 0, 8, .rwa, 0x10, 0, 255, true, false, false⟩
def LOG_CFG_MIR_EN : Field := ⟨0xd0000, 8, 1, .rwa, 1, 0, 1, true, false, false⟩
def LOG_STAT_MEMFAIL : Field := ⟨0xd0004, 0, 1, .ro, 0, 0, 1, false, false, false⟩
def LOG_STAT_MIR_BUSY : Field := ⟨0xd0004, 1, 1, .ro, 0, 0, 1, false, false, false⟩
def LOG_STAT_QFULL : Field := ⟨0xd0004, 2, 1, .ro, 0, 0, 1, false, false, false⟩
def LOG_OLDEST_SEQ : Field := ⟨0xd0008, 0, 32, .ro, 0, 0, 4294967295, false, false, false⟩
def LOG_NEWEST_SEQ : Field := ⟨0xd000c, 0, 32, .ro, 0, 0, 4294967295, false, false, false⟩
def LOG_COUNT_COUNT : Field := ⟨0xd0010, 0, 17, .ro, 0, 0, 131071, false, false, false⟩
def LOG_RD_SEQ_SEQ : Field := ⟨0xd0020, 0, 32, .rw, 0, 0, 4294967295, false, false, false⟩
def LOG_RD_STAT_RESULT : Field := ⟨0xd0024, 0, 2, .ro, 1, 0, 3, false, false, false⟩
def LOG_RD_NEXT_GO : Field := ⟨0xd0028, 0, 1, .wo, 0, 0, 1, false, false, false⟩
def LOG_RD_W (i : Nat) : Field := ⟨0xd0040 + 0x4 * i, 0, 32, .ro, 0, 0, 4294967295, false, false, false⟩
def LOG_CRITX_CODE (i : Nat) : Field := ⟨0xd0060 + 0x4 * i, 0, 16, .rwa, 0, 0, 65535, true, false, false⟩
def LOG_CRITX_EN (i : Nat) : Field := ⟨0xd0060 + 0x4 * i, 16, 1, .rwa, 0, 0, 1, true, false, false⟩
def LOG_CLR_CHAL_LO_CHAL : Field := ⟨0xd0100, 0, 32, .ro, 0, 0, 4294967295, false, false, false⟩
def LOG_CLR_CHAL_HI_CHAL : Field := ⟨0xd0104, 0, 32, .ro, 0, 0, 4294967295, false, false, false⟩
def LOG_CLR_KEY_KEYSLOT : Field := ⟨0xd0108, 0, 6, .rw, 0, 0, 63, false, false, false⟩
def LOG_CLR_KEY_SCOPE : Field := ⟨0xd0108, 8, 4, .rw, 0, 0, 15, false, false, false⟩
def LOG_CLR_RESP_RESP (i : Nat) : Field := ⟨0xd0110 + 0x4 * i, 0, 32, .wo, 0, 0, 4294967295, false, false, false⟩
def LOG_CLR_CMD_GO : Field := ⟨0xd0120, 0, 1, .wo, 0, 0, 1, false, false, false⟩
def LOG_CLR_STAT_BUSY : Field := ⟨0xd0124, 0, 1, .ro, 0, 0, 1, false, false, false⟩
def LOG_CLR_STAT_OK : Field := ⟨0xd0124, 1, 1, .ro, 0, 0, 1, false, false, false⟩
def LOG_CLR_STAT_FAIL : Field := ⟨0xd0124, 2, 1, .ro, 0, 0, 1, false, false, false⟩
def LOG_WRITTEN_COUNT : Field := ⟨0xd0200, 0, 32, .roc, 0, 0, 4294967295, false, false, false⟩
def LOG_SUPPR_COUNT : Field := ⟨0xd0204, 0, 32, .roc, 0, 0, 4294967295, false, false, false⟩
def LOG_LOST_COUNT : Field := ⟨0xd0208, 0, 32, .roc, 0, 0, 4294967295, false, false, false⟩
def LOG_MIR_LOST_COUNT : Field := ⟨0xd020c, 0, 32, .roc, 0, 0, 4294967295, false, false, false⟩
def LOG_CLR_FAIL_COUNT : Field := ⟨0xd0210, 0, 32, .roc, 0, 0, 4294967295, false, false, false⟩
def LOG_RL_OVF_COUNT : Field := ⟨0xd0214, 0, 32, .roc, 0, 0, 4294967295, false, false, false⟩
def LOG_OBJ_SEL_OBJ : Field := ⟨0xd0300, 0, 9, .rw, 0, 0, 511, false, false, false⟩
def LOG_OBJ_CFG_KIND : Field := ⟨0xd0304, 0, 2, .rw, 0, 0, 3, true, false, false⟩
def LOG_OBJ_CFG_QTY : Field := ⟨0xd0304, 2, 4, .rw, 0, 0, 15, true, false, false⟩
def LOG_OBJ_CFG_IDX : Field := ⟨0xd0304, 6, 12, .rw, 0, 0, 4095, true, false, false⟩
def LOG_OBJ_CFG_STALE : Field := ⟨0xd0304, 31, 1, .ro, 0, 0, 1, false, false, false⟩
def LOG_OBJ_LO_LO : Field := ⟨0xd0308, 0, 32, .rw, 0, 0, 4294967295, true, false, false⟩
def LOG_OBJ_WIDTH_WIDTH : Field := ⟨0xd030c, 0, 16, .rw, 1, 1, 65535, true, false, false⟩
def LOG_OBJ_R (i : Nat) : Field := ⟨0xd0400 + 0x4 * i, 0, 32, .ro, 0, 0, 4294967295, false, false, false⟩
def LOG_LG_SEL_ENTRY : Field := ⟨0xd0500, 0, 4, .rw, 0, 0, 15, false, false, false⟩
def LOG_LG_HEAD_HEAD : Field := ⟨0xd0504, 0, 4, .ro, 0, 0, 15, false, false, false⟩
def LOG_LG_STAT_VOTEFAIL : Field := ⟨0xd0508, 0, 1, .ro, 0, 0, 1, false, false, false⟩
def LOG_LG_W (i : Nat) : Field := ⟨0xd0520 + 0x4 * i, 0, 32, .ro, 0, 0, 4294967295, false, false, false⟩

/-! ### RED (block 16) -/

def RED_CFG_PAIR_EN : Field := ⟨0xe0000, 0, 1, .rwv, 0, 0, 1, true, false, false⟩
def RED_CFG_ROLE : Field := ⟨0xe0000, 4, 4, .rwv, 8, 0, 15, true, false, false⟩
def RED_HOLD_HOLDOFF : Field := ⟨0xe0004, 0, 16, .rwa, 0xa, 0, 65535, true, false, false⟩
def RED_HOLD_ACK_TMO : Field := ⟨0xe0004, 16, 16, .rwa, 0xa, 1, 65535, true, false, false⟩
def RED_HW0_CLK : Field := ⟨0xe0008, 0, 8, .rwa, 0x80, 0, 255, true, false, false⟩
def RED_HW0_THOLD : Field := ⟨0xe0008, 8, 8, .rwa, 0x10, 0, 255, true, false, false⟩
def RED_HW0_TOTHER : Field := ⟨0xe0008, 16, 8, .rwa, 0x40, 0, 255, true, false, false⟩
def RED_HW0_LANE : Field := ⟨0xe0008, 24, 8, .rwa, 0x8, 0, 255, true, false, false⟩
def RED_HW1_UE : Field := ⟨0xe000c, 0, 8, .rwa, 0x20, 0, 255, true, false, false⟩
def RED_HW1_TRUNK : Field := ⟨0xe000c, 8, 8, .rwa, 0x10, 0, 255, true, false, false⟩
def RED_HW1_INQ : Field := ⟨0xe000c, 16, 8, .rwa, 0x20, 0, 255, true, false, false⟩
def RED_HW1_LOG : Field := ⟨0xe000c, 24, 8, .rwa, 0x4, 0, 255, true, false, false⟩
def RED_HW2_SBY : Field := ⟨0xe0010, 0, 8, .rwa, 0x40, 0, 255, true, false, false⟩
def RED_HW2_ACT : Field := ⟨0xe0010, 8, 8, .rwa, 0x40, 0, 255, true, false, false⟩
def RED_CLAIM_INFORCE : Field := ⟨0xe0014, 0, 16, .ro, 0, 0, 65535, false, false, false⟩
def RED_CLAIM_ANNOUNCED : Field := ⟨0xe0014, 16, 16, .ro, 0, 0, 65535, false, false, false⟩
def RED_PARTNER_CLAIM : Field := ⟨0xe0018, 0, 16, .ro, 0, 0, 65535, false, false, false⟩
def RED_HEALTH_SCORE : Field := ⟨0xe001c, 0, 8, .ro, 0, 0, 255, false, false, false⟩
def RED_HEALTH_HELD : Field := ⟨0xe001c, 8, 8, .ro, 0, 0, 255, false, false, false⟩
def RED_HEALTH_COND : Field := ⟨0xe001c, 16, 12, .ro, 1, 0, 4095, false, false, false⟩
def RED_STAT_DRIVING : Field := ⟨0xe0020, 0, 1, .ro, 0, 0, 1, false, false, false⟩
def RED_STAT_LINK : Field := ⟨0xe0020, 1, 1, .ro, 0, 0, 1, false, false, false⟩
def RED_STAT_ONE_LANE : Field := ⟨0xe0020, 2, 1, .ro, 0, 0, 1, false, false, false⟩
def RED_STAT_ACKWAIT : Field := ⟨0xe0020, 3, 1, .ro, 0, 0, 1, false, false, false⟩
def RED_STAT_HOLDOFF : Field := ⟨0xe0020, 4, 1, .ro, 0, 0, 1, false, false, false⟩
def RED_STAT_SETDIFF : Field := ⟨0xe0020, 5, 1, .ro, 0, 0, 1, false, false, false⟩
def RED_SETCRC_CRC : Field := ⟨0xe0024, 0, 32, .ro, 0, 0, 4294967295, false, false, false⟩
def RED_PSN_LO_SERIAL : Field := ⟨0xe0028, 0, 32, .ro, 0, 0, 4294967295, false, false, false⟩
def RED_PSN_HI_SERIAL : Field := ⟨0xe002c, 0, 32, .ro, 0, 0, 4294967295, false, false, false⟩
def RED_AUDIT_PHASE : Field := ⟨0xe0030, 0, 6, .rwa, 0, 0, 63, true, false, false⟩
def RED_AUDIT_EN : Field := ⟨0xe0030, 6, 1, .rwa, 1, 0, 1, true, false, false⟩
def RED_LANE_CMD_LANE : Field := ⟨0xe0034, 0, 4, .wo, 0, 0, 15, false, false, false⟩
def RED_LANE_CMD_UNFENCE : Field := ⟨0xe0034, 8, 1, .wo, 0, 0, 1, false, false, false⟩
def RED_AUD_W (i : Nat) : Field := ⟨0xe0040 + 0x4 * i, 0, 32, .ro, 0, 0, 4294967295, false, false, false⟩
def RED_UE_MEM_MEM : Field := ⟨0xe0060, 0, 4, .ro, 0, 0, 15, false, false, false⟩
def RED_VOTE_ADDR_ADDR : Field := ⟨0xe0064, 0, 32, .ro, 0, 0, 4294967295, false, false, false⟩
def RED_UE_ADDR_LO_ADDR : Field := ⟨0xe0068, 0, 32, .ro, 0, 0, 4294967295, false, false, false⟩
def RED_UE_ADDR_HI_ADDR : Field := ⟨0xe006c, 0, 32, .ro, 0, 0, 4294967295, false, false, false⟩
def RED_VOTE_CNT_COUNT : Field := ⟨0xe0080, 0, 32, .roc, 0, 0, 4294967295, false, false, false⟩
def RED_RES_CNT_COUNT : Field := ⟨0xe0084, 0, 32, .roc, 0, 0, 4294967295, false, false, false⟩
def RED_FENCES_COUNT : Field := ⟨0xe0088, 0, 32, .roc, 0, 0, 4294967295, false, false, false⟩
def RED_HO_CNT_COUNT : Field := ⟨0xe008c, 0, 32, .roc, 0, 0, 4294967295, false, false, false⟩
def RED_ZL_CRCERR_COUNT : Field := ⟨0xe0090, 0, 32, .roc, 0, 0, 4294967295, false, false, false⟩
def RED_AUD_OK_COUNT : Field := ⟨0xe0094, 0, 32, .roc, 0, 0, 4294967295, false, false, false⟩
def RED_AUD_MIS_COUNT : Field := ⟨0xe0098, 0, 32, .roc, 0, 0, 4294967295, false, false, false⟩
def RED_AUD_SKIP_COUNT : Field := ⟨0xe009c, 0, 32, .roc, 0, 0, 4294967295, false, false, false⟩
def RED_MEM_CE_COUNT (m : Nat) : Field := ⟨0xe0100 + 0x8 * m, 0, 32, .roc, 0, 0, 4294967295, false, true, false⟩
def RED_MEM_UE_COUNT (m : Nat) : Field := ⟨0xe0104 + 0x8 * m, 0, 32, .roc, 0, 0, 4294967295, false, true, false⟩

/-! ### KEY (block 17) -/

def KEY_STAT_LC : Field := ⟨0xf0000, 0, 2, .ro, 0, 0, 3, false, false, false⟩
def KEY_STAT_READY : Field := ⟨0xf0000, 2, 1, .ro, 0, 0, 1, false, false, false⟩
def KEY_STAT_DEVKEY : Field := ⟨0xf0000, 3, 1, .ro, 0, 0, 1, false, false, false⟩
def KEY_STAT_OTP_PROG : Field := ⟨0xf0000, 4, 4, .ro, 0, 0, 15, false, false, false⟩
def KEY_STAT_OTP_REV : Field := ⟨0xf0000, 8, 4, .ro, 0, 0, 15, false, false, false⟩
def KEY_LC_CMD_CODE : Field := ⟨0xf0004, 0, 32, .wo, 0, 0, 4294967295, false, false, false⟩
def KEY_LC_CHAL_LO_CHAL : Field := ⟨0xf0008, 0, 32, .ro, 0, 0, 4294967295, false, false, false⟩
def KEY_LC_CHAL_HI_CHAL : Field := ⟨0xf000c, 0, 32, .ro, 0, 0, 4294967295, false, false, false⟩
def KEY_LC_AUTH_KEYSLOT : Field := ⟨0xf0010, 0, 6, .rw, 0, 0, 63, false, false, false⟩
def KEY_LC_RESP_RESP (i : Nat) : Field := ⟨0xf0014 + 0x4 * i, 0, 32, .wo, 0, 0, 4294967295, false, false, false⟩
def KEY_OTP_REVOKE_SLOTS : Field := ⟨0xf0024, 0, 4, .wo, 0, 0, 15, false, false, false⟩
def KEY_LD_SLOT_SLOT : Field := ⟨0xf0040, 0, 6, .rw, 0, 0, 63, false, false, false⟩
def KEY_LD_ATTR_TYPE : Field := ⟨0xf0044, 8, 4, .rw, 0, 0, 15, false, false, false⟩
def KEY_LD_ATTR_WORLD : Field := ⟨0xf0044, 12, 3, .rw, 0, 0, 7, false, false, false⟩
def KEY_LD_ATTR_MASTERS : Field := ⟨0xf0044, 16, 2, .rw, 0, 0, 3, false, false, false⟩
def KEY_LD_ATTR_LCMASK : Field := ⟨0xf0044, 20, 3, .rw, 0, 0, 7, false, false, false⟩
def KEY_LD_KCV_KCV : Field := ⟨0xf0048, 0, 24, .rw, 0, 0, 16777215, false, false, false⟩
def KEY_LD_KEYID_KEYID : Field := ⟨0xf004c, 0, 32, .rw, 0, 0, 4294967295, false, false, false⟩
def KEY_LD_OVL_SEC : Field := ⟨0xf0050, 0, 16, .rw, 0, 0, 65535, false, false, false⟩
def KEY_LD_MAT_MAT (i : Nat) : Field := ⟨0xf0080 + 0x4 * i, 0, 32, .wo, 0, 0, 4294967295, false, false, false⟩
def KEY_LD_CMD_CMD : Field := ⟨0xf0100, 0, 3, .wo, 0, 0, 7, false, false, false⟩
def KEY_LD_STAT_BUSY : Field := ⟨0xf0104, 0, 1, .ro, 0, 0, 1, false, false, false⟩
def KEY_LD_STAT_OK : Field := ⟨0xf0104, 1, 1, .ro, 0, 0, 1, false, false, false⟩
def KEY_LD_STAT_ERR : Field := ⟨0xf0104, 4, 4, .ro, 0, 0, 15, false, false, false⟩
def KEY_WRAP_OUT_BLOB (i : Nat) : Field := ⟨0xf0180 + 0x4 * i, 0, 32, .ro, 0, 0, 4294967295, false, false, false⟩
def KEY_LOADS_COUNT : Field := ⟨0xf0200, 0, 32, .roc, 0, 0, 4294967295, false, false, false⟩
def KEY_ERR_COUNT : Field := ⟨0xf0204, 0, 32, .roc, 0, 0, 4294967295, false, false, false⟩
def KEY_CELL_UE_COUNT : Field := ⟨0xf0208, 0, 16, .roc, 0, 0, 65535, false, true, false⟩
def KSL_STATE (e : Nat) : Field := ⟨0x8900000000 + 256 * e, 0, 2, .ro, 0, 0, 3, false, false, false⟩
def KSL_OTP (e : Nat) : Field := ⟨0x8900000000 + 256 * e, 2, 1, .ro, 0, 0, 1, false, false, false⟩
def KSL_REVOKED (e : Nat) : Field := ⟨0x8900000000 + 256 * e, 3, 1, .ro, 0, 0, 1, false, false, false⟩
def KSL_TYPE (e : Nat) : Field := ⟨0x8900000000 + 256 * e, 8, 4, .ro, 0, 0, 15, false, false, false⟩
def KSL_WORLD (e : Nat) : Field := ⟨0x8900000000 + 256 * e, 12, 3, .ro, 0, 0, 7, false, false, false⟩
def KSL_MASTERS (e : Nat) : Field := ⟨0x8900000000 + 256 * e, 16, 2, .ro, 0, 0, 3, false, false, false⟩
def KSL_LCMASK (e : Nat) : Field := ⟨0x8900000000 + 256 * e, 20, 3, .ro, 0, 0, 7, false, false, false⟩
def KSL_KCV (e : Nat) : Field := ⟨0x8900000004 + 256 * e, 0, 24, .ro, 0, 0, 16777215, false, false, false⟩
def KSL_PKCV (e : Nat) : Field := ⟨0x8900000008 + 256 * e, 0, 24, .ro, 0, 0, 16777215, false, false, false⟩
def KSL_KEYID (e : Nat) : Field := ⟨0x890000000c + 256 * e, 0, 32, .ro, 0, 0, 4294967295, false, false, false⟩
def KSL_PKEYID (e : Nat) : Field := ⟨0x8900000010 + 256 * e, 0, 32, .ro, 0, 0, 4294967295, false, false, false⟩
def KSL_OVL_LEFT (e : Nat) : Field := ⟨0x8900000014 + 256 * e, 0, 16, .ro, 0, 0, 65535, false, false, false⟩
def KSL_USES (e : Nat) : Field := ⟨0x8900000014 + 256 * e, 16, 16, .ro, 0, 0, 65535, false, false, false⟩

/-! ### FWU (block 18) -/

def FWU_STG_CMD_CMD : Field := ⟨0xf8000, 0, 3, .wo, 0, 0, 7, false, false, false⟩
def FWU_STG_OFS_OFS : Field := ⟨0xf8004, 0, 23, .rw, 0, 0, 8388607, false, false, false⟩
def FWU_STG_STAT_BUSY : Field := ⟨0xf8008, 0, 1, .ro, 0, 0, 1, false, false, false⟩
def FWU_STG_STAT_DONE : Field := ⟨0xf8008, 1, 1, .ro, 0, 0, 1, false, false, false⟩
def FWU_STG_STAT_VERIFIED : Field := ⟨0xf8008, 2, 1, .ro, 0, 0, 1, false, false, false⟩
def FWU_STG_STAT_ERR : Field := ⟨0xf8008, 4, 4, .ro, 0, 0, 15, false, false, false⟩
def FWU_STG_STAT_OWNER : Field := ⟨0xf8008, 8, 2, .ro, 0, 0, 3, false, false, false⟩
def FWU_ACT_CODE : Field := ⟨0xf800c, 0, 32, .wo, 0, 0, 4294967295, false, false, false⟩
def FWU_CFG_TRIAL_S : Field := ⟨0xf8010, 0, 16, .rwa, 0x258, 1, 65535, true, false, false⟩
def FWU_CFG_AUTOCONF : Field := ⟨0xf8010, 16, 1, .rwa, 1, 0, 1, true, false, false⟩
def FWU_CONFIRM_GO : Field := ⟨0xf8014, 0, 1, .wo, 0, 0, 1, false, false, false⟩
def FWU_STAT_TRIAL : Field := ⟨0xf8018, 0, 1, .ro, 0, 0, 1, false, false, false⟩
def FWU_STAT_STAGED : Field := ⟨0xf8018, 1, 1, .ro, 0, 0, 1, false, false, false⟩
def FWU_STAT_REJECT : Field := ⟨0xf8018, 2, 1, .ro, 0, 0, 1, false, false, false⟩
def FWU_VER_A_VERSION : Field := ⟨0xf801c, 0, 32, .ro, 0, 0, 4294967295, false, false, false⟩
def FWU_VER_B_VERSION : Field := ⟨0xf8020, 0, 32, .ro, 0, 0, 4294967295, false, false, false⟩
def FWU_ROLLBACK_COUNT : Field := ⟨0xf8024, 0, 7, .ro, 0, 0, 127, false, false, false⟩
def FWU_PAUSE_MS : Field := ⟨0xf8028, 0, 32, .ro, 0, 0, 4294967295, false, false, false⟩
def FWU_TRIAL_LEFT_SEC : Field := ⟨0xf802c, 0, 16, .ro, 0, 0, 65535, false, false, false⟩
def FWU_STG_BUF_DATA (i : Nat) : Field := ⟨0xf8100 + 0x4 * i, 0, 32, .rw, 0, 0, 4294967295, false, false, false⟩

/-! ### HST (block 19) -/

def HST_DP_SEL_PART : Field := ⟨0x100020, 0, 4, .rw, 0, 0, 15, false, false, false⟩
def HST_DP_CTRL_PAIR : Field := ⟨0x100024, 0, 1, .rw, 0, 0, 1, false, false, false⟩
def HST_DP_CTRL_BLEN : Field := ⟨0x100024, 8, 8, .rw, 0, 0, 255, false, false, false⟩
def HST_DP_CMD_OP : Field := ⟨0x100028, 0, 2, .wo, 0, 0, 3, false, false, false⟩
def HST_DP_STAT_BUSY : Field := ⟨0x10002c, 0, 1, .ro, 0, 0, 1, false, false, false⟩
def HST_DP_STAT_READY : Field := ⟨0x10002c, 1, 1, .ro, 0, 0, 1, false, false, false⟩
def HST_DP_STAT_RANGE : Field := ⟨0x10002c, 2, 1, .ro, 0, 0, 1, false, false, false⟩
def HST_DP_STAT_DENIED : Field := ⟨0x10002c, 3, 1, .ro, 0, 0, 1, false, false, false⟩
def HST_DP_STAT_ECC : Field := ⟨0x10002c, 4, 1, .ro, 0, 0, 1, false, false, false⟩
def HST_DP_ADDR_LO_ADDR : Field := ⟨0x100030, 0, 32, .rw, 0, 0, 4294967295, false, false, false⟩
def HST_DP_ADDR_HI_ADDR : Field := ⟨0x100034, 0, 32, .rw, 0, 0, 4294967295, false, false, false⟩
def HST_DP_DATA_DATA : Field := ⟨0x100038, 0, 32, .rw, 0, 0, 4294967295, false, false, false⟩
def HST_CFG_PORT : Field := ⟨0x100000, 0, 1, .rwk, 0, 0, 1, true, false, false⟩
def HST_CFG_PINS_OFF : Field := ⟨0x100000, 1, 1, .rwk, 0, 0, 1, true, false, false⟩
def HST_STAT_LINK_UP : Field := ⟨0x100004, 0, 1, .ro, 0, 0, 1, false, false, false⟩
def HST_STAT_WIDTH : Field := ⟨0x100004, 1, 2, .ro, 0, 0, 3, false, false, false⟩
def HST_STAT_SPEED : Field := ⟨0x100004, 3, 2, .ro, 0, 0, 3, false, false, false⟩

/-! ### The four common registers of every block (R25) -/

/-- Base of the region of block `b` (R24). -/
def blkBase (b : Nat) : Nat :=
  match b with
  | 0 => 0x0
  | 1 => 0x10000
  | 2 => 0x8000
  | 3 => 0x20000
  | 4 => 0x30000
  | 5 => 0x40000
  | 6 => 0x50000
  | 7 => 0x60000
  | 8 => 0x70000
  | 9 => 0x80000
  | 10 => 0x90000
  | 11 => 0xa0000
  | 12 => 0xb0000
  | 13 => 0xc0000
  | 14 => 0xc8000
  | 15 => 0xd0000
  | 16 => 0xe0000
  | 17 => 0xf0000
  | 18 => 0xf8000
  | 19 => 0x100000
  | _ => 0

/-- Size of the region of block `b`: a 64 KiB window or a 32 KiB half-window (R24). -/
def blkSize (b : Nat) : Nat :=
  if b = 0 ∨ b = 2 ∨ b = 13 ∨ b = 14 ∨ b = 17 ∨ b = 18 then 0x8000 else 0x10000

def BLK_CLR_CLRCNT (b : Nat) : Field := ⟨blkBase b + blkSize b - 16, 0, 1, .wo, 0, 0, 1, false, false, false⟩
def BLK_LOCK_LOCK (b : Nat) : Field := ⟨blkBase b + blkSize b - 12, 0, 1, .rwk, 0, 0, 1, true, false, false⟩
def BLK_IRQ_EN_EN (b : Nat) : Field := ⟨blkBase b + blkSize b - 8, 0, 32, .rw, 0, 0, 4294967295, true, false, false⟩
def BLK_IRQ_STAT_STAT (b : Nat) : Field := ⟨blkBase b + blkSize b - 4, 0, 32, .ro, 0, 0, 4294967295, false, false, false⟩

/-- The table port of one master (`h` = 1 host, 0 management core) in block `b`: buffer word `i` and the three controls (R27). -/
def tpOfs (b h : Nat) : Nat :=
  blkBase b + (if b = 17 then 0x7B00 else 0xFB00) + 0x200 * h

def TP_BUF (b h i : Nat) : Field := ⟨tpOfs b h + 4 * i, 0, 32, .rw, 0, 0, 4294967295, false, false, false⟩
def TP_IDX_ENTRY (b h : Nat) : Field := ⟨tpOfs b h + 0x100, 0, 16, .rw, 0, 0, 65535, false, false, false⟩
def TP_IDX_TABLE (b h : Nat) : Field := ⟨tpOfs b h + 0x100, 16, 4, .rw, 0, 0, 15, false, false, false⟩
def TP_CMD_OP (b h : Nat) : Field := ⟨tpOfs b h + 0x104, 0, 2, .wo, 0, 0, 3, false, false, false⟩
def TP_STAT_BUSY (b h : Nat) : Field := ⟨tpOfs b h + 0x108, 0, 1, .ro, 0, 0, 1, false, false, false⟩
def TP_STAT_RANGE (b h : Nat) : Field := ⟨tpOfs b h + 0x108, 1, 1, .ro, 0, 0, 1, false, false, false⟩
def TP_STAT_DENIED (b h : Nat) : Field := ⟨tpOfs b h + 0x108, 2, 1, .ro, 0, 0, 1, false, false, false⟩
def TP_STAT_WORDS (b h : Nat) : Field := ⟨tpOfs b h + 0x108, 8, 8, .ro, 0, 0, 255, false, false, false⟩

/-- The data-port burst window, word `i` (R24, R47). -/
def HST_WIN (i : Nat) : Field := ⟨0x1000000 + 4 * i, 0, 32, .rw, 0, 0, 4294967295, false, false, false⟩

end Sys2Proof.Machine
end

