-- ==== Sys2Proof/Machine/RegTable.lean ====
section
/-! DEFINITION. The register map of spec/: which word addresses are assigned, and the fields of each (R24, R25, R27).
A descriptor covers base + s1·i + s2·j for i < n1, j < n2; `pair` is 1 for the low word of a 64-bit pair, 2 for the high word (R30). -/

namespace Sys2Proof.Machine

def regsSYS0 : List RegDesc := [
  ⟨0x0, 1, 0x0, 1, 0x0, 0, fun _ _ => [SYS_ID_STEP, SYS_ID_PART]⟩,
  ⟨0x8, 1, 0x0, 1, 0x0, 0, fun _ _ => [SYS_CAPS_VALUE]⟩,
  ⟨0x10, 1, 0x0, 1, 0x0, 0, fun _ _ => [SYS_APPLY_MASK]⟩,
  ⟨0x14, 1, 0x0, 1, 0x0, 0, fun _ _ => [SYS_APPLY_STAT_PEND]⟩,
  ⟨0x18, 1, 0x0, 1, 0x0, 0, fun _ _ => [SYS_IRQ_ROUTE_LINES 0, SYS_IRQ_ROUTE_LINES 1, SYS_IRQ_ROUTE_LINES 2, SYS_IRQ_ROUTE_LINES 3, SYS_IRQ_ROUTE_LINES 4, SYS_IRQ_ROUTE_LINES 5, SYS_IRQ_ROUTE_LINES 6, SYS_IRQ_ROUTE_LINES 7]⟩,
  ⟨0x1c, 1, 0x0, 1, 0x0, 0, fun _ _ => [SYS_IRQ_ROUTE_LINES 8, SYS_IRQ_ROUTE_LINES 9, SYS_IRQ_ROUTE_LINES 10, SYS_IRQ_ROUTE_LINES 11, SYS_IRQ_ROUTE_LINES 12, SYS_IRQ_ROUTE_LINES 13, SYS_IRQ_ROUTE_LINES 14, SYS_IRQ_ROUTE_LINES 15]⟩,
  ⟨0x20, 1, 0x0, 1, 0x0, 0, fun _ _ => [SYS_IRQ_ROUTE_LINES 16, SYS_IRQ_ROUTE_LINES 17, SYS_IRQ_ROUTE_LINES 18, SYS_IRQ_ROUTE_LINES 19]⟩,
  ⟨0x24, 1, 0x0, 1, 0x0, 0, fun _ _ => [SYS_IRQ_SUM_SUM]⟩,
  ⟨0x28, 1, 0x0, 1, 0x0, 0, fun _ _ => [SYS_NMI_CAUSE_CLKFAIL, SYS_NMI_CAUSE_FALLSTART, SYS_NMI_CAUSE_VOTE, SYS_NMI_CAUSE_LOGMEM, SYS_NMI_CAUSE_UNCORR]⟩,
  ⟨0x2c, 1, 0x0, 1, 0x0, 0, fun _ _ => [SYS_NMI_ACK_MASK]⟩,
  ⟨0x30, 1, 0x0, 1, 0x0, 1, fun _ _ => [SYS_SN_LO_SN]⟩,
  ⟨0x34, 1, 0x0, 1, 0x0, 2, fun _ _ => [SYS_SN_HI_SN]⟩,
  ⟨0x40, 1, 0x0, 1, 0x0, 0, fun _ _ => [SYS_FAB_WR_MC_COUNT]⟩,
  ⟨0x44, 1, 0x0, 1, 0x0, 0, fun _ _ => [SYS_FAB_WR_HC_COUNT]⟩,
  ⟨0x48, 1, 0x0, 1, 0x0, 0, fun _ _ => [SYS_FAB_CONT_COUNT]⟩,
  ⟨0x50, 1, 0x0, 1, 0x0, 0, fun _ _ => [SYS_ERR_ADDR_ADDR]⟩,
  ⟨0x54, 1, 0x0, 1, 0x0, 0, fun _ _ => [SYS_ERR_INFO_MASTER, SYS_ERR_INFO_WRITE, SYS_ERR_INFO_WIDTH, SYS_ERR_INFO_KIND]⟩,
  ⟨0x60, 1, 0x0, 1, 0x0, 0, fun _ _ => [SYS_STRAP_XDLY, SYS_STRAP_BOOT_MODE, SYS_STRAP_PAIR_POS]⟩,
  ⟨0x64, 1, 0x0, 1, 0x0, 0, fun _ _ => [SYS_BOOT_STAT_PHASE, SYS_BOOT_STAT_BANK, SYS_BOOT_STAT_TRIAL, SYS_BOOT_STAT_FALLBACK, SYS_BOOT_STAT_NOREF, SYS_BOOT_STAT_USER, SYS_BOOT_STAT_USLOT, SYS_BOOT_STAT_FACT_BUILTIN]⟩,
  ⟨0x68, 1, 0x0, 1, 0x0, 0, fun _ _ => [SYS_IMG_STAT_FAILSEC, SYS_IMG_STAT_REJITEM, SYS_IMG_STAT_SCHEMA]⟩,
  ⟨0x6c, 1, 0x0, 1, 0x0, 0, fun _ _ => [SYS_RST_CAUSE_PORST, SYS_RST_CAUSE_RSTN, SYS_RST_CAUSE_WDOG, SYS_RST_CAUSE_FWRST, SYS_RST_CAUSE_RTCWAKE]⟩,
  ⟨0x70, 1, 0x0, 1, 0x0, 0, fun _ _ => [SYS_SVC_TIME_US]⟩,
  ⟨0x74, 1, 0x0, 1, 0x0, 0, fun _ _ => [SYS_LOCK_TIME_MS]⟩,
  ⟨0x78, 1, 0x0, 1, 0x0, 0, fun _ _ => [SYS_START_GO]⟩]

def regsSYS1 : List RegDesc := [
  ⟨0x7c, 1, 0x0, 1, 0x0, 0, fun _ _ => [SYS_START_CFG_WAITLOCK, SYS_START_CFG_LOCKWAIT]⟩]

def regsSYS : List RegDesc := regsSYS0 ++ regsSYS1

def regsCLK0 : List RegDesc := [
  ⟨0x10000, 1, 0x0, 1, 0x0, 0, fun _ _ => [CLK_CTRL_IRC_EN, CLK_CTRL_FO_RELOCK]⟩,
  ⟨0x10004, 1, 0x0, 1, 0x0, 0, fun _ _ => [CLK_SW_TARGET]⟩,
  ⟨0x10008, 1, 0x0, 1, 0x0, 0, fun _ _ => [CLK_STAT_STATE, CLK_STAT_REF_OK, CLK_STAT_IRC_STABLE, CLK_STAT_PLL_LOCK, CLK_STAT_SW_BUSY]⟩,
  ⟨0x1000c, 1, 0x0, 1, 0x0, 0, fun _ _ => [CLK_MON_CNT_COUNT]⟩,
  ⟨0x10010, 1, 0x0, 1, 0x0, 0, fun _ _ => [CLK_MON_TRIPS_TRIPS]⟩,
  ⟨0x10014, 1, 0x0, 1, 0x0, 0, fun _ _ => [CLK_IRC_TRIM_TRIM]⟩,
  ⟨0x10018, 1, 0x0, 1, 0x0, 0, fun _ _ => [CLK_GATE_CFG_LANES_ON, CLK_GATE_CFG_ELS_ON, CLK_GATE_CFG_PHY_ON, CLK_GATE_CFG_HOST_ON]⟩,
  ⟨0x1001c, 1, 0x0, 1, 0x0, 0, fun _ _ => [CLK_FORCED_CNT_FORCED]⟩]

def regsCLK : List RegDesc := regsCLK0

def regsPWR0 : List RegDesc := [
  ⟨0x8000, 1, 0x0, 1, 0x0, 0, fun _ _ => [PWR_DOMAIN_EN_ON01, PWR_DOMAIN_EN_EN]⟩,
  ⟨0x8004, 1, 0x0, 1, 0x0, 0, fun _ _ => [PWR_STAT_ON, PWR_STAT_BUSY]⟩,
  ⟨0x8008, 1, 0x0, 1, 0x0, 0, fun _ _ => [PWR_HIB_CMD]⟩,
  ⟨0x800c, 1, 0x0, 1, 0x0, 0, fun _ _ => [PWR_WAKE_CFG_RTC, PWR_WAKE_CFG_FASTWAKE]⟩,
  ⟨0x8010, 1, 0x0, 1, 0x0, 0, fun _ _ => [PWR_WAKE_SEC_SEC]⟩,
  ⟨0x8014, 1, 0x0, 1, 0x0, 0, fun _ _ => [PWR_PFAIL_STAT_PFAIL, PWR_PFAIL_STAT_COPY_DONE]⟩,
  ⟨0x8018, 1, 0x0, 1, 0x0, 0, fun _ _ => [PWR_PFAIL_CNT_COUNT]⟩]

def regsPWR : List RegDesc := regsPWR0

def regsTNS0 : List RegDesc := [
  ⟨0x20000, 1, 0x0, 1, 0x0, 0, fun _ _ => [TNS_SNAP_GO]⟩,
  ⟨0x20004, 1, 0x0, 1, 0x0, 0, fun _ _ => [TNS_SEC_HI_SEC]⟩,
  ⟨0x20008, 1, 0x0, 1, 0x0, 0, fun _ _ => [TNS_SEC_LO_SEC]⟩,
  ⟨0x2000c, 1, 0x0, 1, 0x0, 0, fun _ _ => [TNS_NS_NS]⟩,
  ⟨0x20010, 1, 0x0, 1, 0x0, 0, fun _ _ => [TNS_FRAC_FRAC]⟩,
  ⟨0x20014, 1, 0x0, 1, 0x0, 0, fun _ _ => [TNS_SNAP_Q_EPOCH, TNS_SNAP_Q_QUAL, TNS_SNAP_Q_IRC]⟩,
  ⟨0x20018, 1, 0x0, 1, 0x0, 1, fun _ _ => [TNS_INC_LO_FRAC]⟩,
  ⟨0x2001c, 1, 0x0, 1, 0x0, 2, fun _ _ => [TNS_INC_HI_NS]⟩,
  ⟨0x20020, 1, 0x0, 1, 0x0, 1, fun _ _ => [TNS_INC_ALT_LO_FRAC]⟩,
  ⟨0x20024, 1, 0x0, 1, 0x0, 2, fun _ _ => [TNS_INC_ALT_HI_NS]⟩,
  ⟨0x20028, 1, 0x0, 1, 0x0, 0, fun _ _ => [TNS_XFER_GO]⟩,
  ⟨0x2002c, 1, 0x0, 1, 0x0, 0, fun _ _ => [TNS_INC_LIM_PPM]⟩,
  ⟨0x20030, 1, 0x0, 1, 0x0, 0, fun _ _ => [TNS_STEP_SEC_SEC]⟩,
  ⟨0x20034, 1, 0x0, 1, 0x0, 0, fun _ _ => [TNS_STEP_NS_NS]⟩,
  ⟨0x20038, 1, 0x0, 1, 0x0, 0, fun _ _ => [TNS_STEP_CMD_GO]⟩,
  ⟨0x2003c, 1, 0x0, 1, 0x0, 0, fun _ _ => [TNS_STEP_MAX_NS]⟩,
  ⟨0x20040, 1, 0x0, 1, 0x0, 0, fun _ _ => [TNS_CTRL_PRIO, TNS_CTRL_REVERT]⟩,
  ⟨0x20044, 1, 0x0, 1, 0x0, 0, fun _ _ => [TNS_SERVO_LOCK_THR, TNS_SERVO_TC]⟩,
  ⟨0x20048, 1, 0x0, 1, 0x0, 0, fun _ _ => [TNS_HOLD_HOLD_MAX, TNS_HOLD_RATE]⟩,
  ⟨0x2004c, 1, 0x0, 1, 0x0, 0, fun _ _ => [TNS_STAT_STATE, TNS_STAT_SRC, TNS_STAT_XFER, TNS_STAT_TQ, TNS_STAT_UNLK, TNS_STAT_IRC, TNS_STAT_SLEW, TNS_STAT_ALT_OK]⟩,
  ⟨0x20050, 1, 0x0, 1, 0x0, 0, fun _ _ => [TNS_EPOCH_EPOCH]⟩,
  ⟨0x20054, 1, 0x0, 1, 0x0, 0, fun _ _ => [TNS_OFFSET_NS]⟩,
  ⟨0x20058, 1, 0x0, 1, 0x0, 0, fun _ _ => [TNS_UTC_OFS, TNS_UTC_LSP, TNS_UTC_LSDIR, TNS_UTC_LSOCC]⟩,
  ⟨0x20060, 1, 0x0, 1, 0x0, 0, fun _ _ => [TNS_DOMA_CFG_DOMAIN, TNS_DOMA_CFG_PORT, TNS_DOMA_CFG_PROFILE, TNS_DOMA_CFG_ROLE, TNS_DOMA_CFG_ONESTEP, TNS_DOMA_CFG_EN]⟩]

def regsTNS1 : List RegDesc := [
  ⟨0x20064, 1, 0x0, 1, 0x0, 0, fun _ _ => [TNS_DOMB_CFG_DOMAIN, TNS_DOMB_CFG_PORT, TNS_DOMB_CFG_PROFILE, TNS_DOMB_CFG_ROLE, TNS_DOMB_CFG_ONESTEP, TNS_DOMB_CFG_EN]⟩,
  ⟨0x20068, 1, 0x0, 1, 0x0, 0, fun _ _ => [TNS_PPSI_CFG_EN, TNS_PPSI_CFG_POL, TNS_PPSI_CFG_DELAY]⟩,
  ⟨0x2006c, 1, 0x0, 1, 0x0, 0, fun _ _ => [TNS_PPSO_CFG_EN, TNS_PPSO_CFG_MODE, TNS_PPSO_CFG_POL, TNS_PPSO_CFG_WIDTH, TNS_PPSO_CFG_ADV]⟩,
  ⟨0x20070, 1, 0x0, 1, 0x0, 0, fun _ _ => [TNS_IRIG_CFG_EN, TNS_IRIG_CFG_POL, TNS_IRIG_CFG_UTC, TNS_IRIG_CFG_REQ1344, TNS_IRIG_CFG_DELAY]⟩,
  ⟨0x20080, 1, 0x0, 1, 0x0, 0, fun _ _ => [TNS_STEP_CNT_FWD, TNS_STEP_CNT_BACK]⟩,
  ⟨0x20100, 6, 0x8, 1, 0x0, 0, fun i _ => [TNS_PCOR_TX_COR i]⟩,
  ⟨0x20104, 6, 0x8, 1, 0x0, 0, fun i _ => [TNS_PCOR_RX_COR i]⟩,
  ⟨0x20200, 4, 0x20, 1, 0x0, 0, fun i _ => [TNS_TSQ_STAT_COUNT i]⟩,
  ⟨0x20204, 4, 0x20, 5, 0x4, 0, fun i j => [TNS_TSQ_W i j]⟩,
  ⟨0x20218, 4, 0x20, 1, 0x0, 0, fun i _ => [TNS_TSQ_POP_POP i]⟩,
  ⟨0x2021c, 4, 0x20, 1, 0x0, 0, fun i _ => [TNS_TSQ_LOST_LOST i]⟩]

def regsTNS : List RegDesc := regsTNS0 ++ regsTNS1

def regsNET0 : List RegDesc := [
  ⟨0x30000, 1, 0x0, 1, 0x0, 0, fun _ _ => [NET_C37_UDP_PORT0, NET_C37_UDP_PORT1]⟩,
  ⟨0x30004, 1, 0x0, 1, 0x0, 0, fun _ _ => [NET_SREF_STAT_SREF0_OK, NET_SREF_STAT_SREF1_OK]⟩,
  ⟨0x31000, 6, 0x200, 1, 0x0, 0, fun i _ => [NET_P_CFG_MODE i, NET_P_CFG_AN i, NET_P_CFG_BCAST i, NET_P_CFG_PAUSE_HON i, NET_P_CFG_EEE_EN i]⟩,
  ⟨0x31004, 6, 0x200, 1, 0x0, 0, fun i _ => [NET_P_STAT_LINK i, NET_P_STAT_SPEED i, NET_P_STAT_LPI_TX i, NET_P_STAT_LPI_RX i, NET_P_STAT_PAUSED i, NET_P_STAT_PLCA_ACT i]⟩,
  ⟨0x31008, 6, 0x200, 1, 0x0, 0, fun i _ => [NET_P_EEE_IDLE i]⟩,
  ⟨0x3100c, 6, 0x200, 1, 0x0, 0, fun i _ => [NET_P_PLCA_NODE_ID i, NET_P_PLCA_NODE_CNT i, NET_P_PLCA_TO_TIMER i, NET_P_PLCA_BURST_CNT i]⟩,
  ⟨0x31010, 6, 0x200, 1, 0x0, 0, fun i _ => [NET_P_PLCA2_BURST_TMR i]⟩,
  ⟨0x31014, 6, 0x200, 1, 0x0, 0, fun i _ => [NET_P_FIFO_THR_THR i]⟩,
  ⟨0x31018, 6, 0x200, 1, 0x0, 0, fun i _ => [NET_P_FIFO_LVL_BYTES i]⟩,
  ⟨0x3101c, 6, 0x200, 1, 0x0, 0, fun i _ => [NET_P_FLUSH_GO i]⟩,
  ⟨0x31020, 6, 0x200, 1, 0x0, 0, fun i _ => [NET_P_FSTAT_FLUSH_BUSY i, NET_P_FSTAT_FLUSH_DONE i, NET_P_FSTAT_FORCED i, NET_P_FSTAT_OVF i, NET_P_FSTAT_THR i]⟩,
  ⟨0x31040, 6, 0x200, 8, 0x8, 0, fun i j => [NET_P_ADDR_LO_MAC i j]⟩,
  ⟨0x31044, 6, 0x200, 8, 0x8, 0, fun i j => [NET_P_ADDR_HI_MAC i j, NET_P_ADDR_HI_EN i j]⟩,
  ⟨0x31080, 6, 0x200, 1, 0x0, 1, fun i _ => [NET_P_RX_OK_LO_COUNT i]⟩,
  ⟨0x31084, 6, 0x200, 1, 0x0, 2, fun i _ => [NET_P_RX_OK_HI_COUNT i]⟩,
  ⟨0x31088, 6, 0x200, 1, 0x0, 1, fun i _ => [NET_P_RX_BYTES_LO_COUNT i]⟩,
  ⟨0x3108c, 6, 0x200, 1, 0x0, 2, fun i _ => [NET_P_RX_BYTES_HI_COUNT i]⟩,
  ⟨0x31090, 6, 0x200, 1, 0x0, 1, fun i _ => [NET_P_TX_OK_LO_COUNT i]⟩,
  ⟨0x31094, 6, 0x200, 1, 0x0, 2, fun i _ => [NET_P_TX_OK_HI_COUNT i]⟩,
  ⟨0x31098, 6, 0x200, 1, 0x0, 1, fun i _ => [NET_P_TX_BYTES_LO_COUNT i]⟩,
  ⟨0x3109c, 6, 0x200, 1, 0x0, 2, fun i _ => [NET_P_TX_BYTES_HI_COUNT i]⟩,
  ⟨0x310a0, 6, 0x200, 1, 0x0, 0, fun i _ => [NET_P_STRANGER_COUNT i]⟩,
  ⟨0x310a4, 6, 0x200, 1, 0x0, 0, fun i _ => [NET_P_RUNT_COUNT i]⟩,
  ⟨0x310a8, 6, 0x200, 1, 0x0, 0, fun i _ => [NET_P_OVERSIZE_COUNT i]⟩]

def regsNET1 : List RegDesc := [
  ⟨0x310ac, 6, 0x200, 1, 0x0, 0, fun i _ => [NET_P_FCSERR_COUNT i]⟩,
  ⟨0x310b0, 6, 0x200, 1, 0x0, 0, fun i _ => [NET_P_TAGERR_COUNT i]⟩,
  ⟨0x310b4, 6, 0x200, 1, 0x0, 0, fun i _ => [NET_P_TYPEERR_COUNT i]⟩,
  ⟨0x310b8, 6, 0x200, 1, 0x0, 0, fun i _ => [NET_P_IPCSERR_COUNT i]⟩,
  ⟨0x310bc, 6, 0x200, 1, 0x0, 0, fun i _ => [NET_P_FRAG_COUNT i]⟩,
  ⟨0x310c0, 6, 0x200, 1, 0x0, 0, fun i _ => [NET_P_L4CSERR_COUNT i]⟩,
  ⟨0x310c4, 6, 0x200, 1, 0x0, 0, fun i _ => [NET_P_CRCERR_COUNT i]⟩,
  ⟨0x310c8, 6, 0x200, 1, 0x0, 0, fun i _ => [NET_P_OVF_COUNT i]⟩,
  ⟨0x310cc, 6, 0x200, 1, 0x0, 0, fun i _ => [NET_P_FLUSHED_COUNT i]⟩,
  ⟨0x310d0, 6, 0x200, 1, 0x0, 0, fun i _ => [NET_P_PAUSE_RX_COUNT i]⟩,
  ⟨0x310d4, 6, 0x200, 1, 0x0, 0, fun i _ => [NET_P_PAUSE_US_COUNT i]⟩,
  ⟨0x310d8, 6, 0x200, 1, 0x0, 0, fun i _ => [NET_P_CTRLERR_COUNT i]⟩,
  ⟨0x310dc, 6, 0x200, 1, 0x0, 0, fun i _ => [NET_P_TXDROP_COUNT i]⟩,
  ⟨0x310e0, 6, 0x200, 1, 0x0, 0, fun i _ => [NET_P_COL_COUNT i]⟩,
  ⟨0x310e4, 6, 0x200, 1, 0x0, 0, fun i _ => [NET_P_LATECOL_COUNT i]⟩,
  ⟨0x310e8, 6, 0x200, 1, 0x0, 0, fun i _ => [NET_P_EXCOL_COUNT i]⟩,
  ⟨0x310ec, 6, 0x200, 1, 0x0, 0, fun i _ => [NET_P_PLCA_FALLBK_COUNT i]⟩,
  ⟨0x310f0, 6, 0x200, 1, 0x0, 0, fun i _ => [NET_P_LPI_CNT_COUNT i]⟩]

def regsNET : List RegDesc := regsNET0 ++ regsNET1

def regsING0 : List RegDesc := [
  ⟨0x40000, 1, 0x0, 1, 0x0, 0, fun _ _ => [ING_CFG_ELSD_EN, ING_CFG_REQCFG]⟩,
  ⟨0x40004, 1, 0x0, 1, 0x0, 0, fun _ _ => [ING_FLOW_UDP_PORT]⟩,
  ⟨0x40008, 1, 0x0, 1, 0x0, 0, fun _ _ => [ING_PAIR_TMO]⟩,
  ⟨0x4000c, 1, 0x0, 1, 0x0, 0, fun _ _ => [ING_GRID_TOL]⟩,
  ⟨0x40010, 1, 0x0, 1, 0x0, 0, fun _ _ => [ING_ELSDROP_COUNT]⟩,
  ⟨0x40014, 1, 0x0, 1, 0x0, 0, fun _ _ => [ING_CFGFRAG_COUNT]⟩,
  ⟨0x40100, 6, 0x10, 1, 0x0, 0, fun i _ => [ING_P_UNKNOWN_COUNT i]⟩,
  ⟨0x40104, 6, 0x10, 1, 0x0, 0, fun i _ => [ING_P_LENERR_COUNT i]⟩,
  ⟨0x40108, 6, 0x10, 1, 0x0, 0, fun i _ => [ING_P_MGMT_COUNT i]⟩]

def regsING : List RegDesc := regsING0

def regsACQ0 : List RegDesc := [
  ⟨0x50000, 1, 0x0, 1, 0x0, 0, fun _ _ => [ACQ_CFG_EN, ACQ_CFG_RATE]⟩,
  ⟨0x50004, 1, 0x0, 1, 0x0, 0, fun _ _ => [ACQ_LANE_EN_EN]⟩,
  ⟨0x50008, 1, 0x0, 1, 0x0, 0, fun _ _ => [ACQ_MCLK_EN]⟩,
  ⟨0x5000c, 1, 0x0, 1, 0x0, 0, fun _ _ => [ACQ_SYNC_CFG_SRC]⟩,
  ⟨0x50010, 1, 0x0, 1, 0x0, 0, fun _ _ => [ACQ_SYNC_GO]⟩,
  ⟨0x50014, 1, 0x0, 1, 0x0, 0, fun _ _ => [ACQ_SYNC_SEC_SEC]⟩,
  ⟨0x50018, 1, 0x0, 1, 0x0, 0, fun _ _ => [ACQ_SYNC_NS_NS]⟩,
  ⟨0x5001c, 1, 0x0, 1, 0x0, 0, fun _ _ => [ACQ_STAT_RUN, ACQ_STAT_ARMED, ACQ_STAT_SETTLING, ACQ_STAT_GAP]⟩,
  ⟨0x50020, 1, 0x0, 1, 0x0, 0, fun _ _ => [ACQ_FAULT_PARMAX, ACQ_FAULT_OVLRUN]⟩,
  ⟨0x50024, 1, 0x0, 1, 0x0, 0, fun _ _ => [ACQ_DET_CFG_RMS_CYC, ACQ_DET_CFG_DECAY, ACQ_DET_CFG_HYST]⟩,
  ⟨0x50030, 1, 0x0, 1, 0x0, 0, fun _ _ => [ACQ_FIR_SEL_BANK, ACQ_FIR_SEL_ACTIVE]⟩,
  ⟨0x50040, 1, 0x0, 1, 0x0, 0, fun _ _ => [ACQ_FIRA_CFG_NTAP, ACQ_FIRA_CFG_GDLY]⟩,
  ⟨0x50044, 1, 0x0, 1, 0x0, 0, fun _ _ => [ACQ_FIRB_CFG_NTAP, ACQ_FIRB_CFG_GDLY]⟩,
  ⟨0x50100, 64, 0x4, 1, 0x0, 0, fun i _ => [ACQ_FIRA_C_COEF i]⟩,
  ⟨0x50200, 64, 0x4, 1, 0x0, 0, fun i _ => [ACQ_FIRB_C_COEF i]⟩,
  ⟨0x50400, 24, 0x20, 1, 0x0, 0, fun i _ => [ACQ_L_DEC1_LEN i, ACQ_L_DEC1_SH i]⟩,
  ⟨0x50404, 24, 0x20, 1, 0x0, 0, fun i _ => [ACQ_L_DEC2_LEN i, ACQ_L_DEC2_SH i]⟩,
  ⟨0x50408, 24, 0x20, 1, 0x0, 0, fun i _ => [ACQ_L_DEC3_LEN i, ACQ_L_DEC3_SH i]⟩,
  ⟨0x5040c, 24, 0x20, 1, 0x0, 0, fun i _ => [ACQ_L_CFG_RTD_CYC i, ACQ_L_CFG_TCOR i]⟩,
  ⟨0x50410, 24, 0x20, 1, 0x0, 0, fun i _ => [ACQ_L_STAT_LOCK i, ACQ_L_STAT_FAULT i, ACQ_L_STAT_RTD i, ACQ_L_STAT_SATCH i]⟩,
  ⟨0x50414, 24, 0x20, 1, 0x0, 0, fun i _ => [ACQ_L_GDLY_GDLY i]⟩,
  ⟨0x50418, 24, 0x20, 1, 0x0, 0, fun i _ => [ACQ_L_PARERR_COUNT i]⟩,
  ⟨0x5041c, 24, 0x20, 1, 0x0, 0, fun i _ => [ACQ_L_SATCNT_COUNT i]⟩,
  ⟨0x51000, 192, 0x20, 1, 0x0, 0, fun i _ => [ACQ_CH_CFG_EN i, ACQ_CH_CFG_FLAGS i]⟩]

def regsACQ1 : List RegDesc := [
  ⟨0x51004, 192, 0x20, 1, 0x0, 0, fun i _ => [ACQ_CH_THR_PK_THR i]⟩,
  ⟨0x51008, 192, 0x20, 1, 0x0, 0, fun i _ => [ACQ_CH_THR_RMSHI_THR i]⟩,
  ⟨0x5100c, 192, 0x20, 1, 0x0, 0, fun i _ => [ACQ_CH_THR_RMSLO_THR i]⟩,
  ⟨0x51010, 192, 0x20, 1, 0x0, 0, fun i _ => [ACQ_CH_THR_ENVLO_THR i]⟩,
  ⟨0x51014, 192, 0x20, 1, 0x0, 0, fun i _ => [ACQ_CH_PK_VALUE i]⟩,
  ⟨0x51018, 192, 0x20, 1, 0x0, 0, fun i _ => [ACQ_CH_RMS_VALUE i]⟩,
  ⟨0x5101c, 192, 0x20, 1, 0x0, 0, fun i _ => [ACQ_CH_ENV_VALUE i]⟩,
  ⟨0x53000, 64, 0x4, 1, 0x0, 0, fun i _ => [ACQ_STI_CFG_EN i, ACQ_STI_CFG_INV i, ACQ_STI_CFG_LOG i, ACQ_STI_CFG_DEB i]⟩,
  ⟨0x53100, 1, 0x0, 1, 0x0, 0, fun _ _ => [ACQ_STI_STATE_LO_STATE]⟩,
  ⟨0x53104, 1, 0x0, 1, 0x0, 0, fun _ _ => [ACQ_STI_STATE_HI_STATE]⟩,
  ⟨0x53108, 1, 0x0, 1, 0x0, 0, fun _ _ => [ACQ_STI_CHAT_LO_CHAT]⟩,
  ⟨0x5310c, 1, 0x0, 1, 0x0, 0, fun _ _ => [ACQ_STI_CHAT_HI_CHAT]⟩,
  ⟨0x53110, 1, 0x0, 1, 0x0, 0, fun _ _ => [ACQ_STI_GCFG_CHAT_MAX]⟩,
  ⟨0x53114, 1, 0x0, 1, 0x0, 0, fun _ _ => [ACQ_STI_CHGCNT_COUNT]⟩]

def regsACQ : List RegDesc := regsACQ0 ++ regsACQ1

def regsPHS0 : List RegDesc := [
  ⟨0x60000, 1, 0x0, 1, 0x0, 0, fun _ _ => [PHS_CFG_EN, PHS_CFG_TEST]⟩,
  ⟨0x60004, 1, 0x0, 1, 0x0, 0, fun _ _ => [PHS_STAT_RUN]⟩,
  ⟨0x60008, 1, 0x0, 1, 0x0, 0, fun _ _ => [PHS_HS_ACT_ACT]⟩,
  ⟨0x6000c, 1, 0x0, 1, 0x0, 0, fun _ _ => [PHS_HS_MISS_MISS]⟩,
  ⟨0x61000, 192, 0x8, 1, 0x0, 0, fun i _ => [PHS_CH_SCALE_SCALE i]⟩,
  ⟨0x61004, 192, 0x8, 1, 0x0, 0, fun i _ => [PHS_CH_ANG_ANG i]⟩,
  ⟨0x62000, 8, 0x20, 1, 0x0, 0, fun i _ => [PHS_LOM_CFG_CH i, PHS_LOM_CFG_SEQ i, PHS_LOM_CFG_RC_EN i, PHS_LOM_CFG_VS_EN i]⟩,
  ⟨0x62004, 8, 0x20, 1, 0x0, 0, fun i _ => [PHS_LOM_RC_RC_THR i, PHS_LOM_RC_RC_WIN i, PHS_LOM_RC_RC_N i]⟩,
  ⟨0x62008, 8, 0x20, 1, 0x0, 0, fun i _ => [PHS_LOM_VS_VS_THR i, PHS_LOM_VS_VS_N i, PHS_LOM_VS_VS_HOLD i]⟩,
  ⟨0x6200c, 8, 0x20, 1, 0x0, 0, fun i _ => [PHS_LOM_VMIN_VMIN i]⟩,
  ⟨0x62010, 8, 0x20, 1, 0x0, 0, fun i _ => [PHS_LOM_STAT_RC i, PHS_LOM_STAT_VS i, PHS_LOM_STAT_BLOCKED i, PHS_LOM_STAT_READY i]⟩,
  ⟨0x62014, 8, 0x20, 1, 0x0, 0, fun i _ => [PHS_LOM_VAL_ROCOF i, PHS_LOM_VAL_SHIFT i]⟩,
  ⟨0x62018, 8, 0x20, 1, 0x0, 0, fun i _ => [PHS_LOM_TRIPS_RC i, PHS_LOM_TRIPS_VS i]⟩,
  ⟨0x63000, 16, 0x20, 1, 0x0, 0, fun i _ => [PHS_SSO_CFG_CH i, PHS_SSO_CFG_EN i]⟩,
  ⟨0x63004, 16, 0x20, 1, 0x0, 0, fun i _ => [PHS_SSO_THR_THR i, PHS_SSO_THR_SSO_N i]⟩,
  ⟨0x63008, 16, 0x20, 1, 0x0, 0, fun i _ => [PHS_SSO_F1 i]⟩,
  ⟨0x6300c, 16, 0x20, 1, 0x0, 0, fun i _ => [PHS_SSO_A1 i]⟩,
  ⟨0x63010, 16, 0x20, 1, 0x0, 0, fun i _ => [PHS_SSO_F2 i]⟩,
  ⟨0x63014, 16, 0x20, 1, 0x0, 0, fun i _ => [PHS_SSO_A2 i]⟩,
  ⟨0x63018, 16, 0x20, 1, 0x0, 0, fun i _ => [PHS_SSO_STAT_FLAG i, PHS_SSO_STAT_READY i]⟩]

def regsPHS : List RegDesc := regsPHS0

def regsCCD0 : List RegDesc := [
  ⟨0x70000, 1, 0x0, 1, 0x0, 0, fun _ _ => [CCD_CFG_FSYS, CCD_CFG_RATE]⟩,
  ⟨0x70004, 1, 0x0, 1, 0x0, 0, fun _ _ => [CCD_TBASE_TBASE]⟩,
  ⟨0x70008, 1, 0x0, 1, 0x0, 0, fun _ _ => [CCD_SPEC_DELAY, CCD_SPEC_EN]⟩,
  ⟨0x7000c, 1, 0x0, 1, 0x0, 0, fun _ _ => [CCD_WAIT_WAIT]⟩,
  ⟨0x70010, 1, 0x0, 1, 0x0, 0, fun _ _ => [CCD_HZN_WARN]⟩,
  ⟨0x70014, 1, 0x0, 1, 0x0, 0, fun _ _ => [CCD_MISS_EV_RUN]⟩,
  ⟨0x70024, 7, 0x4, 1, 0x0, 0, fun i _ => [CCD_QC_QPCT (i + 1), CCD_QC_LASTPRES (i + 1)]⟩,
  ⟨0x70040, 1, 0x0, 1, 0x0, 0, fun _ _ => [CCD_LANES_COUNT, CCD_LANES_FENCED]⟩,
  ⟨0x70044, 1, 0x0, 1, 0x0, 0, fun _ _ => [CCD_STAT_OPEN, CCD_STAT_HELD, CCD_STAT_INQUORATE, CCD_STAT_RATE_ACT, CCD_STAT_FSYS_ACT]⟩,
  ⟨0x70048, 1, 0x0, 1, 0x0, 0, fun _ _ => [CCD_NEXT_SERIAL_SERIAL]⟩,
  ⟨0x7004c, 1, 0x0, 1, 0x0, 0, fun _ _ => [CCD_LAST_SERIAL_SERIAL]⟩,
  ⟨0x70050, 1, 0x0, 1, 0x0, 0, fun _ _ => [CCD_DIR_SEL_POS]⟩,
  ⟨0x70060, 1, 0x0, 1, 0x0, 0, fun _ _ => [CCD_OPENED_COUNT]⟩,
  ⟨0x70064, 1, 0x0, 1, 0x0, 0, fun _ _ => [CCD_COMMITTED_COUNT]⟩,
  ⟨0x70068, 1, 0x0, 1, 0x0, 0, fun _ _ => [CCD_ABORTED_COUNT]⟩,
  ⟨0x7006c, 1, 0x0, 1, 0x0, 0, fun _ _ => [CCD_SKIPPED_COUNT]⟩,
  ⟨0x70070, 1, 0x0, 1, 0x0, 0, fun _ _ => [CCD_DEFERRED_COUNT]⟩,
  ⟨0x70074, 1, 0x0, 1, 0x0, 0, fun _ _ => [CCD_POSTCOMMIT_COUNT]⟩,
  ⟨0x70078, 1, 0x0, 1, 0x0, 0, fun _ _ => [CCD_DEADFR_COUNT]⟩,
  ⟨0x7007c, 1, 0x0, 1, 0x0, 0, fun _ _ => [CCD_INQUORATE_COUNT]⟩,
  ⟨0x70080, 1, 0x0, 1, 0x0, 0, fun _ _ => [CCD_HZN_MAX_US]⟩,
  ⟨0x70084, 1, 0x0, 1, 0x0, 0, fun _ _ => [CCD_SECDED_COUNT]⟩,
  ⟨0x70088, 1, 0x0, 1, 0x0, 0, fun _ _ => [CCD_UNEXP_COUNT]⟩,
  ⟨0x70100, 1, 0x0, 1, 0x0, 0, fun _ _ => [CCD_CATCHUP_PCT]⟩]

def regsCCD1 : List RegDesc := [
  ⟨0x70104, 1, 0x0, 1, 0x0, 0, fun _ _ => [CCD_SPECSTAT_INFLIGHT, CCD_SPECSTAT_CATCHUP, CCD_SPECSTAT_SBUSY, CCD_SPECSTAT_IBUSY, CCD_SPECSTAT_NOSPILL]⟩,
  ⟨0x70108, 1, 0x0, 1, 0x0, 0, fun _ _ => [CCD_LAG_US]⟩,
  ⟨0x7010c, 1, 0x0, 1, 0x0, 0, fun _ _ => [CCD_LAG_MAX_US]⟩,
  ⟨0x70110, 1, 0x0, 1, 0x0, 0, fun _ _ => [CCD_INFL_MAX_MAX]⟩,
  ⟨0x70114, 1, 0x0, 1, 0x0, 0, fun _ _ => [CCD_CKPT_SIZE_BYTES]⟩,
  ⟨0x70118, 1, 0x0, 1, 0x0, 0, fun _ _ => [CCD_MSG_SEQ_SEQ]⟩,
  ⟨0x70120, 1, 0x0, 1, 0x0, 0, fun _ _ => [CCD_SPECCNT_COUNT]⟩,
  ⟨0x70124, 1, 0x0, 1, 0x0, 0, fun _ _ => [CCD_REEVAL_COUNT]⟩,
  ⟨0x70128, 1, 0x0, 1, 0x0, 0, fun _ _ => [CCD_REVPUB_COUNT]⟩,
  ⟨0x7012c, 1, 0x0, 1, 0x0, 0, fun _ _ => [CCD_SAME_COUNT]⟩,
  ⟨0x70130, 1, 0x0, 1, 0x0, 0, fun _ _ => [CCD_DIRTYCNT_COUNT]⟩,
  ⟨0x70134, 1, 0x0, 1, 0x0, 0, fun _ _ => [CCD_REVFULL_COUNT]⟩,
  ⟨0x70138, 1, 0x0, 1, 0x0, 0, fun _ _ => [CCD_CONFIRMS_COUNT]⟩,
  ⟨0x7013c, 1, 0x0, 1, 0x0, 0, fun _ _ => [CCD_RETRACTS_COUNT]⟩,
  ⟨0x70140, 1, 0x0, 1, 0x0, 0, fun _ _ => [CCD_NOREPLAY_COUNT]⟩,
  ⟨0x70144, 1, 0x0, 1, 0x0, 0, fun _ _ => [CCD_NOSPECRUN_COUNT]⟩,
  ⟨0x70148, 1, 0x0, 1, 0x0, 0, fun _ _ => [CCD_CKPT_ERR_COUNT]⟩,
  ⟨0x7014c, 1, 0x0, 1, 0x0, 0, fun _ _ => [CCD_GENMERGE_COUNT]⟩,
  ⟨0x71000, 20, 0x4, 1, 0x0, 0, fun i _ => [CCD_DIR_HDR_W i]⟩,
  ⟨0x72000, 2048, 0x4, 1, 0x0, 0, fun i _ => [CCD_DIR_COL_H0 i, CCD_DIR_COL_H1 i]⟩]

def regsCCD : List RegDesc := regsCCD0 ++ regsCCD1

def regsANA0 : List RegDesc := [
  ⟨0x80000, 1, 0x0, 1, 0x0, 0, fun _ _ => [ANA_CFG_EN]⟩,
  ⟨0x80004, 1, 0x0, 1, 0x0, 0, fun _ _ => [ANA_REF_REFNODE, ANA_REF_REFGROUP]⟩,
  ⟨0x80008, 1, 0x0, 1, 0x0, 0, fun _ _ => [ANA_ROOT_ROOT_N]⟩,
  ⟨0x8000c, 1, 0x0, 1, 0x0, 0, fun _ _ => [ANA_MODE_FMIN, ANA_MODE_FMAX]⟩,
  ⟨0x80010, 1, 0x0, 1, 0x0, 0, fun _ _ => [ANA_MODE2_ZMAX]⟩,
  ⟨0x80014, 1, 0x0, 1, 0x0, 0, fun _ _ => [ANA_FO_FO_ZETA, ANA_FO_FO_K, ANA_FO_FO_DF]⟩,
  ⟨0x80018, 1, 0x0, 1, 0x0, 0, fun _ _ => [ANA_RLS_PINIT_PINIT]⟩,
  ⟨0x8001c, 1, 0x0, 1, 0x0, 0, fun _ _ => [ANA_RLS_PMAX_PMAX]⟩,
  ⟨0x80024, 1, 0x0, 1, 0x0, 0, fun _ _ => [ANA_EVAL_S_US]⟩,
  ⟨0x80028, 1, 0x0, 1, 0x0, 0, fun _ _ => [ANA_EVAL_I_US]⟩,
  ⟨0x8002c, 1, 0x0, 1, 0x0, 0, fun _ _ => [ANA_EVAL_S_MAX_US]⟩,
  ⟨0x80030, 1, 0x0, 1, 0x0, 0, fun _ _ => [ANA_EVAL_I_MAX_US]⟩,
  ⟨0x80034, 1, 0x0, 1, 0x0, 0, fun _ _ => [ANA_ISL_CNT_COUNT, ANA_ISL_CNT_OVF]⟩,
  ⟨0x80038, 1, 0x0, 1, 0x0, 0, fun _ _ => [ANA_ALM_ACK_DEF]⟩,
  ⟨0x8003c, 1, 0x0, 1, 0x0, 0, fun _ _ => [ANA_PIN_STATE_LOGIC, ANA_PIN_STATE_DRIVEN]⟩,
  ⟨0x80040, 1, 0x0, 1, 0x0, 0, fun _ _ => [ANA_NUMERR_COUNT]⟩,
  ⟨0x80044, 1, 0x0, 1, 0x0, 0, fun _ _ => [ANA_RISES_COUNT]⟩,
  ⟨0x80048, 1, 0x0, 1, 0x0, 0, fun _ _ => [ANA_FALLS_COUNT]⟩,
  ⟨0x8004c, 1, 0x0, 1, 0x0, 0, fun _ _ => [ANA_RESETS_COUNT]⟩,
  ⟨0x80100, 16, 0x4, 1, 0x0, 0, fun i _ => [ANA_BAND_FL i, ANA_BAND_FH i]⟩,
  ⟨0x80200, 16, 0x4, 1, 0x0, 0, fun i _ => [ANA_PIN_CFG_POL i, ANA_PIN_CFG_OD i, ANA_PIN_CFG_HOLD i, ANA_PIN_CFG_FORCE i, ANA_PIN_CFG_FVAL i]⟩,
  ⟨0x80300, 64, 0x4, 1, 0x0, 0, fun i _ => [ANA_MS_CFG_REF i, ANA_MS_CFG_EN i, ANA_MS_CFG_MS_DF i]⟩,
  ⟨0x80400, 32, 0x20, 1, 0x0, 0, fun i _ => [ANA_GRP_CFG_FSPLIT i, ANA_GRP_CFG_SLIP i]⟩,
  ⟨0x80404, 32, 0x20, 1, 0x0, 0, fun i _ => [ANA_GRP_CFG2_DUR i, ANA_GRP_CFG2_SLIP_SH i, ANA_GRP_CFG2_GMIN i]⟩]

def regsANA1 : List RegDesc := [
  ⟨0x80408, 32, 0x20, 1, 0x0, 0, fun i _ => [ANA_GRP_F i]⟩,
  ⟨0x8040c, 32, 0x20, 1, 0x0, 0, fun i _ => [ANA_GRP_SPLIT i]⟩,
  ⟨0x80410, 32, 0x20, 1, 0x0, 0, fun i _ => [ANA_GRP_SLIPR i]⟩,
  ⟨0x80414, 32, 0x20, 1, 0x0, 0, fun i _ => [ANA_GRP_STAT_DIV i, ANA_GRP_STAT_MISSING i, ANA_GRP_STAT_PRESENT i]⟩,
  ⟨0x80800, 64, 0x10, 1, 0x0, 0, fun i _ => [ANA_ISL_W0_LOW i, ANA_ISL_W0_NODES i]⟩,
  ⟨0x80804, 64, 0x10, 1, 0x0, 0, fun i _ => [ANA_ISL_W1_FNODES i, ANA_ISL_W1_DEAD i]⟩,
  ⟨0x80808, 64, 0x10, 1, 0x0, 0, fun i _ => [ANA_ISL_W2_MEAN i]⟩,
  ⟨0x8080c, 64, 0x10, 1, 0x0, 0, fun i _ => [ANA_ISL_W3_SPLIT i]⟩,
  ⟨0x80c00, 64, 0x4, 1, 0x0, 0, fun i _ => [ANA_ALM_ACT_DRIVE i]⟩,
  ⟨0x80d00, 64, 0x4, 1, 0x0, 0, fun i _ => [ANA_ALM_LAT_LATCHED i]⟩]

def regsANA : List RegDesc := regsANA0 ++ regsANA1

def regsSCH0 : List RegDesc := [
  ⟨0x90000, 1, 0x0, 1, 0x0, 0, fun _ _ => [SCH_GRPW_W 0, SCH_GRPW_W 1, SCH_GRPW_W 2, SCH_GRPW_W 3]⟩,
  ⟨0x90004, 1, 0x0, 1, 0x0, 0, fun _ _ => [SCH_GRPW_W 4, SCH_GRPW_W 5, SCH_GRPW_W 6, SCH_GRPW_W 7]⟩,
  ⟨0x90008, 1, 0x0, 1, 0x0, 0, fun _ _ => [SCH_MAP_GRP 1, SCH_MAP_GRP 2, SCH_MAP_GRP 3, SCH_MAP_GRP 4, SCH_MAP_GRP 5, SCH_MAP_GRP 7]⟩,
  ⟨0x9000c, 1, 0x0, 1, 0x0, 0, fun _ _ => [SCH_SHEDOK_OK]⟩,
  ⟨0x90010, 1, 0x0, 1, 0x0, 0, fun _ _ => [SCH_STEST_MS]⟩,
  ⟨0x90014, 1, 0x0, 1, 0x0, 0, fun _ _ => [SCH_STAT_BUSY, SCH_STAT_SHED, SCH_STAT_HOLD, SCH_STAT_LEVEL]⟩,
  ⟨0x90018, 1, 0x0, 1, 0x0, 0, fun _ _ => [SCH_ITEMS_USED, SCH_ITEMS_FW_USED]⟩,
  ⟨0x9001c, 1, 0x0, 1, 0x0, 0, fun _ _ => [SCH_DLY_USED, SCH_DLY_FW_USED]⟩,
  ⟨0x90020, 1, 0x0, 1, 0x0, 0, fun _ _ => [SCH_SUB_W0_TYPE, SCH_SUB_W0_KEY]⟩,
  ⟨0x90024, 1, 0x0, 1, 0x0, 0, fun _ _ => [SCH_SUB_W1_AFTER, SCH_SUB_W1_AGEN, SCH_SUB_W1_AFTER_EN]⟩,
  ⟨0x90028, 1, 0x0, 1, 0x0, 0, fun _ _ => [SCH_SUB_W2_DELAY]⟩,
  ⟨0x9002c, 1, 0x0, 1, 0x0, 0, fun _ _ => [SCH_SUB_W3_JOB]⟩,
  ⟨0x90030, 1, 0x0, 1, 0x0, 0, fun _ _ => [SCH_SUB_CMD_GO]⟩,
  ⟨0x90034, 1, 0x0, 1, 0x0, 0, fun _ _ => [SCH_SUB_STAT_HANDLE, SCH_SUB_STAT_GEN, SCH_SUB_STAT_OK, SCH_SUB_STAT_FULL]⟩,
  ⟨0x90040, 8, 0x4, 1, 0x0, 0, fun i _ => [SCH_DISP_COUNT i]⟩,
  ⟨0x90060, 1, 0x0, 1, 0x0, 0, fun _ _ => [SCH_RETRY_COUNT]⟩,
  ⟨0x90064, 1, 0x0, 1, 0x0, 0, fun _ _ => [SCH_REQUEUE_COUNT]⟩,
  ⟨0x90068, 1, 0x0, 1, 0x0, 0, fun _ _ => [SCH_SHEDDROP_COUNT]⟩,
  ⟨0x9006c, 1, 0x0, 1, 0x0, 0, fun _ _ => [SCH_REFUSED_COUNT]⟩,
  ⟨0x90080, 8, 0x4, 1, 0x0, 0, fun i _ => [SCH_GRP_STAT_READY i, SCH_GRP_STAT_RUN i, SCH_GRP_STAT_SHED i]⟩]

def regsSCH : List RegDesc := regsSCH0

def regsPUB0 : List RegDesc := [
  ⟨0xa0000, 1, 0x0, 1, 0x0, 0, fun _ _ => [PUB_CFG_EN]⟩,
  ⟨0xa0004, 1, 0x0, 1, 0x0, 0, fun _ _ => [PUB_MAXAGE_US]⟩,
  ⟨0xa0008, 1, 0x0, 1, 0x0, 0, fun _ _ => [PUB_TCP_PORT, PUB_TCP_MAXSESS, PUB_TCP_IDLE]⟩,
  ⟨0xa000c, 1, 0x0, 1, 0x0, 0, fun _ _ => [PUB_GATE_DRIVING, PUB_GATE_SESS]⟩,
  ⟨0xa0010, 6, 0x4, 1, 0x0, 0, fun i _ => [PUB_SRCIP_IP i]⟩,
  ⟨0xa0030, 6, 0x4, 1, 0x0, 0, fun i _ => [PUB_QLVL_BYTES i]⟩]

def regsPUB : List RegDesc := regsPUB0

def regsQTY0 : List RegDesc := [
  ⟨0xb0000, 1, 0x0, 1, 0x0, 0, fun _ _ => [QTY_CFG_EN]⟩,
  ⟨0xb0004, 1, 0x0, 1, 0x0, 0, fun _ _ => [QTY_SEAL_SEALED]⟩,
  ⟨0xb0008, 1, 0x0, 1, 0x0, 0, fun _ _ => [QTY_PARAM_PARAMCNT, QTY_PARAM_REGGEN]⟩,
  ⟨0xb000c, 1, 0x0, 1, 0x0, 0, fun _ _ => [QTY_SEAL_VIOL_COUNT]⟩,
  ⟨0xb0010, 1, 0x0, 1, 0x0, 0, fun _ _ => [QTY_SIGN_KEYSLOT, QTY_SIGN_EN]⟩,
  ⟨0xb0014, 1, 0x0, 1, 0x0, 0, fun _ _ => [QTY_SNAP_GO]⟩,
  ⟨0xb0018, 1, 0x0, 1, 0x0, 0, fun _ _ => [QTY_SNAP_STAT_DONE, QTY_SNAP_STAT_EPOCH]⟩,
  ⟨0xb001c, 1, 0x0, 1, 0x0, 0, fun _ _ => [QTY_SNAP_SEC_SEC]⟩,
  ⟨0xb0020, 1, 0x0, 1, 0x0, 0, fun _ _ => [QTY_SNAP_NS_NS]⟩,
  ⟨0xb0028, 1, 0x0, 1, 0x0, 0, fun _ _ => [QTY_MD_RST_POINT]⟩,
  ⟨0xb0030, 1, 0x0, 1, 0x0, 0, fun _ _ => [QTY_REC_STAT_COUNT]⟩,
  ⟨0xb0034, 1, 0x0, 1, 0x0, 0, fun _ _ => [QTY_REC_POP_POP]⟩,
  ⟨0xb0038, 1, 0x0, 1, 0x0, 0, fun _ _ => [QTY_REC_LOST_COUNT]⟩,
  ⟨0xb0040, 1, 0x0, 1, 0x0, 0, fun _ _ => [QTY_RET_STAT_A_OK, QTY_RET_STAT_B_OK, QTY_RET_STAT_AGE]⟩,
  ⟨0xb0044, 1, 0x0, 1, 0x0, 0, fun _ _ => [QTY_SEGCHG_COUNT]⟩,
  ⟨0xb0048, 1, 0x0, 1, 0x0, 0, fun _ _ => [QTY_WRAPS_COUNT]⟩,
  ⟨0xb004c, 1, 0x0, 1, 0x0, 0, fun _ _ => [QTY_FLOW_BAD_COUNT]⟩,
  ⟨0xb0100, 70, 0x4, 1, 0x0, 0, fun i _ => [QTY_REC_W i]⟩,
  ⟨0xb0400, 16, 0x10, 1, 0x0, 0, fun i _ => [QTY_PLS_CFG_EN i, QTY_PLS_CFG_POINT i, QTY_PLS_CFG_REG i, QTY_PLS_CFG_POL i, QTY_PLS_CFG_OD i, QTY_PLS_CFG_WIDTH i]⟩,
  ⟨0xb0404, 16, 0x10, 1, 0x0, 0, fun i _ => [QTY_PLS_QUANT_QUANT i]⟩,
  ⟨0xb0408, 16, 0x10, 1, 0x0, 0, fun i _ => [QTY_PLS_STAT_BACKLOG i]⟩,
  ⟨0xb040c, 16, 0x10, 1, 0x0, 0, fun i _ => [QTY_PLS_SUPP_COUNT i]⟩,
  ⟨0xb1000, 48, 0x80, 8, 0x8, 1, fun i j => [QTY_SE_R_LO_VALUE i j]⟩,
  ⟨0xb1004, 48, 0x80, 8, 0x8, 2, fun i j => [QTY_SE_R_HI_VALUE i j]⟩]

def regsQTY1 : List RegDesc := [
  ⟨0xb1040, 48, 0x80, 4, 0x4, 0, fun i j => [QTY_SE_W_WRAP i j, QTY_SE_W_WRAP1 i j]⟩,
  ⟨0xb3000, 256, 0x40, 4, 0x8, 1, fun i j => [QTY_ST_R_LO_VALUE i j]⟩,
  ⟨0xb3004, 256, 0x40, 4, 0x8, 2, fun i j => [QTY_ST_R_HI_VALUE i j]⟩,
  ⟨0xb3020, 256, 0x40, 2, 0x4, 0, fun i j => [QTY_ST_W_WRAP i j, QTY_ST_W_WRAP1 i j]⟩,
  ⟨0xb8000, 192, 0x80, 7, 0x4, 0, fun i j => [QTY_COR_B_BOUND i (j + 1)]⟩,
  ⟨0xb8020, 192, 0x80, 8, 0x4, 0, fun i j => [QTY_COR_G_GAIN i j]⟩,
  ⟨0xb8040, 192, 0x80, 8, 0x4, 0, fun i j => [QTY_COR_P_PHASE i j]⟩]

def regsQTY : List RegDesc := regsQTY0 ++ regsQTY1

def regsCAP0 : List RegDesc := [
  ⟨0xc0000, 1, 0x0, 1, 0x0, 0, fun _ _ => [CAP_CFG_MODE, CAP_CFG_OVERRUN, CAP_CFG_LEVEL, CAP_CFG_CODE_EN, CAP_CFG_STI_EN, CAP_CFG_BLK_INST]⟩,
  ⟨0xc0004, 6, 0x4, 1, 0x0, 0, fun i _ => [CAP_CHMASK_MASK i]⟩,
  ⟨0xc001c, 1, 0x0, 1, 0x0, 0, fun _ _ => [CAP_PRE_PRE]⟩,
  ⟨0xc0020, 1, 0x0, 1, 0x0, 0, fun _ _ => [CAP_POST_POST]⟩,
  ⟨0xc0024, 1, 0x0, 1, 0x0, 0, fun _ _ => [CAP_CAPACITY_INST]⟩,
  ⟨0xc0028, 1, 0x0, 1, 0x0, 0, fun _ _ => [CAP_STAT_RUN, CAP_STAT_CLAMPED, CAP_STAT_BLOCKED, CAP_STAT_FILLING, CAP_STAT_CAPTS]⟩,
  ⟨0xc002c, 1, 0x0, 1, 0x0, 0, fun _ _ => [CAP_REL_CAPT]⟩,
  ⟨0xc0040, 16, 0x4, 1, 0x0, 0, fun i _ => [CAP_TRIG_CFG_EN i, CAP_TRIG_CFG_SRC i, CAP_TRIG_CFG_INDEX i, CAP_TRIG_CFG_SUB i, CAP_TRIG_CFG_EDGE i]⟩,
  ⟨0xc0080, 1, 0x0, 1, 0x0, 0, fun _ _ => [CAP_TRIG_MAN_FIRE]⟩,
  ⟨0xc0084, 1, 0x0, 1, 0x0, 0, fun _ _ => [CAP_NET_PORT]⟩,
  ⟨0xc0088, 1, 0x0, 1, 0x0, 0, fun _ _ => [CAP_NET_IP_IP]⟩,
  ⟨0xc008c, 1, 0x0, 1, 0x0, 0, fun _ _ => [CAP_NET_UDP_DST, CAP_NET_UDP_SRC]⟩,
  ⟨0xc0090, 1, 0x0, 1, 0x0, 1, fun _ _ => [CAP_RDPTR_LO_OFS]⟩,
  ⟨0xc0094, 1, 0x0, 1, 0x0, 2, fun _ _ => [CAP_RDPTR_HI_OFS]⟩,
  ⟨0xc0098, 1, 0x0, 1, 0x0, 1, fun _ _ => [CAP_WRPTR_LO_OFS]⟩,
  ⟨0xc009c, 1, 0x0, 1, 0x0, 2, fun _ _ => [CAP_WRPTR_HI_OFS]⟩,
  ⟨0xc00a0, 1, 0x0, 1, 0x0, 0, fun _ _ => [CAP_BSEQ_SEQ]⟩,
  ⟨0xc00b0, 1, 0x0, 1, 0x0, 0, fun _ _ => [CAP_TRIGS_COUNT]⟩,
  ⟨0xc00b4, 1, 0x0, 1, 0x0, 0, fun _ _ => [CAP_MISSED_COUNT]⟩,
  ⟨0xc00b8, 1, 0x0, 1, 0x0, 0, fun _ _ => [CAP_DEADTIME_US]⟩,
  ⟨0xc00bc, 1, 0x0, 1, 0x0, 0, fun _ _ => [CAP_LOSTREC_COUNT]⟩,
  ⟨0xc00c0, 1, 0x0, 1, 0x0, 0, fun _ _ => [CAP_NETDROP_COUNT]⟩,
  ⟨0xc0100, 1, 0x0, 1, 0x0, 0, fun _ _ => [CAP_PART_CAP_MIB]⟩,
  ⟨0xc0104, 1, 0x0, 1, 0x0, 0, fun _ _ => [CAP_PART_ARC_MIB]⟩]

def regsCAP1 : List RegDesc := [
  ⟨0xc0108, 8, 0x4, 1, 0x0, 0, fun i _ => [CAP_PART_WA_MIB i]⟩,
  ⟨0xc0200, 1, 0x0, 1, 0x0, 0, fun _ _ => [ARC_CFG_EN, ARC_CFG_LEVEL, ARC_CFG_CODE_EN, ARC_CFG_LATE_EN, ARC_CFG_QTY_EN]⟩,
  ⟨0xc0204, 1, 0x0, 1, 0x0, 0, fun _ _ => [ARC_NEWEST_OFS]⟩,
  ⟨0xc0208, 1, 0x0, 1, 0x0, 0, fun _ _ => [ARC_OLDEST_OFS]⟩,
  ⟨0xc020c, 1, 0x0, 1, 0x0, 0, fun _ _ => [ARC_NEWSEQ_ASEQ]⟩,
  ⟨0xc0210, 1, 0x0, 1, 0x0, 0, fun _ _ => [ARC_FIND_SERIAL]⟩,
  ⟨0xc0214, 1, 0x0, 1, 0x0, 0, fun _ _ => [ARC_FIND_STAT_BUSY, ARC_FIND_STAT_FOUND]⟩,
  ⟨0xc0218, 1, 0x0, 1, 0x0, 0, fun _ _ => [ARC_FIND_OFS_OFS]⟩,
  ⟨0xc0220, 1, 0x0, 1, 0x0, 0, fun _ _ => [ARC_WRITTEN_COUNT]⟩,
  ⟨0xc0224, 1, 0x0, 1, 0x0, 0, fun _ _ => [ARC_SKIPPED_COUNT]⟩,
  ⟨0xc0228, 1, 0x0, 1, 0x0, 1, fun _ _ => [ARC_BYTES_LO_COUNT]⟩,
  ⟨0xc022c, 1, 0x0, 1, 0x0, 2, fun _ _ => [ARC_BYTES_HI_COUNT]⟩,
  ⟨0xc1000, 64, 0x10, 1, 0x0, 0, fun i _ => [CAP_CAPT_W0_STATE i, CAP_CAPT_W0_SHORTPRE i, CAP_CAPT_W0_TRUNC i, CAP_CAPT_W0_TRIG i]⟩,
  ⟨0xc1004, 64, 0x10, 1, 0x0, 0, fun i _ => [CAP_CAPT_W1_START i]⟩,
  ⟨0xc1008, 64, 0x10, 1, 0x0, 0, fun i _ => [CAP_CAPT_W2_MARK i]⟩,
  ⟨0xc100c, 64, 0x10, 1, 0x0, 0, fun i _ => [CAP_CAPT_W3_END i]⟩]

def regsCAP : List RegDesc := regsCAP0 ++ regsCAP1

def regsELS0 : List RegDesc := [
  ⟨0xc8000, 1, 0x0, 1, 0x0, 0, fun _ _ => [ELS_STAT_QUEUE, ELS_STAT_BUSY]⟩,
  ⟨0xc8010, 1, 0x0, 1, 0x0, 0, fun _ _ => [ELS_JOBS_COUNT]⟩,
  ⟨0xc8014, 1, 0x0, 1, 0x0, 0, fun _ _ => [ELS_FAIL_COUNT]⟩,
  ⟨0xc8018, 1, 0x0, 1, 0x0, 0, fun _ _ => [ELS_BYPASS_COUNT]⟩,
  ⟨0xc8020, 1, 0x0, 1, 0x0, 1, fun _ _ => [ELS_IN_LO_COUNT]⟩,
  ⟨0xc8024, 1, 0x0, 1, 0x0, 2, fun _ _ => [ELS_IN_HI_COUNT]⟩,
  ⟨0xc8028, 1, 0x0, 1, 0x0, 1, fun _ _ => [ELS_OUT_LO_COUNT]⟩,
  ⟨0xc802c, 1, 0x0, 1, 0x0, 2, fun _ _ => [ELS_OUT_HI_COUNT]⟩,
  ⟨0xc8100, 2, 0x100, 1, 0x0, 0, fun i _ => [ELS_J_OP_OP i, ELS_J_OP_LEVEL i, ELS_J_OP_SRC_PART i, ELS_J_OP_DST_PART i]⟩,
  ⟨0xc8104, 2, 0x100, 1, 0x0, 0, fun i _ => [ELS_J_LEN_LEN i]⟩,
  ⟨0xc8108, 2, 0x100, 1, 0x0, 1, fun i _ => [ELS_J_SRC_LO_OFS i]⟩,
  ⟨0xc810c, 2, 0x100, 1, 0x0, 2, fun i _ => [ELS_J_SRC_HI_OFS i]⟩,
  ⟨0xc8110, 2, 0x100, 1, 0x0, 1, fun i _ => [ELS_J_DST_LO_OFS i]⟩,
  ⟨0xc8114, 2, 0x100, 1, 0x0, 2, fun i _ => [ELS_J_DST_HI_OFS i]⟩,
  ⟨0xc8118, 2, 0x100, 1, 0x0, 0, fun i _ => [ELS_J_DSTCAP_CAP i]⟩,
  ⟨0xc811c, 2, 0x100, 1, 0x0, 0, fun i _ => [ELS_J_CMD_CMD i]⟩,
  ⟨0xc8120, 2, 0x100, 1, 0x0, 0, fun i _ => [ELS_J_STAT_BUSY i, ELS_J_STAT_DONE i, ELS_J_STAT_PAUSED i, ELS_J_STAT_ERR i]⟩,
  ⟨0xc8124, 2, 0x100, 1, 0x0, 0, fun i _ => [ELS_J_INDONE i]⟩,
  ⟨0xc8128, 2, 0x100, 1, 0x0, 0, fun i _ => [ELS_J_OUTLEN i]⟩,
  ⟨0xc812c, 2, 0x100, 1, 0x0, 0, fun i _ => [ELS_J_CRC i]⟩]

def regsELS : List RegDesc := regsELS0

def regsLOG0 : List RegDesc := [
  ⟨0xd0000, 1, 0x0, 1, 0x0, 0, fun _ _ => [LOG_CFG_RATE_MAX, LOG_CFG_MIR_EN]⟩,
  ⟨0xd0004, 1, 0x0, 1, 0x0, 0, fun _ _ => [LOG_STAT_MEMFAIL, LOG_STAT_MIR_BUSY, LOG_STAT_QFULL]⟩,
  ⟨0xd0008, 1, 0x0, 1, 0x0, 0, fun _ _ => [LOG_OLDEST_SEQ]⟩,
  ⟨0xd000c, 1, 0x0, 1, 0x0, 0, fun _ _ => [LOG_NEWEST_SEQ]⟩,
  ⟨0xd0010, 1, 0x0, 1, 0x0, 0, fun _ _ => [LOG_COUNT_COUNT]⟩,
  ⟨0xd0020, 1, 0x0, 1, 0x0, 0, fun _ _ => [LOG_RD_SEQ_SEQ]⟩,
  ⟨0xd0024, 1, 0x0, 1, 0x0, 0, fun _ _ => [LOG_RD_STAT_RESULT]⟩,
  ⟨0xd0028, 1, 0x0, 1, 0x0, 0, fun _ _ => [LOG_RD_NEXT_GO]⟩,
  ⟨0xd0040, 8, 0x4, 1, 0x0, 0, fun i _ => [LOG_RD_W i]⟩,
  ⟨0xd0060, 16, 0x4, 1, 0x0, 0, fun i _ => [LOG_CRITX_CODE i, LOG_CRITX_EN i]⟩,
  ⟨0xd0100, 1, 0x0, 1, 0x0, 1, fun _ _ => [LOG_CLR_CHAL_LO_CHAL]⟩,
  ⟨0xd0104, 1, 0x0, 1, 0x0, 2, fun _ _ => [LOG_CLR_CHAL_HI_CHAL]⟩,
  ⟨0xd0108, 1, 0x0, 1, 0x0, 0, fun _ _ => [LOG_CLR_KEY_KEYSLOT, LOG_CLR_KEY_SCOPE]⟩,
  ⟨0xd0110, 4, 0x4, 1, 0x0, 0, fun i _ => [LOG_CLR_RESP_RESP i]⟩,
  ⟨0xd0120, 1, 0x0, 1, 0x0, 0, fun _ _ => [LOG_CLR_CMD_GO]⟩,
  ⟨0xd0124, 1, 0x0, 1, 0x0, 0, fun _ _ => [LOG_CLR_STAT_BUSY, LOG_CLR_STAT_OK, LOG_CLR_STAT_FAIL]⟩,
  ⟨0xd0200, 1, 0x0, 1, 0x0, 0, fun _ _ => [LOG_WRITTEN_COUNT]⟩,
  ⟨0xd0204, 1, 0x0, 1, 0x0, 0, fun _ _ => [LOG_SUPPR_COUNT]⟩,
  ⟨0xd0208, 1, 0x0, 1, 0x0, 0, fun _ _ => [LOG_LOST_COUNT]⟩,
  ⟨0xd020c, 1, 0x0, 1, 0x0, 0, fun _ _ => [LOG_MIR_LOST_COUNT]⟩,
  ⟨0xd0210, 1, 0x0, 1, 0x0, 0, fun _ _ => [LOG_CLR_FAIL_COUNT]⟩,
  ⟨0xd0214, 1, 0x0, 1, 0x0, 0, fun _ _ => [LOG_RL_OVF_COUNT]⟩,
  ⟨0xd0300, 1, 0x0, 1, 0x0, 0, fun _ _ => [LOG_OBJ_SEL_OBJ]⟩,
  ⟨0xd0304, 1, 0x0, 1, 0x0, 0, fun _ _ => [LOG_OBJ_CFG_KIND, LOG_OBJ_CFG_QTY, LOG_OBJ_CFG_IDX, LOG_OBJ_CFG_STALE]⟩]

def regsLOG1 : List RegDesc := [
  ⟨0xd0308, 1, 0x0, 1, 0x0, 0, fun _ _ => [LOG_OBJ_LO_LO]⟩,
  ⟨0xd030c, 1, 0x0, 1, 0x0, 0, fun _ _ => [LOG_OBJ_WIDTH_WIDTH]⟩,
  ⟨0xd0400, 36, 0x4, 1, 0x0, 0, fun i _ => [LOG_OBJ_R i]⟩,
  ⟨0xd0500, 1, 0x0, 1, 0x0, 0, fun _ _ => [LOG_LG_SEL_ENTRY]⟩,
  ⟨0xd0504, 1, 0x0, 1, 0x0, 0, fun _ _ => [LOG_LG_HEAD_HEAD]⟩,
  ⟨0xd0508, 1, 0x0, 1, 0x0, 0, fun _ _ => [LOG_LG_STAT_VOTEFAIL]⟩,
  ⟨0xd0520, 8, 0x4, 1, 0x0, 0, fun i _ => [LOG_LG_W i]⟩]

def regsLOG : List RegDesc := regsLOG0 ++ regsLOG1

def regsRED0 : List RegDesc := [
  ⟨0xe0000, 1, 0x0, 1, 0x0, 0, fun _ _ => [RED_CFG_PAIR_EN, RED_CFG_ROLE]⟩,
  ⟨0xe0004, 1, 0x0, 1, 0x0, 0, fun _ _ => [RED_HOLD_HOLDOFF, RED_HOLD_ACK_TMO]⟩,
  ⟨0xe0008, 1, 0x0, 1, 0x0, 0, fun _ _ => [RED_HW0_CLK, RED_HW0_THOLD, RED_HW0_TOTHER, RED_HW0_LANE]⟩,
  ⟨0xe000c, 1, 0x0, 1, 0x0, 0, fun _ _ => [RED_HW1_UE, RED_HW1_TRUNK, RED_HW1_INQ, RED_HW1_LOG]⟩,
  ⟨0xe0010, 1, 0x0, 1, 0x0, 0, fun _ _ => [RED_HW2_SBY, RED_HW2_ACT]⟩,
  ⟨0xe0014, 1, 0x0, 1, 0x0, 0, fun _ _ => [RED_CLAIM_INFORCE, RED_CLAIM_ANNOUNCED]⟩,
  ⟨0xe0018, 1, 0x0, 1, 0x0, 0, fun _ _ => [RED_PARTNER_CLAIM]⟩,
  ⟨0xe001c, 1, 0x0, 1, 0x0, 0, fun _ _ => [RED_HEALTH_SCORE, RED_HEALTH_HELD, RED_HEALTH_COND]⟩,
  ⟨0xe0020, 1, 0x0, 1, 0x0, 0, fun _ _ => [RED_STAT_DRIVING, RED_STAT_LINK, RED_STAT_ONE_LANE, RED_STAT_ACKWAIT, RED_STAT_HOLDOFF, RED_STAT_SETDIFF]⟩,
  ⟨0xe0024, 1, 0x0, 1, 0x0, 0, fun _ _ => [RED_SETCRC_CRC]⟩,
  ⟨0xe0028, 1, 0x0, 1, 0x0, 1, fun _ _ => [RED_PSN_LO_SERIAL]⟩,
  ⟨0xe002c, 1, 0x0, 1, 0x0, 2, fun _ _ => [RED_PSN_HI_SERIAL]⟩,
  ⟨0xe0030, 1, 0x0, 1, 0x0, 0, fun _ _ => [RED_AUDIT_PHASE, RED_AUDIT_EN]⟩,
  ⟨0xe0034, 1, 0x0, 1, 0x0, 0, fun _ _ => [RED_LANE_CMD_LANE, RED_LANE_CMD_UNFENCE]⟩,
  ⟨0xe0040, 8, 0x4, 1, 0x0, 0, fun i _ => [RED_AUD_W i]⟩,
  ⟨0xe0060, 1, 0x0, 1, 0x0, 0, fun _ _ => [RED_UE_MEM_MEM]⟩,
  ⟨0xe0064, 1, 0x0, 1, 0x0, 0, fun _ _ => [RED_VOTE_ADDR_ADDR]⟩,
  ⟨0xe0068, 1, 0x0, 1, 0x0, 1, fun _ _ => [RED_UE_ADDR_LO_ADDR]⟩,
  ⟨0xe006c, 1, 0x0, 1, 0x0, 2, fun _ _ => [RED_UE_ADDR_HI_ADDR]⟩,
  ⟨0xe0080, 1, 0x0, 1, 0x0, 0, fun _ _ => [RED_VOTE_CNT_COUNT]⟩,
  ⟨0xe0084, 1, 0x0, 1, 0x0, 0, fun _ _ => [RED_RES_CNT_COUNT]⟩,
  ⟨0xe0088, 1, 0x0, 1, 0x0, 0, fun _ _ => [RED_FENCES_COUNT]⟩,
  ⟨0xe008c, 1, 0x0, 1, 0x0, 0, fun _ _ => [RED_HO_CNT_COUNT]⟩,
  ⟨0xe0090, 1, 0x0, 1, 0x0, 0, fun _ _ => [RED_ZL_CRCERR_COUNT]⟩]

def regsRED1 : List RegDesc := [
  ⟨0xe0094, 1, 0x0, 1, 0x0, 0, fun _ _ => [RED_AUD_OK_COUNT]⟩,
  ⟨0xe0098, 1, 0x0, 1, 0x0, 0, fun _ _ => [RED_AUD_MIS_COUNT]⟩,
  ⟨0xe009c, 1, 0x0, 1, 0x0, 0, fun _ _ => [RED_AUD_SKIP_COUNT]⟩,
  ⟨0xe0100, 11, 0x8, 1, 0x0, 0, fun i _ => [RED_MEM_CE_COUNT i]⟩,
  ⟨0xe0104, 11, 0x8, 1, 0x0, 0, fun i _ => [RED_MEM_UE_COUNT i]⟩]

def regsRED : List RegDesc := regsRED0 ++ regsRED1

def regsKEY0 : List RegDesc := [
  ⟨0xf0000, 1, 0x0, 1, 0x0, 0, fun _ _ => [KEY_STAT_LC, KEY_STAT_READY, KEY_STAT_DEVKEY, KEY_STAT_OTP_PROG, KEY_STAT_OTP_REV]⟩,
  ⟨0xf0004, 1, 0x0, 1, 0x0, 0, fun _ _ => [KEY_LC_CMD_CODE]⟩,
  ⟨0xf0008, 1, 0x0, 1, 0x0, 1, fun _ _ => [KEY_LC_CHAL_LO_CHAL]⟩,
  ⟨0xf000c, 1, 0x0, 1, 0x0, 2, fun _ _ => [KEY_LC_CHAL_HI_CHAL]⟩,
  ⟨0xf0010, 1, 0x0, 1, 0x0, 0, fun _ _ => [KEY_LC_AUTH_KEYSLOT]⟩,
  ⟨0xf0014, 4, 0x4, 1, 0x0, 0, fun i _ => [KEY_LC_RESP_RESP i]⟩,
  ⟨0xf0024, 1, 0x0, 1, 0x0, 0, fun _ _ => [KEY_OTP_REVOKE_SLOTS]⟩,
  ⟨0xf0040, 1, 0x0, 1, 0x0, 0, fun _ _ => [KEY_LD_SLOT_SLOT]⟩,
  ⟨0xf0044, 1, 0x0, 1, 0x0, 0, fun _ _ => [KEY_LD_ATTR_TYPE, KEY_LD_ATTR_WORLD, KEY_LD_ATTR_MASTERS, KEY_LD_ATTR_LCMASK]⟩,
  ⟨0xf0048, 1, 0x0, 1, 0x0, 0, fun _ _ => [KEY_LD_KCV_KCV]⟩,
  ⟨0xf004c, 1, 0x0, 1, 0x0, 0, fun _ _ => [KEY_LD_KEYID_KEYID]⟩,
  ⟨0xf0050, 1, 0x0, 1, 0x0, 0, fun _ _ => [KEY_LD_OVL_SEC]⟩,
  ⟨0xf0080, 28, 0x4, 1, 0x0, 0, fun i _ => [KEY_LD_MAT_MAT i]⟩,
  ⟨0xf0100, 1, 0x0, 1, 0x0, 0, fun _ _ => [KEY_LD_CMD_CMD]⟩,
  ⟨0xf0104, 1, 0x0, 1, 0x0, 0, fun _ _ => [KEY_LD_STAT_BUSY, KEY_LD_STAT_OK, KEY_LD_STAT_ERR]⟩,
  ⟨0xf0180, 28, 0x4, 1, 0x0, 0, fun i _ => [KEY_WRAP_OUT_BLOB i]⟩,
  ⟨0xf0200, 1, 0x0, 1, 0x0, 0, fun _ _ => [KEY_LOADS_COUNT]⟩,
  ⟨0xf0204, 1, 0x0, 1, 0x0, 0, fun _ _ => [KEY_ERR_COUNT]⟩,
  ⟨0xf0208, 1, 0x0, 1, 0x0, 0, fun _ _ => [KEY_CELL_UE_COUNT]⟩]

def regsKEY : List RegDesc := regsKEY0

def regsFWU0 : List RegDesc := [
  ⟨0xf8000, 1, 0x0, 1, 0x0, 0, fun _ _ => [FWU_STG_CMD_CMD]⟩,
  ⟨0xf8004, 1, 0x0, 1, 0x0, 0, fun _ _ => [FWU_STG_OFS_OFS]⟩,
  ⟨0xf8008, 1, 0x0, 1, 0x0, 0, fun _ _ => [FWU_STG_STAT_BUSY, FWU_STG_STAT_DONE, FWU_STG_STAT_VERIFIED, FWU_STG_STAT_ERR, FWU_STG_STAT_OWNER]⟩,
  ⟨0xf800c, 1, 0x0, 1, 0x0, 0, fun _ _ => [FWU_ACT_CODE]⟩,
  ⟨0xf8010, 1, 0x0, 1, 0x0, 0, fun _ _ => [FWU_CFG_TRIAL_S, FWU_CFG_AUTOCONF]⟩,
  ⟨0xf8014, 1, 0x0, 1, 0x0, 0, fun _ _ => [FWU_CONFIRM_GO]⟩,
  ⟨0xf8018, 1, 0x0, 1, 0x0, 0, fun _ _ => [FWU_STAT_TRIAL, FWU_STAT_STAGED, FWU_STAT_REJECT]⟩,
  ⟨0xf801c, 1, 0x0, 1, 0x0, 0, fun _ _ => [FWU_VER_A_VERSION]⟩,
  ⟨0xf8020, 1, 0x0, 1, 0x0, 0, fun _ _ => [FWU_VER_B_VERSION]⟩,
  ⟨0xf8024, 1, 0x0, 1, 0x0, 0, fun _ _ => [FWU_ROLLBACK_COUNT]⟩,
  ⟨0xf8028, 1, 0x0, 1, 0x0, 0, fun _ _ => [FWU_PAUSE_MS]⟩,
  ⟨0xf802c, 1, 0x0, 1, 0x0, 0, fun _ _ => [FWU_TRIAL_LEFT_SEC]⟩,
  ⟨0xf8100, 64, 0x4, 1, 0x0, 0, fun i _ => [FWU_STG_BUF_DATA i]⟩]

def regsFWU : List RegDesc := regsFWU0

def regsHST0 : List RegDesc := [
  ⟨0x100000, 1, 0x0, 1, 0x0, 0, fun _ _ => [HST_CFG_PORT, HST_CFG_PINS_OFF]⟩,
  ⟨0x100004, 1, 0x0, 1, 0x0, 0, fun _ _ => [HST_STAT_LINK_UP, HST_STAT_WIDTH, HST_STAT_SPEED]⟩,
  ⟨0x100020, 1, 0x0, 1, 0x0, 0, fun _ _ => [HST_DP_SEL_PART]⟩,
  ⟨0x100024, 1, 0x0, 1, 0x0, 0, fun _ _ => [HST_DP_CTRL_PAIR, HST_DP_CTRL_BLEN]⟩,
  ⟨0x100028, 1, 0x0, 1, 0x0, 0, fun _ _ => [HST_DP_CMD_OP]⟩,
  ⟨0x10002c, 1, 0x0, 1, 0x0, 0, fun _ _ => [HST_DP_STAT_BUSY, HST_DP_STAT_READY, HST_DP_STAT_RANGE, HST_DP_STAT_DENIED, HST_DP_STAT_ECC]⟩,
  ⟨0x100030, 1, 0x0, 1, 0x0, 1, fun _ _ => [HST_DP_ADDR_LO_ADDR]⟩,
  ⟨0x100034, 1, 0x0, 1, 0x0, 2, fun _ _ => [HST_DP_ADDR_HI_ADDR]⟩,
  ⟨0x100038, 1, 0x0, 1, 0x0, 0, fun _ _ => [HST_DP_DATA_DATA]⟩]

def regsHST : List RegDesc := regsHST0

/-- The four common registers of block `b` (R25). -/
def regsCommon (b : Nat) : List RegDesc := [
  ⟨blkBase b + blkSize b - 16, 1, 0, 1, 0, 0, fun _ _ => [BLK_CLR_CLRCNT b]⟩,
  ⟨blkBase b + blkSize b - 12, 1, 0, 1, 0, 0, fun _ _ => [BLK_LOCK_LOCK b]⟩,
  ⟨blkBase b + blkSize b - 8, 1, 0, 1, 0, 0, fun _ _ => [BLK_IRQ_EN_EN b]⟩,
  ⟨blkBase b + blkSize b - 4, 1, 0, 1, 0, 0, fun _ _ => [BLK_IRQ_STAT_STAT b]⟩]

/-- The two table ports of block `b` (R27). -/
def regsPort (b h : Nat) : List RegDesc := [
  ⟨tpOfs b h, 64, 4, 1, 0, 0, fun i _ => [TP_BUF b h i]⟩,
  ⟨tpOfs b h + 0x100, 1, 0, 1, 0, 0, fun _ _ => [TP_IDX_ENTRY b h, TP_IDX_TABLE b h]⟩,
  ⟨tpOfs b h + 0x104, 1, 0, 1, 0, 0, fun _ _ => [TP_CMD_OP b h]⟩,
  ⟨tpOfs b h + 0x108, 1, 0, 1, 0, 0, fun _ _ => [TP_STAT_BUSY b h, TP_STAT_RANGE b h, TP_STAT_DENIED b h, TP_STAT_WORDS b h]⟩]

/-- The blocks that hold tables (the table of R28). -/
def hasTables (b : Nat) : Bool := b == 5 || b == 7 || b == 9 || b == 11 || b == 12 || b == 17

/-- The chapter registers of block `b`. -/
def regsOwn (b : Nat) : List RegDesc :=
  match b with
  | 0 => regsSYS
  | 1 => regsCLK
  | 2 => regsPWR
  | 3 => regsTNS
  | 4 => regsNET
  | 5 => regsING
  | 6 => regsACQ
  | 7 => regsPHS
  | 8 => regsCCD
  | 9 => regsANA
  | 10 => regsSCH
  | 11 => regsPUB
  | 12 => regsQTY
  | 13 => regsCAP
  | 14 => regsELS
  | 15 => regsLOG
  | 16 => regsRED
  | 17 => regsKEY
  | 18 => regsFWU
  | 19 => regsHST
  | _ => []

/-- Every register of block `b`. -/
def regsOf (b : Nat) : List RegDesc :=
  regsOwn b ++ regsCommon b ++ (if hasTables b then regsPort b 0 ++ regsPort b 1 else [])

/-! ### Table entries (R28) -/

/-- The fields of word `w` of an entry of ING table 0 (07_parse_ingest.md R131). -/
def tblCTX (e w : Nat) : List Field :=
  match w with
  | 0 => [CTX_EN e, CTX_FORMAT e, CTX_IPANY e, CTX_PORTANY e, CTX_DIV e, CTX_NPMU e, CTX_PAIRED e, CTX_CFGLEARN e, CTX_PARTNER e, CTX_SUBJ_OK e]
  | 1 => [CTX_SRCIP e]
  | 2 => [CTX_UDPPORT e, CTX_IDCODE e]
  | 3 => [CTX_SID e]
  | 4 => [CTX_SVID_LEN e, CTX_KEYSLOT e, CTX_SEC e, CTX_PORTMASK e]
  | 5 => [CTX_PH_BASE e, CTX_PH_CNT e]
  | 6 => [CTX_AN_BASE e, CTX_AN_CNT e]
  | 7 => [CTX_CLAIM e]
  | 8 => [CTX_FMT e 0, CTX_FNOM60 e 0, CTX_PHNMR e 0, CTX_ANNMR e 0, CTX_DGNMR e 0]
  | 9 => [CTX_FMT e 1, CTX_FNOM60 e 1, CTX_PHNMR e 1, CTX_ANNMR e 1, CTX_DGNMR e 1]
  | 10 => [CTX_FMT e 2, CTX_FNOM60 e 2, CTX_PHNMR e 2, CTX_ANNMR e 2, CTX_DGNMR e 2]
  | 11 => [CTX_FMT e 3, CTX_FNOM60 e 3, CTX_PHNMR e 3, CTX_ANNMR e 3, CTX_DGNMR e 3]
  | 12 => [CTX_FMT e 4, CTX_FNOM60 e 4, CTX_PHNMR e 4, CTX_ANNMR e 4, CTX_DGNMR e 4]
  | 13 => [CTX_FMT e 5, CTX_FNOM60 e 5, CTX_PHNMR e 5, CTX_ANNMR e 5, CTX_DGNMR e 5]
  | 14 => [CTX_FMT e 6, CTX_FNOM60 e 6, CTX_PHNMR e 6, CTX_ANNMR e 6, CTX_DGNMR e 6]
  | 15 => [CTX_FMT e 7, CTX_FNOM60 e 7, CTX_PHNMR e 7, CTX_ANNMR e 7, CTX_DGNMR e 7]
  | 16 => [CTX_TIME_BASE e, CTX_DVALID e, CTX_LEARNT e]
  | 17 => [CTX_CFGCNT e, CTX_EXPSIZE e]
  | 18 => [CTX_RX e]
  | 19 => [CTX_LENERR e, CTX_FMTERR e]
  | 20 => [CTX_DUP e, CTX_EARLY e]
  | 21 => [CTX_AUTHERR e, CTX_REPLAY e]
  | 22 => [CTX_PAIRREJ e, CTX_OFFGRID e]
  | 23 => [CTX_STALE e, CTX_TRUNC e]
  | 24 => [CTX_QCLASS e, CTX_ARCH_LATE e]
  | 25 => [CTX_PRESENT e]
  | 26 => [CTX_MISSING e, CTX_LATE e]
  | 27 => [CTX_LASTSTATE e, CTX_LASTOFS e, CTX_MISSRUN e]
  | 28 => [CTX_TOLMAG e, CTX_TOLANG e]
  | 29 => [CTX_TOLF e, CTX_TOLAN e]
  | 30 => [CTX_PRED_MAX e, CTX_PRED_EN e, CTX_DIGDIRTY e, CTX_STATDIRTY e]
  | 31 => [CTX_TESTS e, CTX_DIRTY e]
  | _ => []

/-- The fields of word `w` of an entry of PHS table 0 (09_phasor_estimation.md R172). -/
def tblHSM (e w : Nat) : List Field :=
  match w with
  | 0 => [HSM_EN e, HSM_CLASS e, HSM_DIV e, HSM_COLUMN e, HSM_DIG_EN e, HSM_DIG_BASE e]
  | 1 => [HSM_FCH e, HSM_FSEQ e, HSM_PH_BASE e]
  | 2 => [HSM_AN_BASE e, HSM_NPH e, HSM_NAN e]
  | 3 => [HSM_PHDL e 0, HSM_PHDH e 0]
  | 4 => [HSM_PHDL e 1, HSM_PHDH e 1]
  | 5 => [HSM_PHDL e 2, HSM_PHDH e 2]
  | 6 => [HSM_PHDL e 3, HSM_PHDH e 3]
  | 7 => [HSM_PHDL e 4, HSM_PHDH e 4]
  | 8 => [HSM_PHDL e 5, HSM_PHDH e 5]
  | 9 => [HSM_PHDL e 6, HSM_PHDH e 6]
  | 10 => [HSM_PHDL e 7, HSM_PHDH e 7]
  | 11 => [HSM_SSOMASK e]
  | 12 => [HSM_LASTSTAT e]
  | _ => []

/-- The fields of word `w` of an entry of ANA table 0 (12_wide_area_analytics.md R237). -/
def tblDER (e w : Nat) : List Field :=
  match w with
  | 0 => [DER_EN e, DER_KIND e, DER_NEG e, DER_RSH e, DER_MISS e]
  | 1 => [DER_OP e 0]
  | 2 => [DER_OP e 1]
  | 3 => [DER_OP e 2]
  | 4 => [DER_OP e 3]
  | 5 => [DER_K e]
  | 6 => [DER_RE e]
  | 7 => [DER_IM e]
  | _ => []

/-- The fields of word `w` of an entry of ANA table 1 (12_wide_area_analytics.md R241). -/
def tblWAT (e w : Nat) : List Field :=
  match w with
  | 0 => [WAT_EN e, WAT_SRC e, WAT_ORDER e, WAT_ARBAND e, WAT_MSGROUP e]
  | 1 => [WAT_INDEX e]
  | 2 => [WAT_BANDS e, WAT_BAND_EN e, WAT_ESH e]
  | 3 => [WAT_LAMBDA e]
  | 4 => [WAT_SCALE e]
  | 6 => [WAT_READY e, WAT_NMODE e, WAT_CLASS e, WAT_NUPD e]
  | 7 => [WAT_BRMS e 0]
  | 8 => [WAT_BRMS e 1]
  | 9 => [WAT_BRMS e 2]
  | 10 => [WAT_BRMS e 3]
  | 11 => [WAT_MODE e 0]
  | 12 => [WAT_MODE e 1]
  | 13 => [WAT_MODE e 2]
  | 14 => [WAT_MODE e 3]
  | 15 => [WAT_MODE e 4]
  | 16 => [WAT_MODE e 5]
  | 17 => [WAT_MODE e 6]
  | 18 => [WAT_MODE e 7]
  | 19 => [WAT_MODE e 8]
  | 20 => [WAT_MODE e 9]
  | 21 => [WAT_MODE e 10]
  | 22 => [WAT_MODE e 11]
  | 23 => [WAT_MODE e 12]
  | 24 => [WAT_MODE e 13]
  | 25 => [WAT_MODE e 14]
  | 26 => [WAT_MODE e 15]
  | 27 => [WAT_MSMAG e]
  | 28 => [WAT_MSPH e]
  | 29 => [WAT_EXTR e]
  | _ => []

/-- The fields of word `w` of an entry of ANA table 2 (12_wide_area_analytics.md R255). -/
def tblALM (e w : Nat) : List Field :=
  match w with
  | 0 => [ALM_EN e, ALM_SOURCE e, ALM_CMP e, ALM_MOOD e, ALM_QMASK e, ALM_MISS e, ALM_LATCH e, ALM_EV e, ALM_PUB e, ALM_CAP e]
  | 1 => [ALM_INDEX e, ALM_SUB e, ALM_INDEX2 e]
  | 2 => [ALM_THR e]
  | 3 => [ALM_HYST e]
  | 4 => [ALM_PINS e]
  | 5 => [ALM_ON_DUR e, ALM_OFF_DUR e]
  | 6 => [ALM_ACT_I e, ALM_ACT_S e, ALM_LATCHED e, ALM_DRIVE e]
  | 7 => [ALM_VALUE e]
  | _ => []

/-- The fields of word `w` of an entry of ANA table 3 (12_wide_area_analytics.md R250). -/
def tblNOD (e w : Nat) : List Field :=
  match w with
  | 0 => [NOD_EN e, NOD_GROUP e, NOD_GRP_EN e]
  | 1 => [NOD_PH e, NOD_PH_EN e, NOD_FCOL e, NOD_F_EN e]
  | 2 => [NOD_ISLAND e, NOD_FPRES e]
  | 3 => [NOD_RELANG e]
  | _ => []

/-- The fields of word `w` of an entry of ANA table 4 (12_wide_area_analytics.md R251). -/
def tblBRA (e w : Nat) : List Field :=
  match w with
  | 0 => [BRA_EN e, BRA_NODE_A e, BRA_NODE_B e, BRA_SRC e, BRA_UNK e, BRA_INV e]
  | 1 => [BRA_SEL e, BRA_BIT e, BRA_CLOSED e, BRA_UNKNOWN e]
  | _ => []

/-- The fields of word `w` of an entry of PUB table 0 (14_publication.md R276). -/
def tblOST (e w : Nat) : List Field :=
  match w with
  | 0 => [OST_EN e, OST_FORMAT e, OST_MOOD e, OST_DIV e, OST_POLAR e, OST_ALM_EN e, OST_MSG_EN e, OST_AUTOSTART e, OST_PACE_EN e, OST_CODE e, OST_CODE_EN e, OST_PORTMASK e, OST_VLAN_EN e]
  | 1 => [OST_COL_BASE e, OST_COL_CNT e]
  | 2 => [OST_DER_BASE e, OST_DER_CNT e]
  | 3 => [OST_DSTIP e]
  | 4 => [OST_DSTPORT e, OST_SRCPORT e]
  | 5 => [OST_DMACLO e]
  | 6 => [OST_DMACHI e, OST_DMAC_AUTO e]
  | 7 => [OST_TTL e, OST_DSCP e, OST_VID e, OST_PCP e]
  | 8 => [OST_IDCODE e, OST_CFGCNT e]
  | 9 => [OST_SID e]
  | 10 => [OST_KEYSLOT e, OST_SEC e]
  | 11 => [OST_PACE_US e]
  | 12 => [OST_OWNER_IP e]
  | 13 => [OST_OWNER_EN e, OST_TXON e, OST_ACL_LEN e]
  | 14 => [OST_ACL_NET e]
  | 15 => [OST_FRAMESIZE e, OST_PACELATE e]
  | 16 => [OST_NAME e 0]
  | 17 => [OST_NAME e 1]
  | 18 => [OST_NAME e 2]
  | 19 => [OST_NAME e 3]
  | 20 => [OST_NAME e 4]
  | 21 => [OST_NAME e 5]
  | 22 => [OST_NAME e 6]
  | 23 => [OST_NAME e 7]
  | 24 => [OST_NAME e 8]
  | 25 => [OST_NAME e 9]
  | 26 => [OST_NAME e 10]
  | 27 => [OST_NAME e 11]
  | 28 => [OST_NAME e 12]
  | 29 => [OST_NAME e 13]
  | 30 => [OST_NAME e 14]
  | 31 => [OST_NAME e 15]
  | 32 => [OST_NAME e 16]
  | 33 => [OST_NAME e 17]
  | 34 => [OST_NAME e 18]
  | 35 => [OST_NAME e 19]
  | 36 => [OST_NAME e 20]
  | 37 => [OST_NAME e 21]
  | 38 => [OST_NAME e 22]
  | 39 => [OST_NAME e 23]
  | 40 => [OST_NAME e 24]
  | 41 => [OST_NAME e 25]
  | 42 => [OST_NAME e 26]
  | 43 => [OST_NAME e 27]
  | 44 => [OST_NAME e 28]
  | 45 => [OST_NAME e 29]
  | 46 => [OST_NAME e 30]
  | 47 => [OST_NAME e 31]
  | 48 => [OST_NAME e 32]
  | 49 => [OST_SENT e]
  | 50 => [OST_SUPP e]
  | 51 => [OST_STALEDROP e, OST_IDROP e]
  | 52 => [OST_CMD_ON e, OST_CMD_OFF e]
  | 53 => [OST_CONFLICT e, OST_CMD_IGN e]
  | 54 => [OST_CFGREQ e, OST_CODEFALL e]
  | 55 => [OST_SEQ e]
  | _ => []

/-- The fields of word `w` of an entry of QTY table 0 (15_custody_metering.md R288). -/
def tblMPT (e w : Nat) : List Field :=
  match w with
  | 0 => [MPT_EN e, MPT_WIRING e, MPT_DIRINV e, MPT_HOME e, MPT_HOME_EN e]
  | 1 => [MPT_VCH0 e, MPT_VCH1 e, MPT_VCH2 e]
  | 2 => [MPT_ICH0 e, MPT_ICH1 e, MPT_ICH2 e]
  | 3 => [MPT_VPH e, MPT_IPH e]
  | 4 => [MPT_KPLO e]
  | 5 => [MPT_KPHI e]
  | 6 => [MPT_START e]
  | 7 => [MPT_SEGHYST e, MPT_DEMLEN e]
  | 8 => [MPT_VSCALE e]
  | 9 => [MPT_ISCALE e]
  | 10 => [MPT_RUN e, MPT_FALLBACK e, MPT_NOLOAD e, MPT_DIR e, MPT_GAP e]
  | 11 => [MPT_SEG e]
  | 12 => [MPT_VRMS e 0]
  | 13 => [MPT_VRMS e 1]
  | 14 => [MPT_VRMS e 2]
  | 15 => [MPT_IRMS e 0]
  | 16 => [MPT_IRMS e 1]
  | 17 => [MPT_IRMS e 2]
  | 18 => [MPT_P e]
  | 19 => [MPT_Q e]
  | 20 => [MPT_S e]
  | 21 => [MPT_PF e]
  | 22 => [MPT_FREQ e]
  | 23 => [MPT_ANG e 0]
  | 24 => [MPT_ANG e 1]
  | 25 => [MPT_ANG e 2]
  | 26 => [MPT_PSEAL e]
  | 27 => [MPT_MDLO e]
  | 28 => [MPT_MDHI e]
  | 29 => [MPT_MDTIME e]
  | 30 => [MPT_REVCNT e]
  | _ => []

/-- The fields of word `w` of an entry of QTY table 1 (15_custody_metering.md R297). -/
def tblTPT (e w : Nat) : List Field :=
  match w with
  | 0 => [TPT_EN e, TPT_KIND e, TPT_DIRINV e, TPT_PORT e]
  | 1 => [TPT_FLOWID e]
  | 2 => [TPT_SRCIP e]
  | 3 => [TPT_DEMLEN e, TPT_TMO e]
  | 4 => [TPT_LASTSEQ e]
  | 5 => [TPT_RUN e, TPT_FALLBACK e, TPT_DIR e, TPT_STALE e]
  | 6 => [TPT_FLOW e]
  | 7 => [TPT_POWER e]
  | 8 => [TPT_MISSREC e, TPT_DUPREC e]
  | 9 => [TPT_EST e]
  | 10 => [TPT_REVCNT e]
  | 11 => [TPT_PSEAL e]
  | 12 => [TPT_MDLO e]
  | 13 => [TPT_MDHI e]
  | 14 => [TPT_MDTIME e]
  | _ => []

/-- The fields of word `w` of an entry of KEY table 0 (19_security_update.md R368). -/
def tblKSL (e w : Nat) : List Field :=
  match w with
  | 0 => [KSL_STATE e, KSL_OTP e, KSL_REVOKED e, KSL_TYPE e, KSL_WORLD e, KSL_MASTERS e, KSL_LCMASK e]
  | 1 => [KSL_KCV e]
  | 2 => [KSL_PKCV e]
  | 3 => [KSL_KEYID e]
  | 4 => [KSL_PKEYID e]
  | 5 => [KSL_OVL_LEFT e, KSL_USES e]
  | _ => []

/-- Entries and words per entry of table `t` of block `b`; (0, 0) where there is none (R28). -/
def tblSize (b t : Nat) : Nat × Nat :=
  match b, t with
  | 5, 0 => (4096, 32)
  | 7, 0 => (32, 16)
  | 9, 0 => (8192, 8)
  | 9, 1 => (1024, 32)
  | 9, 2 => (2048, 8)
  | 9, 3 => (4096, 4)
  | 9, 4 => (8192, 2)
  | 11, 0 => (64, 64)
  | 12, 0 => (48, 32)
  | 12, 1 => (256, 16)
  | 17, 0 => (64, 6)
  | _, _ => (0, 0)

/-- The fields of word `w` of entry `e` of table `t` of block `b`. -/
def tblFields (b t e w : Nat) : List Field :=
  match b, t with
  | 5, 0 => tblCTX e w
  | 7, 0 => tblHSM e w
  | 9, 0 => tblDER e w
  | 9, 1 => tblWAT e w
  | 9, 2 => tblALM e w
  | 9, 3 => tblNOD e w
  | 9, 4 => tblBRA e w
  | 11, 0 => tblOST e w
  | 12, 0 => tblMPT e w
  | 12, 1 => tblTPT e w
  | 17, 0 => tblKSL e w
  | _, _ => []

end Sys2Proof.Machine
end

