-- ==== Sys2Proof/Machine/State.lean ====
section
/-! DEFINITION. The state of the part: the register file, the memories, the state of each subsystem that its
chapters give it, the queue of waiting commands, and the state after reset. Everything is plain data. -/

namespace Sys2Proof.Machine

/-! ### Start-up and clocks (R49, R65–R85) -/

/-- How far the part has come in the start sequence of R49, or why it is not running. -/
inductive Stage where
  | porst
  | ircStart
  | ircHold
  | strap
  | refDelay
  | window
  | pll
  | run
  | pending
  | hung
  | hibernate
  deriving DecidableEq, Repr

/-- Start sequence, boot and clock state outside the registers. Times named `…At` are of `mono`. `pd0Lost` is set while PD0
has lost its supply since the recorder last ran; `locks` are the blocks whose LOCK the image sets; `sealedOk` the keys of
the fields loaded from SEALED sections that passed; `headerSeq` and `headerCopy` the boot header in use; `hostPort` the
port in use (0 PCIe, 1 QSPI) and `pinsOff` PINS_OFF as this reset found them; `wakeCause` 1 PORST_N, 2 RST_N, 3 RTC, 0 no
wake. `windows` counts good windows in a row; `tripped` from a monitor trip until the reference passes again; `ircFlag`
marks stamps; `swTarget` is the commanded clock change; `pwrFail` masks domains that failed to power; `limitedFrom` is when limited service
began, `resume` the stage that a pending fail-over came from, `strapped` set once the straps of this release are sampled, and `ospiLow` until
when OSPI_RESET_N is pulsed low (R395). -/
structure Boot where
  stage : Stage
  pd0Lost : Bool
  releaseAt : Nat
  step13At : Nat
  ircAttempt : Nat
  limitedAt : Nat
  locks : List Nat
  sealedOk : List Nat
  headerSeq : Nat
  headerCopy : Option Nat
  hostPort : Nat
  pinsOff : Bool
  wakeCause : Nat
  hibAt : Nat
  windows : Nat
  windowIdx : Nat
  windowAt : Nat
  tripAt : Nat
  tripped : Bool
  ircFlag : Bool
  trimFrozen : Bool
  trimAt : Nat
  swTarget : Nat
  xtalOk : Bool
  alarmHeld : Bool
  pwrFail : Nat
  pfailAt : Nat
  limitedFrom : Nat
  resume : Stage
  strapped : Bool
  ospiLow : Nat
  deriving DecidableEq, Repr

/-- The clock gates of R76: masks of the units whose gate is open and of those to be reset as they next open (R77), and when the DRAM
PHY and the host logic last had a request (of `mono`). -/
structure Gates where
  opened : Nat
  reset : Nat
  phyAt : Nat
  hostAt : Nat
  deriving DecidableEq, Repr

/-! ### Settings images (R56–R60) -/

/-- What the images give: values by field key; keys of sealed fields from SEALED sections; items of the loader registers with
whether their section is SEALED; items of the object words; output-stream items with their section type and what they set;
section types of the items on CCD_CFG and CCD_TBASE of this image; that of the last item on CAP_POST, and whether it is clamped;
counts. -/
structure Load where
  vals : RegFile
  good : List Nat
  keys : List (Nat × Nat × Nat × Bool)
  objs : List (Nat × Nat × Nat)
  pubs : List (Nat × Nat × List (Nat × Nat))
  ccd : List (Nat × Nat)
  post : Option Nat
  clamped : Bool
  failsec : Nat
  rej : Nat
  deriving DecidableEq, Repr

/-! ### Register fabric and host port (R22–R47) -/

/-- How an access ended at its master (R34): served; a data-abort exception of the management core; Completer Abort status of a PCIe
read; the ERR bit of the QSPI status; or a posted PCIe write that failed, of which nothing reaches the host. -/
inductive Resp where
  | served
  | dataAbort
  | completerAbort
  | errBit
  | posted
  deriving DecidableEq, Repr

/-- Fabric state outside the registers: the pair shadows of both masters (R31), what each master last read, the ERR bit of the
QSPI status, how each master's last access ended, the IRQ_N and NMI_N lines asserted, the MSI-X messages of
the last command (R41), the held word of a data-port pair (written or read), the burst in progress: its operation (1 read,
2 write) plus 4 × its partition, its first byte and its words (R46, R47). -/
structure Fabric where
  shadow : List (Nat × Nat)
  rdMc : List Nat
  rdHost : List Nat
  qspiErr : Bool
  respMc : Resp
  respHost : Resp
  lines : Nat
  nmi : Bool
  msix : List Nat
  dpHeld : Option (Bool × Nat)
  dpOp : Nat
  dpAddr : Nat
  dpLen : Nat
  deriving DecidableEq, Repr

/-! ### Event recorder (R333–R348) -/

/-- An event on its way to the recorder: the counter and epoch when its source observed it. -/
structure Ev where
  code : Nat
  p0 : Nat
  p1 : Nat
  p2 : Nat
  p3 : Nat
  tai : Nat
  epoch : Nat
  cycle : Nat
  deriving DecidableEq, Repr

/-- An event record (R333). -/
structure Rec where
  seq : Nat
  sec : Nat
  ns : Nat
  crit : Bool
  lg : Bool
  epoch : Nat
  code : Nat
  p0 : Nat
  p1 : Nat
  p2 : Nat
  p3 : Nat
  deriving DecidableEq, Repr

/-- A statistics object (R341, R342). -/
structure StatObj where
  kind : Nat
  qty : Nat
  idx : Nat
  lo : Nat
  width : Nat
  stale : Bool
  res : List Nat
  deriving DecidableEq, Repr

/-- One code counted in the current rate window (R339). -/
structure RateCode where
  code : Nat
  written : Nat
  supp : Nat
  first : Nat
  deriving DecidableEq, Repr

/-- Recorder state outside the registers. `wp` is the slot of the record SRAM the next record takes and `bad` the
slots that read with an uncorrectable error; `lg` is the last-gasp file, each word in three copies (R347), `lgHead`
its next entry, and `deg` the records written since degraded mode began. -/
structure Recorder where
  running : Bool
  inq : List Ev
  waiting : List Ev
  lost : Nat
  lostFirst : Nat
  lostCnt : Nat
  nextSeq : Nat
  ring : List Rec
  wp : Nat
  rates : List RateCode
  rateEnd : Nat
  mirq : List Rec
  mirLost : Nat
  mirLostFirst : Nat
  mirSector : Nat
  mirIndex : Nat
  mirSseq : Nat
  mirOpen : Bool
  bad : List Nat
  testAt : Nat
  passes : Nat
  deg : Nat
  lgHead : Nat
  lg : List (Nat × List (Nat × Nat × Nat))
  objs : List (Nat × StatObj)
  lastCrit : Option Nat
  deriving DecidableEq, Repr

/-! ### Tense (R86–R109) -/

/-- What the servo keeps of one time source (R92, R96): validity, and since when; Announce seen; good messages, frames or
pulses so far, and when the last came; its last measured offset in ns; whether one has been measured, and an increment
of its estimate written into TNS_INC_ALT, since it became valid; increment, stated inaccuracy, filtered offset, peer delay,
grandmaster; of a PTP domain, until when (`mono`) the last Announce, Sync and peer delay keep it valid. -/
structure TSource where
  valid : Bool
  announced : Bool
  good : Nat
  lastAt : Nat
  validAt : Nat
  offset : Int
  measured : Bool
  inc : Nat
  incSet : Bool
  uncert : Nat
  filt : Nat
  peer : Option Nat
  gm : Option Nat
  annDue : Nat
  syncDue : Nat
  peerDue : Nat
  deriving DecidableEq, Repr

/-- An entry of a time-stamp queue (R103). -/
structure TsEntry where
  qseq : Nat
  ptpSeq : Nat
  mtype : Nat
  domain : Nat
  rx : Bool
  irc : Bool
  qual : Nat
  epoch : Nat
  stamp : Nat
  deriving DecidableEq, Repr

/-- The time-stamp queue of a trunk port (R104). -/
structure TsQueue where
  items : List TsEntry
  seq : Nat
  dropped : Bool
  deriving DecidableEq, Repr

/-- A change of what stamps are read from, at `time` of `mono`: the change of the counter, and the epoch, quality, IRC flag and
20 ns resolution of the stamps taken before it (R14, R90). -/
structure TimeMark where
  time : Nat
  change : Int
  epoch : Nat
  qual : Nat
  irc : Bool
  direct : Bool
  deriving DecidableEq, Repr

/-- What the management core's PTP engine keeps of a domain: when it sends next (`mono`), and its next sequenceId (R95, R97). -/
structure PtpTx where
  due : Nat
  seq : Nat
  deriving DecidableEq, Repr

/-- Servo, stamps and pulses outside the registers. Times named `…At` and `…End` are of `mono`. `run` counts updates within
LOCK_THR; `leftAt` is when LOCKED was last left and `holdE` its E; `est` the frequency estimate as an increment; `domAct`
the PTP domain that is not standby; `loHeld` a low word of TNS_INC whose high word has not come; `ppsLast` the edge of the
last accepted pulse (1/16 ns of `mono`); `ppsNext` the second of the next PPS_OUT edge; `leapAt` the TAI second of a pending leap; `marks` the changes of the
last 2 s, newest first, for instants that lie back. -/
structure Tense where
  srcs : List TSource
  run : Nat
  everLocked : Bool
  leftAt : Nat
  holdE : Nat
  est : Nat
  slewEnd : Option Nat
  domAct : Nat
  loHeld : Option Nat
  tsq : List TsQueue
  ppsLast : Option Nat
  ppsActive : Bool
  ppsEnd : Nat
  ppsNext : Nat
  irigLast : Option Nat
  leapAt : Option Nat
  marks : List TimeMark
  ptp : List PtpTx
  deriving DecidableEq, Repr

/-! ### Network ports (R110–R130) -/

/-- A frame in an ingress FIFO: its bytes without FCS, its length with it, its arrival stamp with the epoch and quality,
whether the counter ran on the IRC, its tag's VID and PCP (none if untagged), and its R119 result (R112). -/
structure RxEntry where
  bytes : List Byte
  len : Nat
  stamp : Nat
  epoch : Nat
  qual : Nat
  irc : Bool
  tag : Option Nat
  unchecked : Bool
  deriving DecidableEq, Repr

/-- A frame in a transmit buffer: source 1 PTP, 2 publication, 3 management core (R126); whether the C37.118 CRC is
inserted (R120); the PTP domain whose one-step rule applies (R102). -/
structure TxFrame where
  src : Nat
  bytes : List Byte
  c37 : Bool
  oneStep : Bool
  deriving DecidableEq, Repr

/-- One Ethernet port. Times are of `mono`: `txUntil` is the end of the last frame sent and `idleAt` since when the transmit side is idle,
`busyUntil` the end of what was last heard on the segment of a field port, `flushAt` when the flush in progress was written; `fell` is set
while a PLCA follower has fallen back, and `burst` counts the extra frames of the present transmit opportunity (R125–R129). -/
structure Port where
  fifo : List RxEntry
  tx : List TxFrame
  held : List TxFrame
  lastSent : List Byte
  lastStamp : Nat
  txUntil : Nat
  pause : Option (Nat × Nat)
  cols : Nat
  backoffUntil : Nat
  lastBeacon : Nat
  plcaLostAt : Nat
  stranger : Bool
  flushFrames : Nat
  idleAt : Nat
  busyUntil : Nat
  flushAt : Nat
  fell : Bool
  burst : Nat
  deriving DecidableEq, Repr

/-! ### Redundancy and integrity (R349–R364) -/

/-- An audit on the standby (R357, R358): the item that recomputes it, the snapshot, whether the slot digests differed, the
digest of the first run, and the lanes used. -/
structure Audit where
  handle : Nat
  bytes : List Byte
  align : Bool
  first : Option (List Byte)
  lanes : Nat
  deriving DecidableEq, Repr

/-- Pairing and integrity state outside the registers. `audSlots` are serials found to be audit slots at their freeze,
`audBufs` those with a buffer on the active unit, `audits` those being recomputed here; `cellOut` is the control cell last
sent, `ackOut` the claim to acknowledge in the next, `decOut` the pair decisions still to send (R144); `live` once the
outputs are out of their reset states (R390). -/
structure Redund where
  goodCells : Nat
  lastCellAt : Nat
  laneBad : Nat
  holdAt : Option Nat
  ackAt : Option Nat
  partnerCrc : Nat
  ueAt : Option Nat
  suspSbyAt : Option Nat
  suspActAt : Option Nat
  auditSeq : Nat
  audSlots : List Nat
  audBufs : List Nat
  audits : List Audit
  cellOut : List Nat
  ackOut : Option Nat
  decOut : List (Nat × Nat)
  live : Bool
  deriving DecidableEq, Repr

/-! ### Slots (R183–R233) -/

/-- A column of an open or committed slot, as directory entry and slot store hold it (R186, R188): presence state,
flags, offset, arrival stamp in 1/16 ns, digital, STAT, frequency and ROCOF words, the context that filled it, the
revision of a subjunctive Lammar frame placed, and whether its entries hold an uncorrectable error (R206). -/
structure Col where
  st : Nat
  irc : Bool
  pred : Bool
  early : Bool
  ofs : Nat
  stamp : Nat
  dig : Nat
  stat : Nat
  fq : Nat
  rc : Nat
  ctx : Nat
  rev : Nat
  ue : Bool
  deriving DecidableEq, Repr

/-- A phasor entry: the column that placed it, real and imaginary part. -/
structure PhEnt where
  col : Nat
  re : Nat
  im : Nat
  deriving DecidableEq, Repr

/-- An analogue entry: the column that placed it and its value. -/
structure AnEnt where
  col : Nat
  v : Nat
  deriving DecidableEq, Repr

/-- One column of a frame ready for placement: kind 0 measured, 1 predicted by the source, 2 missing by the source;
slot time in ns; stamp in 1/16 ns; what it fills. `home` is set for a home stream. `first` marks the first column of its frame, for which the
frame is counted, with the phasors and analogues of the frame that its allocation has no place for; `qual` is the quality of the stamp. -/
structure Place where
  col : Nat
  ctx : Nat
  home : Bool
  kind : Nat
  rev : Nat
  t : Nat
  stamp : Nat
  epoch : Nat
  irc : Bool
  early : Bool
  dig : Nat
  stat : Nat
  fq : Nat
  rc : Nat
  ph : List (Nat × PhEnt)
  an : List (Nat × AnEnt)
  first : Bool
  lostPh : Nat
  lostAn : Nat
  qual : Nat
  deriving DecidableEq, Repr

/-- A column as an evaluation is shown it (R210): mood 0 missing, 1 predicted, 2 measured, 3 not expected; its STATE. -/
structure ViewCol where
  mood : Nat
  st : Nat
  pred : Bool
  dig : Nat
  stat : Nat
  fq : Nat
  rc : Nat
  deriving DecidableEq, Repr

/-- What an evaluation is shown: columns, phasor entries and analogue entries. -/
structure View where
  cols : List (Nat × ViewCol)
  ph : List (Nat × PhEnt)
  an : List (Nat × AnEnt)
  deriving DecidableEq, Repr

/-! ### Analytic state and results (R219, R234) -/

/-- A derived signal's state (R239): last wrapped angle, its slot time in ns, and rate. -/
structure DerState where
  ang : Nat
  t : Nat
  rate : Nat
  deriving DecidableEq, Repr

/-- A derived signal's result: kind 0 not expected, 1 missing, 2 predicted, 3 measured (R238); the DIV of the grid on
which all its operands report. -/
structure DerRes where
  kind : Nat
  div : Nat
  re : Nat
  im : Nat
  deriving DecidableEq, Repr

/-- A mode of a watch signal (R246–R248); `cls` is its CLASS code. -/
structure ModeRep where
  f : Nat
  zeta : Nat
  amp : Nat
  phase : Nat
  cls : Nat
  deriving DecidableEq, Repr

/-- A band channel's filter and energy state (R243). -/
structure BandState where
  s1 : Nat
  s2 : Nat
  e : Nat
  deriving DecidableEq, Repr

/-- A watch signal's state (R243–R249). -/
structure WatState where
  bands : List BandState
  theta : List Nat
  pmat : List Nat
  phi : List Nat
  nupd : Nat
  miss : Nat
  modes : List ModeRep
  hist : List (List ModeRep)
  extr : Nat
  msMag : Nat
  msPh : Nat
  deriving DecidableEq, Repr

/-- An alarm definition's state (R219, R257): active, the counts of both timers, the latch as the chain's own rises set it, last value. -/
structure AlmState where
  act : Bool
  on : Nat
  off : Nat
  latch : Bool
  val : Nat
  deriving DecidableEq, Repr

/-- A coherent group's state (R254). -/
structure GrpState where
  theta : Option Nat
  dlt : Option (Nat × Nat)
  sigma : Nat
  on : Nat
  off : Nat
  div : Bool
  deriving DecidableEq, Repr

/-- The analytic state that an evaluation carries to the next slot, with the values it was made under (R209, R263). -/
structure AnaState where
  der : List (Nat × DerState)
  wat : List (Nat × WatState)
  alm : List (Nat × AlmState)
  node : List (Nat × Nat)
  branch : List (Nat × Bool)
  grp : List (Nat × GrpState)
  vals : RegFile
  deriving DecidableEq, Repr

/-- An island report (R253). -/
structure IslRes where
  low : Nat
  nodes : Nat
  fnodes : Nat
  mean : Nat
  split : Nat
  deriving DecidableEq, Repr

/-- A group report (R254): its mood as for a derived signal. -/
structure GrpRes where
  kind : Nat
  f : Nat
  split : Nat
  sigma : Nat
  div : Bool
  missing : Bool
  present : Nat
  deriving DecidableEq, Repr

/-- An alarm definition's result: state, and how it came (0 not evaluated or withheld, 1 missing value, 2 predicted,
3 measured), and its value. -/
structure AlmRes where
  act : Bool
  how : Nat
  val : Nat
  deriving DecidableEq, Repr

/-- The results of an evaluation. -/
structure Res where
  der : List (Nat × DerRes)
  brms : List (Nat × List Nat)
  islCnt : Nat
  isls : List IslRes
  nodeIsl : List (Nat × Nat)
  nodeF : List Nat
  rel : List (Nat × Nat)
  branch : List (Nat × Bool × Bool)
  grp : List (Nat × GrpRes)
  alm : List (Nat × AlmRes)
  withheld : List Nat
  numerr : Nat
  resets : List (Nat × Nat)
  readied : List Nat
  extracted : List Nat
  classed : List (Nat × Nat × ModeRep)
  /-- Mode reports: those of the newest indicative extraction (R234). -/
  modes : List (Nat × List ModeRep)
  deriving DecidableEq, Repr

/-- A checkpoint (R219–R221): serial, chain (0 S, 1 I), revision, epoch, value generation, CRC of the body, state, and whether it lies in
DRAM. -/
structure Ckpt where
  serial : Nat
  chain : Nat
  rev : Nat
  epoch : Nat
  gen : Nat
  crc : Nat
  st : AnaState
  dram : Bool
  deriving DecidableEq, Repr

/-- A running evaluation: kind 0 speculation, 1 re-evaluation, 2 indicative, 3 indicative again without publication
(R222); what it is shown, where it starts from, and when its first job was dispatched. -/
structure Eval where
  serial : Nat
  kind : Nat
  view : View
  start : AnaState
  anew : Bool
  began : Option Nat
  prevS : Option Nat
  deriving DecidableEq, Repr

/-- A slot in its ring position (R186, R188, R204): times in ns, the leap-second bits of C37.118 at its slot time (direction, occurred,
pending), the stamp C in 1/16 ns, the flags of R214, what the
latest subjunctive evaluation was shown, the CRC of what was last published, and its subjunctive alarms with the first and last
revision each was active in. -/
structure Slot where
  serial : Nat
  t : Nat
  k : Nat
  epoch : Nat
  st : Nat
  soc : Nat
  frac : Nat
  tq : Nat
  leap : Nat
  specAt : Option Nat
  commitAt : Nat
  cAt : Option Nat
  cIrc : Bool
  hz : Nat
  noSpec : Bool
  held : Bool
  quor : Nat
  specQuor : Nat
  words : List Nat
  cols : List (Nat × Col)
  ph : List (Nat × PhEnt)
  an : List (Nat × AnEnt)
  sti : Nat
  gen : Nat
  new : Bool
  dirty : Bool
  chained : Bool
  view : Option View
  heldMarks : List Place
  credit : Bool
  rev : Option Nat
  pub : Option Nat
  ind : Option (View × Res)
  subAlm : List (Nat × Nat × Nat)
  subOuts : List Nat
  indDone : Bool
  released : Bool
  lanes : List (Nat × Nat)
  hdrBad : Bool
  deriving DecidableEq, Repr

/-- A held slot time (R201): slot time, index in its second, points, since when it is held, its serial, and the status-input
levels accepted (R252), the UTC offset and the leap-second bits as it fell due. -/
structure HeldSlot where
  t : Nat
  k : Nat
  specAt : Option Nat
  commitAt : Nat
  since : Nat
  serial : Nat
  sti : Nat
  ofs : Nat
  leap : Nat
  deriving DecidableEq, Repr

/-- A range of aborted or skipped slot times with the epoch they were opened in (R199). -/
structure DeadRange where
  first : Nat
  last : Nat
  epoch : Nat
  deriving DecidableEq, Repr

/-- An entry of the predictor base (R211). -/
structure BaseCol where
  t : Nat
  epoch : Nat
  stat : Nat
  dig : Nat
  fq : Nat
  rc : Nat
  ph : List (Nat × PhEnt)
  an : List (Nat × AnEnt)
  deriving DecidableEq, Repr

/-- Concord and speculation state outside the registers. `lateQ` holds late frames and `discQ` runs of aborted and skipped
slot times (first slot time, epoch, count, reason, serial) on their way to the archive. `grid` is the next slot time: TAI second and index. -/
structure Concord where
  started : Bool
  paused : Bool
  tbase : Nat
  grid : Nat × Nat
  o : Option Nat
  ring : List (Nat × Slot)
  helds : List HeldSlot
  early : List Place
  dead : List DeadRange
  base : List (Nat × BaseCol)
  gens : List (Nat × RegFile)
  lastOpen : Option (Nat × Option Nat × Nat)
  missEv : List Nat
  stamps : List Nat
  ckS : List Ckpt
  ckI : List Ckpt
  lost : List Nat
  evS : Option Eval
  evI : Option Eval
  indQ : List Nat
  redo : List Nat
  catchN : Nat
  catchMax : Nat
  lag16 : Bool
  lateQ : List (Place × Nat × Nat)
  discQ : List (Nat × Nat × Nat × Nat × Nat)
  /-- Both indicative checkpoints are lost, and the chain has not restarted yet (R222). -/
  indLost : Bool
  deriving DecidableEq, Repr

/-! ### Scheduler (R266–R275) -/

/-- A work item (R266, R267): its jobs are given per stage; `put` are jobs put back with the lane they are barred from,
`ran` the (stage, job, lane) an audit run has used, `bars` those its second run avoids (R358). A self-test carries its
lane, a firmware job its descriptor address in `serial`. -/
structure Item where
  handle : Nat
  gen : Nat
  typ : Nat
  grp : Nat
  key : Nat
  serial : Nat
  after : Option (Nat × Nat)
  stages : List Nat
  stage : Nat
  next : Nat
  out : Nat
  put : List (Nat × Option Nat)
  began : Option Nat
  ran : List (Nat × Nat × Nat)
  bars : List (Nat × Nat × Nat)
  deriving DecidableEq, Repr

/-- A job on a lane, with the handle and generation of its item. -/
structure LaneJob where
  handle : Nat
  gen : Nat
  stage : Nat
  job : Nat
  deriving DecidableEq, Repr

/-- What a delay-list entry holds: a firmware item, the ON or OFF duration of a direct definition, an ALM_OUT hold, the
send time of an output stream with the frame's slot (R271). -/
inductive DlyKind where
  | fw (item : Item)
  | timer (d : Nat)
  | pin (p : Nat)
  | send (o : Nat)
  deriving DecidableEq, Repr

/-- A delay-list entry: its release time on the counter, in its units. -/
structure Dly where
  due : Nat
  what : DlyKind
  deriving DecidableEq, Repr

/-- Scheduler state outside the registers: items in the order queued, the generation each handle last had, the job on each
lane, when each lane last mismatched, the passes of R269 and the groups ready before, the delay list, when self-tests
were last queued, since when dispatch is held, and the groups shed in this catch-up. -/
structure Sched where
  items : List Item
  gens : List (Nat × Nat)
  lanes : List (Option LaneJob)
  mismatchAt : List (Nat × Nat)
  pass : List Nat
  wasReady : Nat
  dly : List Dly
  stestAt : Nat
  holdAt : Option Nat
  wasShed : Nat
  deriving DecidableEq, Repr

/-! ### Ingest (R131–R149) -/

/-- Reassembly of a CFG-3 (R139): fragments so far, next index, SOC and FRACSEC, when the last came. -/
structure Reasm where
  bytes : List Byte
  next : Nat
  soc : Nat
  frac : Nat
  lastAt : Nat
  deriving DecidableEq, Repr

/-- A TCP stream bound to a context (R139): the connection's ports and source, and the bytes not yet framed. -/
structure TcpIn where
  ctx : Nat
  src : Nat
  sport : Nat
  dport : Nat
  buf : List Byte
  deriving DecidableEq, Repr

/-- A coded Lammar frame waiting for the Elision engine (R143), with the entry of its context as it stood when it was identified (R133). -/
structure CodedIn where
  ctx : Nat
  entry : RxEntry
  port : Nat
  block : List Byte
  cfg : List Nat
  deriving DecidableEq, Repr

/-- A pair decision received over the link (R144): the pair's column, the member accepted, from which stamp on, and the
member accepted before. -/
structure Decision where
  pair : Nat
  member : Nat
  since : Nat
  old : Nat
  deriving DecidableEq, Repr

/-- Parse unit state outside the registers: the conversion store by phasor and analogue entry (R138), reassemblies, TCP
bindings, coded frames that wait, when one last came, per-context last SPDU number, CONFIG CHANGE seen and type of the
last configuration learnt, per-context claims and when their frames last came, the member each pair accepts, decisions
received, what the last frame read handed to the management core and to publication, flow-computer datagrams on their way
to the quantity engine, configuration requests made, and the offset before the last leap second (R137). -/
structure Ingest where
  conv : List (Nat × Nat × Nat)
  aconv : List (Nat × Nat × Nat)
  reasm : List (Nat × Reasm)
  tcp : List TcpIn
  coded : List CodedIn
  codedAt : Option Nat
  spdu : List (Nat × Nat)
  cfgChg : List Nat
  lastCfg : List (Nat × Nat)
  claims : List (Nat × Nat)
  heardAt : List (Nat × Nat)
  accept : List (Nat × Nat)
  decided : List Decision
  mgmt : List (Nat × List Byte)
  cmds : List (Nat × List Byte)
  flow : List (Nat × RxEntry)
  reqs : List (Nat × Nat)
  lastLeap : Option Nat
  oldOfs : Nat
  turn : Nat
  deriving DecidableEq, Repr

/-! ### Analytics outside the chain (R257, R261) -/

/-- A direct definition (R257, R259): its state and the flag level it last saw. -/
structure DirDef where
  act : Bool
  since : Option Nat
  wantOn : Bool
  deriving DecidableEq, Repr

/-- Alarm engine state: definition levels of the pins, direct definitions, the newest results of both moods, and how
each latch was last set (the serial of a subjunctive rise, or none for an indicative or direct one); the newest
generation under which an evaluation has completed, with its values (R263). -/
structure Analytics where
  pinLevel : Nat
  dirs : List (Nat × DirDef)
  newest : Nat
  drvSerial : List (Nat × Nat)
  latchBy : List (Nat × Option Nat)
  isl0 : List Nat
  ovf : Bool
  lastGen : Option Nat
  lastVals : RegFile
  deriving DecidableEq, Repr

/-! ### Publication (R276–R287) -/

/-- A formed frame on its way to the ports: stream, slot serial, revision, kind 0 subjunctive, 1 indicative, 2 alarm
messages, and the frame for each port that carries it. -/
structure PubOut where
  o : Nat
  serial : Nat
  rev : Nat
  kind : Nat
  ports : List (Nat × List Byte)
  deriving DecidableEq, Repr

/-- A frame in a port's publication queue, with the time it was formed. -/
structure PubFrame where
  o : Nat
  serial : Nat
  rev : Nat
  kind : Nat
  c37 : Bool
  formedAt : Nat
  bytes : List Byte
  deriving DecidableEq, Repr

/-- An on or off command waiting for its period (R285): stream, arrival stamp in 1/16 ns, on, client. -/
structure PubCmd where
  o : Nat
  stamp : Nat
  on : Bool
  ip : Nat
  deriving DecidableEq, Repr

/-- A TCP command session (R284): the client's address and port, the stream it is bound to, its last activity. -/
structure Session where
  ip : Nat
  sport : Nat
  o : Nat
  lastAt : Nat
  deriving DecidableEq, Repr

/-- Publication state outside the registers: the queue of each port; paced frames with their due time in units of the
counter; TXON per stream as it changed, newest first, each with the slot time in ns after which it holds; when an apply
last changed each entry; the streams in a run of age drops; replies handed to command sessions; frames formed that wait
for a place with the Elision engine. -/
structure Publish where
  queues : List (List PubFrame)
  paced : List (Nat × PubOut)
  cmds : List PubCmd
  txon : List (Nat × List (Nat × Bool))
  changedAt : List (Nat × Nat)
  dropRun : List Nat
  sessions : List Session
  replies : List (Nat × List Byte)
  codeWait : List (Nat × PubOut)
  deriving DecidableEq, Repr

/-! ### Capture, archive and Elision (R317–R332) -/

/-- What the capture writer knows of a record in the ring: offset and length in bytes, BSEQ, TYPE, and for a sample
block its TAI second, first instant and instants. -/
structure CapRec where
  off : Nat
  len : Nat
  bseq : Nat
  typ : Nat
  sec : Nat
  first : Nat
  count : Nat
  deriving DecidableEq, Repr

/-- A sample block being gathered: its second, first instant, epoch, and per instant the 2-byte word and the samples. -/
structure CapBlock where
  sec : Nat
  first : Nat
  epoch : Nat
  insts : List (Nat × List Nat)
  deriving DecidableEq, Repr

/-- A capture (R322): offset and BSEQ of its first record, offset of its mark, offset and BSEQ past its last record, all in
bytes; its last instant as second and number; the master whose release waits for it. -/
structure CaptureDesc where
  state : Nat
  short : Bool
  trunc : Bool
  trig : Nat
  start : Nat
  startSeq : Nat
  mark : Nat
  fin : Nat
  finSeq : Nat
  lastSec : Nat
  lastN : Nat
  relWait : Option Nat
  deriving DecidableEq, Repr

/-- A record that waits to be written: TYPE, FLAGS [0], epoch, second, nanoseconds and body; of a sample block its second, first instant
and count. -/
structure CapPend where
  typ : Nat
  coded : Nat
  epoch : Nat
  sec : Nat
  ns : Nat
  body : List Byte
  blk : Option (Nat × Nat × Nat)
  deriving DecidableEq, Repr

/-- Since when capture has dead time: TAI and epoch (R14), and the running time. -/
structure DeadTime where
  tai : Nat
  epoch : Nat
  mono : Nat
  deriving DecidableEq, Repr

/-- An archive entry that waits for the DRAM to leave self-refresh (R71): TYPE, FLAGS [0], epoch, serial, second, nanoseconds, body. -/
structure ArcPend where
  typ : Nat
  coded : Nat
  epoch : Nat
  serial : Nat
  sec : Nat
  ns : Nat
  body : List Byte
  deriving DecidableEq, Repr

/-- An archive entry held in the ring. -/
structure ArcEnt where
  off : Nat
  len : Nat
  aseq : Nat
  typ : Nat
  serial : Nat
  deriving DecidableEq, Repr

/-- Capture engine and archive outside the registers: partition sizes in force in MiB (capture, archive, work areas),
the writer's place, the records held, the block being gathered, captures, dead time, records staged in it, records
lost and when, restart flags, the archive ring, its search, the entry whose body is with the Elision engine, and the entries that wait
for the DRAM. -/
structure Capture where
  parts : List Nat
  wp : Nat
  recs : List CapRec
  block : Option CapBlock
  capts : List CaptureDesc
  deadFrom : Option DeadTime
  deadCause : Nat
  deadInst : Nat
  staged : List CapPend
  lostN : Nat
  lostFirst : Nat
  lostAt : Option DeadTime
  restart : Bool
  ents : List ArcEnt
  awp : Nat
  aseq : Nat
  arestart : Bool
  find : Option (Nat × Nat)
  arcWait : Option Nat
  arcHeld : List ArcPend
  deriving DecidableEq, Repr

/-- A job of the Elision engine (R330): decode of the oldest waiting coded frame; encode of a stream's frame; archive
entry of a slot; capture block; software job of block 0 or 1. -/
inductive ElsKind where
  | decode
  | frame (out : PubOut)
  | archive (serial : Nat)
  | block (b : CapBlock)
  | soft (m : Nat)
  deriving DecidableEq, Repr

/-- A job in the queue of the Elision engine; `started` once it runs. -/
structure ElsJob where
  kind : ElsKind
  started : Bool
  deriving DecidableEq, Repr

/-! ### Key store and update (R365–R384) -/

/-- A key as its two shares: the key's words are those of the shares under exclusive or (R375). -/
structure Shares where
  s1 : List Nat
  s2 : List Nat
  deriving DecidableEq, Repr

/-- A key-store command that has not ended: its master, when it is done, and what it reports (R370). -/
structure KeyJob where
  master : Master
  cmd : Nat
  doneAt : Nat
  ok : Bool
  err : Nat
  deriving DecidableEq, Repr

/-- An OTP slot: the public key and the MASTERS burnt with it (R368). -/
structure OtpKey where
  mat : List Nat
  masters : Nat
  deriving DecidableEq, Repr

/-- Key store state outside the registers: the fuses (life cycle, device key, OTP slots, revocations, rollback
count), the three copies of the life-cycle field in PD0 (R365), the shares of the current and previous keys, when
each overlap ends (none: by command), and the uses already reported as refused (R376). -/
structure KeyStore where
  fuseLc : Nat
  lc : List Nat
  devKey : Bool
  otp : List (Nat × OtpKey)
  otpRev : Nat
  rollback : Nat
  cur : List (Nat × Shares)
  prev : List (Nat × Shares)
  ovl : List (Nat × Option Nat)
  scramble : Nat
  job : Option KeyJob
  refused : List (Nat × Nat)
  refusedAt : Option Nat
  refreshAt : Nat
  deriving DecidableEq, Repr

/-- Firmware update state outside the registers (R379–R384): the bank running; the staging command in progress (0 none), what it
will report as ERR, and the offset of its write; in PD0 the trial counter and the reject marker of bank n − 1 (0 none); when an
activation was accepted, until service resumes, and the master whose activation has not begun; when a trial entered service. -/
structure Update where
  bank : Nat
  stgCmd : Nat
  stgErr : Nat
  stgOfs : Nat
  trialCnt : Nat
  reject : Nat
  actAt : Option Nat
  actBy : Option Master
  trialAt : Option Nat
  deriving DecidableEq, Repr

/-! ### Local acquisition (R150–R166) -/

/-- A lane: frames received and not yet assigned to an edge, frames in the decimator windows newest first (channel bits,
replaced for bad parity), the last frame, frames to pass over up to the reset edge, modulator periods since it, decimator
outputs of the eight channels newest first (value, saturated), how many of them were valid, the lane settled, and parity
errors of the current interval. -/
structure AcqLane where
  ahead : List (Nat × Bool)
  hist : List (Nat × Bool)
  last : Nat
  skip : Nat
  since : Nat
  dec : List (List (Int × Bool))
  valid : Nat
  settled : Bool
  perr : Nat
  deriving DecidableEq, Repr

/-- An output instant as its consumers hold it (R155, R156, R167): second and number, epoch, quality, IRC flag, δ in 1/16 ns,
the group delay G of each lane in 1/3072 ns, and the sample words of the 192 channels. -/
structure Smp where
  sec : Nat
  n : Nat
  epoch : Nat
  qual : Nat
  irc : Bool
  delta : Nat
  g : List Int
  words : List Nat
  deriving DecidableEq, Repr

/-- An output instant with the rate and the epoch it was taken under. -/
structure AcqInst where
  sec : Nat
  n : Nat
  rate : Nat
  epoch : Nat
  deriving DecidableEq, Repr

/-- An open gap (R161): cause, lanes, last valid instant, GAP samples so far. -/
structure AcqGap where
  cause : Nat
  lanes : Nat
  last : AcqInst
  count : Nat
  deriving DecidableEq, Repr

/-- Acquisition outside the registers: lanes; the next output instant; the samples of the last seconds newest first; whether
every sample is GAP until a sync settles, and whether that sync is still to come; open gaps; when the sync was armed (`mono`, TAI second); the modulator edge of the
last instant; the last valid instant; when each channel last saturated and was last overloaded; the counter when the current
fault interval of each lane began; accepted changes of each status input in the current second; the accepted levels of
the status inputs with the stamp from which each set holds, newest first; and for each flag of a channel (four times the channel, and the
flag) where its value last came back across the threshold, in 1/16 ns. -/
structure Acquire where
  lanes : List AcqLane
  next : Option (Nat × Nat)
  smp : List Smp
  hold : Bool
  await : Bool
  gaps : List AcqGap
  armedAt : Nat
  armedSec : Nat
  edge : Nat
  lastValid : Option AcqInst
  satAt : List (Nat × Nat)
  ovlAt : List (Nat × Nat)
  msDone : List (Nat × Nat)
  stiSec : Nat
  stiCnt : List (Nat × Nat)
  stiLog : List (Nat × Nat)
  cross : List (Nat × Nat)
  deriving DecidableEq, Repr

/-! ### Phasor estimation (R167–R182) -/

/-- A loss-of-mains detector: its history restarted at (1/3072 ns of TAI), consecutive points towards the other level of the
ROCOF flag and of the vector-shift flag, and when the vector-shift flag falls (a counter value). -/
structure LomState where
  since : Int
  rcRun : Nat
  vsRun : Nat
  holdEnd : Option Nat
  deriving DecidableEq, Repr

/-- A sub-synchronous monitor: its history restarted at, consecutive updates towards the other flag level. -/
structure SsoState where
  since : Int
  run : Nat
  due : Nat
  deriving DecidableEq, Repr

/-- Phasor estimation outside the registers: the next point of the 2,400/s grid, each home stream's next reporting instant
(second and slot index), detectors, monitors, slots each home stream has missed, when an apply last changed each entry
(`mono`), and the values in force from slot times on, newest first (R177). -/
structure Phasor where
  grid : Option (Nat × Nat)
  homeAt : List (Nat × (Nat × Nat))
  lom : List LomState
  sso : List SsoState
  missed : List (Nat × Nat)
  changedAt : List (Nat × Nat)
  gens : List (Nat × RegFile)
  /-- Per slot time with unplaced home streams: a mask of those missed, of those placed again, and the greatest run of missed slots (R175). -/
  missAt : List (Nat × (Nat × Nat × Nat))
  deriving DecidableEq, Repr

/-! ### Metering (R288–R316) -/

/-- A metering register: value in its LSB, fraction in 2^-32 of it, wraps (R294, R301). -/
structure MReg where
  v : Nat
  frac : Nat
  wraps : Nat
  deriving DecidableEq, Repr

/-- An open gap of a point: cause, when it opened in TAI ns and on `mono`. -/
structure MGap where
  cause : Nat
  ns : Nat
  mono : Nat
  deriving DecidableEq, Repr

/-- What one element has over a run of steps: Σ v·i, Σ vd·i, Σ i², Σ v². -/
structure MSum where
  p : Int
  q : Int
  i2 : Int
  v2 : Int
  deriving DecidableEq, Repr

/-- A metering point: 0x000–0x02F electrical, 0x100–0x1FF transfer. Of its interval: START in TAI ns and its UTC offset, the
next boundary in TAI seconds, readings and wraps at START, gap steps and passed spans in 1/3 ns, gaps, reversals, FIRSTREV in
ms, QFLAGS, SFLAGS. RSEQ and PREVLINK of the next record; direction of the last counted step; the element products of the
last valid steps newest first; the cycle being integrated and its segments; the open gap; when its last record came, LASTSEQ and whether
it is known since the start; the element sums and samples of the results period. -/
structure MPoint where
  regs : List MReg
  start : Nat
  startOfs : Nat
  due : Nat
  base : List (Nat × Nat)
  gap3 : Nat
  gaps : Nat
  revs : Nat
  firstRev : Option Nat
  qf : Nat
  sf : Nat
  rseq : Nat
  prevLink : Nat
  dir : Option Nat
  win : List (List MSum)
  cyc : Option (Nat × Nat)
  segs : Option (List Nat)
  gap : Option MGap
  lastAt : Nat
  lastSeq : Nat
  seqKnown : Bool
  res : List MSum
  resN : Nat
  deriving DecidableEq, Repr

/-- A pulse output: accumulator, backlog, whether a pulse is out, when the output may next change (`mono`), and whether a
saturation and a withheld pulse have been reported. -/
structure Pulse where
  acc : Nat
  backlog : Nat
  active : Bool
  next : Nat
  satEv : Bool
  heldEv : Bool
  deriving DecidableEq, Repr

/-- A retention copy (R312): sequence, points, pulse outputs, instant of the last step in TAI ns, and whether its CRC holds. -/
structure MCopy where
  seq : Nat
  points : List (Nat × MPoint)
  pulses : List Pulse
  lastStep : Nat
  ok : Bool
  deriving DecidableEq, Repr

/-- Quantity engine outside the registers: points; pulse outputs; next integration step (second and number); instant of the
last step integrated in TAI ns; in PD0 the record ring oldest first, copies A and B and the last copy sequence; when the last
copy was written; masters whose snapshot waits; since when PFAIL_N pauses accumulation; the results period each point had
last; the last TAI instant in ns at which time was not LOCKED; the epoch of the last step. -/
structure Metering where
  points : List (Nat × MPoint)
  pulses : List Pulse
  next : Option (Nat × Nat)
  lastStep : Nat
  ring : List (List Byte)
  copies : List (Option MCopy)
  copySeq : Nat
  copyAt : Nat
  snaps : List Master
  paused : Option Nat
  resAt : List (Nat × Nat)
  unlk : Nat
  lastEp : Nat
  deriving DecidableEq, Repr

/-! ### The block -/

/-- The state of the part. `regs` holds the values in force, `bufs` the buffered values of RWA and RWV fields
that have been written, `pend` the pending copies of strobed blocks (R35). `tai` is the time counter in units of
2^-32 ns (R86), `mono` the time passed since the model began and `rtc` the PD0 real-time clock, in the same
units. `loaded` is what steps 10 and 11 of the running start-up loaded (R50). `free` counts the open values drawn (DESIGN CHOICE, log 1). -/
structure State where
  pending : List Instr
  regs : RegFile
  bufs : RegFile
  pend : List (Nat × RegFile)
  tai : Nat
  mono : Nat
  rtc : Nat
  free : Nat
  loaded : Load
  nor : Memory
  dram : Memory
  boot : Boot
  gate : Gates
  fab : Fabric
  log : Recorder
  tns : Tense
  ports : List Port
  red : Redund
  ccd : Concord
  sch : Sched
  ing : Ingest
  ana : Analytics
  pub : Publish
  cap : Capture
  els : List ElsJob
  key : KeyStore
  fwu : Update
  acq : Acquire
  phs : Phasor
  qty : Metering
  deriving DecidableEq, Repr

/-- Why a run would stop. No command raises it: every command of the table has an effect the spec gives (safe). -/
inductive Fault where
  /-- Raised by nothing. -/
  | none
  deriving DecidableEq, Repr

/-- Why a command has no meaning. -/
inductive Refusal where
  /-- A command whose meaning is not written yet (safe: the run stops). -/
  | notModelled (mnemonic : String)
  deriving DecidableEq, Repr

/-! ### Each unit as a reset of its domain leaves it -/

def fabric0 : Fabric := ⟨[], [], [], false, .served, .served, 0, false, [], none, 0, 0, 0⟩

def load0 : Load := ⟨[], [], [], [], [], [], none, false, 0, 0⟩

def recorder0 : Recorder :=
  ⟨false, [], [], 0, 0, 0, 0, [], 0, [], 0, [], 0, 0, 31, 0, 0xFFFFFFFF, false, [], 0, 0, 0, 0, [], [], none⟩

def tSource0 : TSource := ⟨false, false, 0, 0, 0, 0, false, 0, false, 0, 0, none, none, 0, 0, 0⟩

def tsQueue0 : TsQueue := ⟨[], 0, false⟩

/-- 10737418240 is 2.5 ns in units of 2^-32 ns. -/
def tense0 : Tense :=
  ⟨List.replicate 4 tSource0, 0, false, 0, 0, 10737418240, none, 1, none, List.replicate 4 tsQueue0, none, false, 0, 0, none, none, [],
    [⟨0, 0⟩, ⟨0, 0⟩]⟩

def port0 : Port := ⟨[], [], [], [], 0, 0, none, 0, 0, 0, 0, false, 0, 0, 0, 0, false, 0⟩

def redund0 : Redund := ⟨0, 0, 0, none, none, 0, none, none, none, 0, [], [], [], [], none, [], false⟩

def concord0 : Concord :=
  ⟨false, false, 0, (0, 0), none, [], [], [], [], [], [], none, [], List.replicate 6 0, [], [], [], none, none, [], [],
    0, 0, false, [], [], false⟩

def sched0 : Sched := ⟨[], [], List.replicate 16 none, [], List.replicate 8 0, 0, [], 0, none, 0⟩

def ingest0 : Ingest := ⟨[], [], [], [], [], none, [], [], [], [], [], [], [], [], [], [], [], none, 0, 0⟩

def analytics0 : Analytics := ⟨0, [], 0, [], [], [], false, none, []⟩

def publish0 : Publish := ⟨List.replicate 6 [], [], [], [], [], [], [], [], []⟩

def captureDesc0 : CaptureDesc := ⟨0, false, false, 0, 0, 0, 0, 0, 0, 0, 0, none⟩

def capture0 : Capture :=
  ⟨List.replicate 10 0, 0, [], none, List.replicate 64 captureDesc0, none, 0, 0, [], 0, 0, none, false, [], 0, 0, false, none, none, []⟩

def acqLane0 : AcqLane := ⟨[], [], 0, 0, 0, [], 0, false, 0⟩

def acquire0 : Acquire := ⟨List.replicate 24 acqLane0, none, [], false, false, [], 0, 0, 0, none, [], [], [], 0, [], [], []⟩

def phasor0 : Phasor := ⟨none, [], List.replicate 8 ⟨0, 0, 0, none⟩, List.replicate 16 ⟨0, 0, 0⟩, [], [], [], []⟩

def pulse0 : Pulse := ⟨0, 0, false, 0, false, false⟩

def metering0 : Metering := ⟨[], List.replicate 16 pulse0, none, 0, [], [none, none], 0, 0, [], none, [], 0, 0⟩

def keyStore0 : KeyStore := ⟨0, [0, 0, 0], false, [], 0, 0, [], [], [], 0, none, [], none, 0⟩

def update0 : Update := ⟨0, 0, 0, 0, 0, 0, none, none, none⟩

def boot0 : Boot :=
  ⟨.porst, true, 0, 0, 0, 0, [], [], 0, none, 0, false, 0, 0, 0, 0, 0, 0, false, false, false, 0, 0, false, false, 0, 0,
    0, .run, false, 0⟩

def gates0 : Gates := ⟨0, 0, 0, 0⟩

/-- The part as it is first supplied: PORST_N held low, PD0 freshly supplied, the fuses of an unprogrammed part, NOR
erased (R49, R53, R390; PRESUMED, log 5). No command waits. -/
def State.reset : State :=
  { pending := [], regs := [], bufs := [], pend := [], tai := 0, mono := 0, rtc := 0, free := 0, loaded := load0, nor := [], dram := [], boot := boot0, gate := gates0,
    fab := fabric0, log := recorder0, tns := tense0, ports := List.replicate 6 port0, red := redund0, ccd := concord0,
    sch := sched0, ing := ingest0, ana := analytics0, pub := publish0, cap := capture0, els := [], key := keyStore0, fwu := update0,
    acq := acquire0, phs := phasor0, qty := metering0 }

end Sys2Proof.Machine
end

