-- ==== Sys2Proof/Machine/Ops.lean ====
section
/-! DEFINITION. The operations every command is made of: reading and writing fields, the buffers and voted
copies, counters, time, open values, the hand-over of an event to the recorder, domains, and the checks of the
register fabric. -/

namespace Sys2Proof.Machine

/-! ### Fields -/

/-- The value in force of a field. -/
def State.rd (s : State) (f : Field) : Nat := s.regs.get f

/-- Writes the value in force of a field. -/
def State.wr (s : State) (f : Field) (v : Nat) : State := { s with regs := s.regs.set f v }

/-- The value a block acts on: the value in force limited to the nearer limit of its range (R59 and the tables). -/
def State.eff (s : State) (f : Field) : Nat := clamp f.least f.most (s.rd f)

/-- A field as a test. -/
def State.is (s : State) (f : Field) : Bool := s.rd f != 0

/-- The buffered value of a field: what was last written to its buffer, else the value in force (R10). -/
def State.rdBuf (s : State) (f : Field) : Nat := (assoc s.bufs (fieldKey f)).getD (s.rd f)

/-- Writes the buffer of a field. -/
def State.wrBuf (s : State) (f : Field) (v : Nat) : State := { s with bufs := s.bufs.set f v }

/-- Writes the buffer and the value in force together: what the part itself writes into a buffered field. -/
def State.wrBoth (s : State) (f : Field) (v : Nat) : State := (s.wr f v).wrBuf f v

/-- The copy of a per-master register that belongs to a master: the host's lies 2^30 above (DESIGN CHOICE, log 4). -/
def forM (m : Master) (f : Field) : Field :=
  match m with
  | .mc => f
  | .host => { f with addr := f.addr + 2 ^ 30 }

/-- Copy `k` of a voted field (R37): the three copies lie at multiples of 2^44 above (DESIGN CHOICE, log 4). -/
def copyOf (k : Nat) (f : Field) : Field := { f with addr := f.addr + 2 ^ 44 * (k + 1) }

/-- The 2-of-3 majority of three values, or none when all differ (R37). -/
def vote (a b c : Nat) : Option Nat :=
  if a = b then some a else if a = c then some a else if b = c then some b else none

/-- The voted value of a field held in three copies, with the safe value it falls to (R37). -/
def State.rdV (s : State) (safe : Nat) (f : Field) : Nat :=
  (vote (s.rd (copyOf 0 f)) (s.rd (copyOf 1 f)) (s.rd (copyOf 2 f))).getD safe

/-- The voted buffer of a field held in three copies. -/
def State.rdBufV (s : State) (safe : Nat) (f : Field) : Nat :=
  (vote (s.rdBuf (copyOf 0 f)) (s.rdBuf (copyOf 1 f)) (s.rdBuf (copyOf 2 f))).getD safe

/-- Writes all three copies of a voted field. -/
def State.wrV (s : State) (f : Field) (v : Nat) : State :=
  ((s.wr (copyOf 0 f) v).wr (copyOf 1 f) v).wr (copyOf 2 f) v

/-- Writes all three buffered copies of a voted field. -/
def State.wrBufV (s : State) (f : Field) (v : Nat) : State :=
  ((s.wrBuf (copyOf 0 f) v).wrBuf (copyOf 1 f) v).wrBuf (copyOf 2 f) v

/-- The safe value of a voted field: RED_CFG.ROLE 0x0 and PAIR_EN 1 (R364). -/
def safeValue (f : Field) : Nat := if f.addr = 0xE0000 ∧ f.lo = 0 then 1 else 0

/-- RED_CFG.PAIR_EN in force. -/
def State.pairEn (s : State) : Bool := s.rdV 1 RED_CFG_PAIR_EN != 0

/-- RED_CFG.ROLE in force. -/
def State.role (s : State) : Nat := s.rdV 0 RED_CFG_ROLE

/-- Adds `n` events to a counter: it wraps, or stops at all ones when saturating (R10, R26). -/
def State.cntN (s : State) (f : Field) (n : Nat) : State :=
  s.wr f (if f.sat then min (s.rd f + n) (2 ^ f.width - 1) else s.rd f + n)

/-- Counts one event. -/
def State.cnt (s : State) (f : Field) : State := s.cntN f 1

/-- Adds to a 64-bit counter pair, which wraps. -/
def State.cntPair (s : State) (lo hi : Field) (n : Nat) : State :=
  let v := s.rd lo + s.rd hi * 2 ^ 32 + n
  (s.wr lo (v % 2 ^ 32)).wr hi (v / 2 ^ 32)

/-- Applies a function once for each element. -/
def State.each {α : Type} (s : State) (l : List α) (f : State → α → State) : State := l.foldl f s

/-- Applies a function when a test holds. -/
def State.whenB (s : State) (c : Bool) (f : State → State) : State := if c then f s else s

/-! ### Blocks and domains (R13, R24) -/

/-- The block of a word address: the windows of R24, or the table words of the model (DESIGN CHOICE, log 4). -/
def blkOfAddr (a : Nat) : Nat :=
  let a := a % 2 ^ 43
  if 2 ^ 32 ≤ a then (a / 2 ^ 32 - 1) / 8
  else
    let a := a % 2 ^ 30
    if a < 0x8000 then 0
    else if a < 0x10000 then 2
    else if a < 0x20000 then 1
    else if a < 0xC0000 then a / 0x10000 + 1
    else if a < 0xC8000 then 13
    else if a < 0xD0000 then 14
    else if a < 0xE0000 then 15
    else if a < 0xF0000 then 16
    else if a < 0xF8000 then 17
    else if a < 0x100000 then 18
    else 19

/-- The power domain of a block (R13). -/
def blkDom (b : Nat) : Nat :=
  if b = 4 ∨ b = 5 ∨ b = 11 then 2
  else if b = 6 ∨ b = 7 then 3
  else if b = 8 ∨ b = 9 ∨ b = 10 then 4
  else if b = 12 then 5
  else if b = 13 ∨ b = 14 then 6
  else if b = 19 then 7
  else 1

/-- Domain `k` is powered and not switching (R79). -/
def State.on (s : State) (k : Nat) : Bool :=
  bit (s.rd PWR_STAT_ON) k == 1 && bit (s.rd PWR_STAT_BUSY) k == 0

/-- PD1 runs: the start sequence has reached step 8 (R49). -/
def State.up (s : State) : Bool := s.boot.stage == .run

/-- Registers kept in PD0 over a reset of their block: by their table, "held in PD0" (R42, R82, R108, R314). -/
def pd0Held (a : Nat) : Bool :=
  let a := a % 2 ^ 43
  a == 0x10000 || a == 0x8000 || a == 0x800C || a == 0x8010 || a == 0x100000 || a == 0x20050 || a == 0xB0004
  || a == 0xB0008 || a == 0xB000C || a == 0x6C || a == 0x60
  || (2 ^ 32 * (1 + 12 * 8) ≤ a && a < 2 ^ 32 * (2 + 12 * 8) && (a % 256 == 104 || a % 256 == 108 || a % 256 == 112 || a % 256 == 116))
  || (2 ^ 32 * (2 + 12 * 8) ≤ a && a < 2 ^ 32 * (3 + 12 * 8) && (a % 256 == 44 || a % 256 == 48 || a % 256 == 52 || a % 256 == 56))

/-- The *blk*_LOCK bits, which a domain switch does not clear (R25). -/
def isLock (a : Nat) : Bool := a % 0x8000 == 0x7FF4

/-- Drops from a register file what a reset of domain `k` clears; with `locks`, the lock bits too. -/
def dropDomain (locks : Bool) (k : Nat) (r : RegFile) : RegFile :=
  r.filter (fun p => blkDom (blkOfAddr (p.1 / 32)) != k || pd0Held (p.1 / 32) || (!locks && isLock (p.1 / 32)))

/-- The pair (block, buffer copy) entries of a domain's blocks are dropped. -/
def dropPend (k : Nat) (l : List (Nat × RegFile)) : List (Nat × RegFile) :=
  l.filter (fun p => blkDom p.1 != k)

/-! ### Time (R86, R88) -/

/-- One nanosecond in the units of the counter. -/
def nsU : Nat := 2 ^ 32

/-- One second in the units of the counter. -/
def secU : Nat := 1000000000 * 2 ^ 32

/-- The nominal core tick, 2.5 ns (R65). -/
def tickU : Nat := 10737418240

/-- The increment in force (R86). -/
def State.inc (s : State) : Nat := s.rd TNS_INC_HI_NS * 2 ^ 32 + s.rd TNS_INC_LO_FRAC

/-- IRC-direct: the core clock is 50 MHz (R71). -/
def State.ircDirect (s : State) : Bool := s.rd CLK_STAT_STATE == 1

/-- Core clock periods of 2.5 ns in a core tick (R71). -/
def State.tickN (s : State) : Nat := if s.ircDirect then 8 else 1

/-- What the counter adds in a core tick: its increment, 8 times over in IRC-direct; nothing while the clocks of PD1 do not run (R13,
R71, R74, R75, R86). -/
def State.tickInc (s : State) : Nat := if s.up then s.tickN * s.inc else 0

/-- `n` core ticks pass. -/
def State.ticks (s : State) (n : Nat) : State :=
  { s with tai := s.tai + n * s.tickInc, mono := s.mono + n * (s.tickN * tickU), rtc := s.rtc + n * (s.tickN * tickU) }

/-- One core tick passes. -/
def State.tick (s : State) : State := s.ticks 1

/-- Time passes up to the first core tick at which an instant of the counter falls due (R88). -/
def State.advanceTo (s : State) (x : Nat) : State :=
  if x ≤ s.tai then s
  else
    let d := s.tickInc
    if d = 0 then s else s.ticks ((x - s.tai + d - 1) / d)

/-- Time passes up to an instant of the running time `mono`. -/
def State.waitUntil (s : State) (x : Nat) : State :=
  if x ≤ s.mono then s
  else s.ticks ((x - s.mono + s.tickN * tickU - 1) / (s.tickN * tickU))

/-- Time passes without a clock in PD1: PD0 alone counts (R49, R74, R81). -/
def State.dark (s : State) (d : Nat) : State := { s with mono := s.mono + d, rtc := s.rtc + d }

/-- TAI seconds. -/
def secOf (t : Nat) : Nat := t / secU

/-- Nanoseconds within the second. -/
def nsOf (t : Nat) : Nat := t % secU / nsU

/-- A stamp: the counter refined to 1/16 ns (R90). -/
def stampOf (t : Nat) : Nat := t / 2 ^ 28

/-- The epoch (R8). -/
def State.epoch (s : State) : Nat := s.rd TNS_EPOCH_EPOCH

/-- The quality of a stamp taken now (R90). -/
def State.quality (s : State) : Nat :=
  let st := s.rd TNS_STAT_STATE
  if st = 2 then 0 else if st = 3 then 1 else 2

/-- What stamps are read from is about to change, now: the counter by `d`. -/
def State.mark (s : State) (d : Int) : State :=
  let m : TimeMark := ⟨s.mono, d, s.epoch, s.quality, s.boot.ircFlag, s.ircDirect⟩
  { s with tns := { s.tns with marks := m :: s.tns.marks.filter (fun x => decide (s.mono < x.time + 2 * secU)) } }

/-- What a stamp of an instant `ago` back (1/16 ns) is read from: the epoch, quality and flags of that instant, and by how much the
counter has been changed since (R14, R90; DEDUCED, log 52). -/
def State.asOf (s : State) (ago : Nat) : TimeMark :=
  let later := s.tns.marks.filter (fun x => decide (s.mono < x.time + ago * 2 ^ 28))
  match later.getLast? with
  | some x => { x with change := later.foldl (fun a y => a + y.change) 0 }
  | none => ⟨s.mono, 0, s.epoch, s.quality, s.boot.ircFlag, s.ircDirect⟩

/-- The counter as it would read now without the changes since the instant `ago` back. -/
def State.taiAsOf (s : State) (ago : Nat) : Nat := ((s.tai : Int) - (s.asOf ago).change).toNat

/-- Time since an instant of `mono`, in microseconds. -/
def State.usSince (s : State) (x : Nat) : Nat := (s.mono - x) / (1000 * nsU)

/-! ### Open values -/

/-- Draws the next open value (DESIGN CHOICE, log 1). -/
def State.draw (s : State) : Nat × State :=
  ((Config.freeValue s.free).toNat, { s with free := s.free + 1 })

/-! ### Events (R333–R337) -/

/-- The critical class (R335). -/
def State.isCrit (s : State) (c : Nat) : Bool :=
  (decide (1 ≤ c) && decide (c ≤ 3)) || c / 256 == 1 || c == 0x1011 || c == 0x5050 || c == 0x510B || c == 0x8003
  || c == 0x8042 || c / 4096 == 0xC || c == 0xD011 || c == 0xD030 || c / 16 == 0xA01 || c == 0xA030
  || (List.range 16).any (fun i => s.is (LOG_CRITX_EN i) && s.rd (LOG_CRITX_CODE i) == c)

/-- Hands an event to the input queue of 256 places, 16 of them open to critical events only: a normal event that
finds 240 places taken is lost; a critical one that finds none waits at its source (R337). -/
def pushEv (crit : Bool) (e : Ev) (l : Recorder) : Recorder :=
  if !l.running then l
  else if crit then
    (if l.inq.length < 256 && l.waiting.isEmpty then { l with inq := l.inq ++ [e] } else { l with waiting := l.waiting ++ [e] })
  else if l.inq.length < 240 then { l with inq := l.inq ++ [e] }
  else { l with lost := l.lost + 1, lostCnt := (l.lostCnt + 1) % 2 ^ 32, lostFirst := if l.lost = 0 then e.code else l.lostFirst }

/-- An event observed now. -/
def State.ev (s : State) (code p0 p1 p2 p3 : Nat) : State :=
  let e : Ev := ⟨code, p0 % 2 ^ 32, p1 % 2 ^ 32, p2 % 2 ^ 32, p3 % 2 ^ 32, s.tai, s.epoch, s.mono / (5 * nsU)⟩
  { s with log := pushEv (s.isCrit code) e s.log }

/-- A two's complement parameter word. -/
def i32 (i : Int) : Nat := uint 32 i

/-- The number of a master in an event: 0 management core, 1 host. -/
def mNum (m : Master) : Nat :=
  match m with
  | .mc => 0
  | .host => 1

/-! ### The fabric's checks (R399) -/

/-- The address lies in a window of R24. -/
def inWindow (a : Nat) : Bool :=
  a < 0x110000 || (0x1000000 ≤ a && a < 0x1000400)

/-- The word address `a` is covered by a register descriptor. -/
def regHits (r : RegDesc) (a : Nat) : Bool :=
  r.base ≤ a &&
    (if r.s1 = 0 then r.base == a
     else if r.s2 = 0 then (a - r.base) % r.s1 == 0 && (a - r.base) / r.s1 < r.n1
     else
       let i := min ((a - r.base) / r.s1) (r.n1 - 1)
       let o := a - r.base - r.s1 * i
       o % r.s2 == 0 && o / r.s2 < r.n2)

/-- The fields a descriptor gives the word at `a`. -/
def regFieldsAt (r : RegDesc) (a : Nat) : List Field :=
  if r.s1 = 0 then r.fields 0 0
  else if r.s2 = 0 then r.fields ((a - r.base) / r.s1) 0
  else
    let i := min ((a - r.base) / r.s1) (r.n1 - 1)
    r.fields i ((a - r.base - r.s1 * i) / r.s2)

/-- The burst-window descriptor (R47). -/
def burstDesc : RegDesc := ⟨0x1000000, 256, 4, 1, 0, 0, fun i _ => [HST_WIN i]⟩

/-- The descriptor of a word address, if one is assigned (R24). -/
def descOf (a : Nat) : Option RegDesc :=
  if 0x1000000 ≤ a then (if regHits burstDesc a then some burstDesc else none)
  else (regsOf (blkOfAddr a)).find? (fun r => regHits r a)

/-- The fields at a word address. -/
def fieldsAt (a : Nat) : List Field :=
  match descOf a with
  | some r => regFieldsAt r a
  | none => []

/-- The number of a 64-bit pair's half: 1 low, 2 high, 0 no pair (R30). -/
def pairOf (a : Nat) : Nat :=
  match descOf a with
  | some r => r.pair
  | none => 0

/-- The address belongs to the data port or the burst window (R45). -/
def isDataPort (a : Nat) : Bool := (0x100020 ≤ a && a < 0x10003C) || 0x1000000 ≤ a

/-- The address lies in the table port of master `h` (0 management core, 1 host) of its block (R27). -/
def isPort (h a : Nat) : Bool :=
  let b := blkOfAddr a
  hasTables b && a < 0x1000000 && tpOfs b h ≤ a && a < tpOfs b h + 0x10C

/-- What check 3 of R399 refuses: the KIND, or none. -/
def masterCheck (m : Master) (write : Bool) (size a : Nat) : Option Nat :=
  match m with
  | .mc =>
    if isPort 1 a then some 5
    else if 0xC8200 ≤ a && a < 0xC8230 then some 3
    else if isDataPort a then some 6
    else none
  | .host =>
    if isPort 0 a then some 5
    else if 0xC8100 ≤ a && a < 0xC8130 then some 3
    else if 0x90020 ≤ a && a < 0x90038 then some 3
    else if !write && size < 4 && (a / 4 * 4 == 0x100038 || 0x1000000 ≤ a) then some 6
    else none

/-- Checks 1 to 3 of R399: the KIND of the first that fails. -/
def checkA (m : Master) (write : Bool) (size a : Nat) : Option Nat :=
  if !inWindow a then some 3
  else if size < 4 && write then some 1
  else if a % size != 0 then some 2
  else if size == 8 && pairOf a != 1 then some 2
  else masterCheck m write size a

/-- An access to HST_CFG never fails the domain check (R42). In recovery only SYS, HST and FWU are served; the others answer as a
block whose domain is off (R52, DEDUCED, log 45). -/
def checkDomain (s : State) (a : Nat) : Bool :=
  let b := blkOfAddr (if 0x1000000 ≤ a then 0x100000 else a)
  a / 4 * 4 == 0x100000 || (s.on (blkDom b) && (s.rd SYS_BOOT_STAT_PHASE != 11 || b == 0 || b == 18 || b == 19))

/-- The whole of checks 1 to 5 of R399: the KIND of the first that fails. -/
def busFail (s : State) (m : Master) (write : Bool) (size a : Nat) : Option Nat :=
  match checkA m write size a with
  | some k => some k
  | none =>
    if !checkDomain s a then some 4
    else if (descOf (a / 4 * 4)).isNone then some 3
    else none

/-- The WIDTH code of an access of `size` bytes (R34). -/
def widthCode (size : Nat) : Nat := if size = 1 then 0 else if size = 2 then 1 else if size = 4 then 2 else 3

/-- The form in which an error response reaches a master (R34). -/
def State.errForm (s : State) (m : Master) (write : Bool) : Resp :=
  match m with
  | .mc => .dataAbort
  | .host => if s.boot.hostPort = 1 then .errBit else if write then .posted else .completerAbort

/-- How an access of a master ended. -/
def State.respond (s : State) (m : Master) (r : Resp) : State :=
  match m with
  | .mc => { s with fab := { s.fab with respMc := r } }
  | .host => { s with fab := { s.fab with respHost := r } }

/-- One error response: SYS_ERR_ADDR and SYS_ERR_INFO are loaded; one to the QSPI target sets its ERR bit (R34, R44). -/
def State.errResp (s : State) (m : Master) (write : Bool) (size a kind : Nat) : State :=
  let s : State := if m = .host ∧ s.boot.hostPort = 1 then { s with fab := { s.fab with qspiErr := true } } else s
  (((((s.wr SYS_ERR_ADDR_ADDR a).wr SYS_ERR_INFO_MASTER (mNum m)).wr SYS_ERR_INFO_WRITE (b2n write)).wr
    SYS_ERR_INFO_WIDTH (widthCode size)).wr SYS_ERR_INFO_KIND kind).respond m (s.errForm m write)

/-- The event of a failed check (R399). -/
def State.errEvent (s : State) (m : Master) (write : Bool) (size a data kind : Nat) : State :=
  if kind = 1 then s.ev 0xD001 a (mNum m) size data
  else if kind = 2 then s.ev 0xD002 a (mNum m) size 0
  else if kind = 3 then s.ev 0xD003 a (mNum m) (b2n write) 0
  else if kind = 4 then s.ev 0x0010 a (mNum m) (b2n write) (blkDom (blkOfAddr (if 0x1000000 ≤ a then 0x100000 else a)))
  else s

/-- Counts an accepted write of a master (R23). -/
def State.countWrite (s : State) (m : Master) : State :=
  match m with
  | .mc => s.cnt SYS_FAB_WR_MC_COUNT
  | .host => s.cnt SYS_FAB_WR_HC_COUNT

/-- The clock gate of a unit opens on demand (R76). Units: 0–15 the lanes, 16 Elision, 17 DRAM PHY, 18 the host logic of PD7 (DESIGN
CHOICE, log 11). -/
def State.gateOpen (s : State) (u : Nat) : State :=
  let g := s.gate
  { s with gate := { opened := setBits g.opened u 1 1, reset := setBits g.reset u 1 0, phyAt := if u = 17 then s.mono else g.phyAt,
                     hostAt := if u = 18 then s.mono else g.hostAt } }

/-- A transaction of the host opens the gate of the host logic. -/
def State.hostGate (s : State) (m : Master) : State := s.whenB (m == .host) (fun s => s.gateOpen 18)

/-- A 32-bit write access to a command register: the fabric's checks, then the command's own effect. -/
def State.accessW (s : State) (m : Master) (a v : Nat) (eff : State → State) : State :=
  if !s.up then s
  else
    let s := s.hostGate m
    match busFail s m true 4 a with
    | some k => (s.errResp m true 4 a k).errEvent m true 4 a v k
    | none => eff ((s.countWrite m).respond m .served)

/-- The value last answered to a read of a master. -/
def State.answer (s : State) (m : Master) (ws : List Nat) : State :=
  match m with
  | .mc => { s with fab := { s.fab with rdMc := ws } }
  | .host => { s with fab := { s.fab with rdHost := ws } }

/-! ### Memories -/

/-- What an unlisted NOR byte reads as: erased flash (PRESUMED, log 5). -/
def norErased : Byte := 0xFF

/-- What an unlisted DRAM byte reads as (DESIGN CHOICE, log 6). -/
def dramBlank : Byte := 0

def State.norRead (s : State) (a n : Nat) : List Byte := Memory.readN norErased s.nor a n
def State.norWrite (s : State) (a : Nat) (bs : List Byte) : State := { s with nor := Memory.writeN norErased s.nor a bs }
def State.norErase (s : State) (a n : Nat) : State := { s with nor := Memory.clear s.nor a n }
def State.dramRead (s : State) (a n : Nat) : List Byte := Memory.readN dramBlank s.dram a n
def State.dramWrite (s : State) (a : Nat) (bs : List Byte) : State := { s with dram := Memory.writeN dramBlank s.dram a bs }

end Sys2Proof.Machine
end

