-- ==== Sys2Proof/Machine/Operands.lean ====
section
/-! DEFINITION. The forms in which operands reach the part: Ethernet, IPv4, UDP and TCP headers, PTP messages,
and the checksums over them. -/

namespace Sys2Proof.Machine

/-- The number of 802.1Q and 802.1ad tags in front of the EtherType (R112). -/
def tagCount (bs : List Byte) : Nat :=
  let isTag (o : Nat) : Bool := beAt bs o 2 == 0x8100 || beAt bs o 2 == 0x88A8
  if !isTag 12 then 0 else if isTag 16 then 2 else 1

/-- Offset of the EtherType, one tag skipped. -/
def etOfs (bs : List Byte) : Nat := if tagCount bs = 0 then 12 else 16

def etherType (bs : List Byte) : Nat := beAt bs (etOfs bs) 2

/-- Offset of the layer 3 header. -/
def l3Ofs (bs : List Byte) : Nat := etOfs bs + 2

/-- VID and PCP of a tagged frame, as the tag holds them. -/
def frameTag (bs : List Byte) : Option Nat := if tagCount bs = 0 then none else some (beAt bs 14 2)

def frameDst (bs : List Byte) : Nat := beAt bs 0 6
def frameSrc (bs : List Byte) : Nat := beAt bs 6 6

/-- The IPv4 header: header length, total length, protocol, source and destination, fragment bits. -/
structure Ip where
  o : Nat
  hl : Nat
  total : Nat
  proto : Nat
  src : Nat
  dst : Nat
  frag : Nat
  deriving DecidableEq, Repr

/-- Reads an IPv4 header at the layer 3 offset; none when check 8 of R112 fails. -/
def parseIp (bs : List Byte) : Option Ip :=
  let o := l3Ofs bs
  let vh := byteAt bs o
  let hl := vh % 16 * 4
  let total := beAt bs (o + 2) 2
  if vh / 16 ≠ 4 ∨ hl < 20 ∨ bs.length < o + total ∨ onesSum (slice bs o hl) 0 ≠ 0xFFFF then none
  else some ⟨o, hl, total, byteAt bs (o + 9), beAt bs (o + 12) 4, beAt bs (o + 16) 4, beAt bs (o + 6) 2⟩

/-- The sum of the pseudo-header of a UDP or TCP checksum. -/
def pseudoSum (ip : Ip) : Nat :=
  ip.src / 65536 + ip.src % 65536 + ip.dst / 65536 + ip.dst % 65536 + ip.proto + (ip.total - ip.hl)

/-- Check 10 of R112: a UDP or TCP segment whose checksum or length fails. -/
def l4Bad (bs : List Byte) (ip : Ip) : Bool :=
  let o := ip.o + ip.hl
  let n := ip.total - ip.hl
  if ip.proto = 17 then
    beAt bs (o + 4) 2 != n || n < 8
      || (beAt bs (o + 6) 2 != 0 && onesSum (slice bs o n) (pseudoSum ip) != 0xFFFF)
  else if ip.proto = 6 then decide (n < 20) || onesSum (slice bs o n) (pseudoSum ip) != 0xFFFF
  else false

/-- A UDP datagram: ports and payload. -/
structure Udp where
  sport : Nat
  dport : Nat
  payload : List Byte
  deriving DecidableEq, Repr

/-- The UDP datagram of a frame. -/
def parseUdp (bs : List Byte) (ip : Ip) : Udp :=
  let o := ip.o + ip.hl
  ⟨beAt bs o 2, beAt bs (o + 2) 2, slice bs (o + 8) (ip.total - ip.hl - 8)⟩

/-- The payload of a TCP segment: ports, sequence number, flags and bytes. -/
def parseTcp (bs : List Byte) (ip : Ip) : Udp :=
  let o := ip.o + ip.hl
  let d := byteAt bs (o + 12) / 16 * 4
  ⟨beAt bs o 2, beAt bs (o + 2) 2, slice bs (o + d) (ip.total - ip.hl - d)⟩

/-- Puts bytes into a byte string at an offset. -/
def patch (bs : List Byte) (o : Nat) (v : List Byte) : List Byte :=
  bs.take o ++ v ++ bs.drop (o + v.length)

/-- The one's complement checksum of a byte string, as two bytes. -/
def inetCsum (bs : List Byte) (start : Nat) : Nat := 0xFFFF - onesSum bs start

/-- The IPv4 header fields of a frame the part itself built, without check of its checksum. -/
def rawIp (bs : List Byte) : Ip :=
  let o := l3Ofs bs
  ⟨o, byteAt bs o % 16 * 4, beAt bs (o + 2) 2, byteAt bs (o + 9), beAt bs (o + 12) 4, beAt bs (o + 16) 4, beAt bs (o + 6) 2⟩

/-- Inserts the C37.118 CRC, the IPv4 header checksum and the UDP or TCP checksum into a frame as it leaves; a UDP
checksum of 0 is sent as all ones (R120). -/
def insertSums (c37 : Bool) (bs : List Byte) : List Byte :=
  if etherType bs ≠ 0x0800 then bs
  else
    let ip := rawIp bs
    let l4 := ip.o + ip.hl
    let bs := if c37 ∧ ip.proto = 17 then
        let o := l4 + 8
        let n := beAt bs (o + 2) 2
        patch bs (o + n - 2) (beBytes 2 (crcCcitt (slice bs o (n - 2))))
      else bs
    let bs := patch bs (ip.o + 10) (zeros 2)
    let bs := patch bs (ip.o + 10) (beBytes 2 (inetCsum (slice bs ip.o ip.hl) 0))
    let co := if ip.proto = 17 then l4 + 6 else l4 + 16
    if ip.proto = 17 ∨ ip.proto = 6 then
      let bs := patch bs co (zeros 2)
      let c := inetCsum (slice bs l4 (ip.total - ip.hl)) (pseudoSum ip)
      patch bs co (beBytes 2 (if ip.proto = 17 ∧ c = 0 then 0xFFFF else c))
    else bs

/-- A UDP datagram in an IPv4 packet in an Ethernet frame, checksums left to the port (R120). -/
def udpFrame (dmac : Nat) (vlan : Option Nat) (dscp ttl : Nat) (sip dip : Nat) (sport dport : Nat) (pl : List Byte) : List Byte :=
  beBytes 6 dmac ++ zeros 6
    ++ (match vlan with
        | some t => beBytes 2 0x8100 ++ beBytes 2 t
        | none => [])
    ++ beBytes 2 0x0800
    ++ [0x45, toByte (dscp * 4)] ++ beBytes 2 (28 + pl.length) ++ zeros 4 ++ [toByte ttl, 17] ++ zeros 2
    ++ beBytes 4 sip ++ beBytes 4 dip
    ++ beBytes 2 sport ++ beBytes 2 dport ++ beBytes 2 (8 + pl.length) ++ zeros 2 ++ pl

/-- The destination MAC of an IPv4 multicast address. -/
def multicastMac (ip : Nat) : Nat := 0x01005E000000 + ip % 2 ^ 23

/-! ### PTP (R95, R102) -/

def isPtp (bs : List Byte) : Bool := etherType bs == 0x88F7
def ptpType (bs : List Byte) : Nat := byteAt bs (l3Ofs bs) % 16
def ptpDomain (bs : List Byte) : Nat := byteAt bs (l3Ofs bs + 4)
def ptpSeqId (bs : List Byte) : Nat := beAt bs (l3Ofs bs + 30) 2

/-- The enabled PTP domain (1 A, 2 B) that a message on a port belongs to, if any (R95). -/
def ptpMatch (s : State) (n dom : Nat) : Option Nat :=
  if s.is TNS_DOMA_CFG_EN && s.rd TNS_DOMA_CFG_PORT == n && s.rd TNS_DOMA_CFG_DOMAIN == dom then some 1
  else if s.is TNS_DOMB_CFG_EN && s.rd TNS_DOMB_CFG_PORT == n && s.rd TNS_DOMB_CFG_DOMAIN == dom then some 2
  else none

/-- A frame is a PTP event message (R95). -/
def ptpEvent (bs : List Byte) : Bool := isPtp bs && ptpType bs < 4

/-- The one-step insertion of R102: a Sync takes the stamp's seconds and nanoseconds and the remainder in its
correctionField; a Pdelay_Resp takes the whole stamp in its correctionField. `st` is a stamp in 1/16 ns. -/
def oneStepInsert (bs : List Byte) (st : Nat) : List Byte :=
  let o := l3Ofs bs
  let cf := beAt bs (o + 8) 8
  if ptpType bs = 0 then
    patch (patch bs (o + 34) (beBytes 6 (st / 16000000000) ++ beBytes 4 (st / 16 % 1000000000)))
      (o + 8) (beBytes 8 ((cf + st % 16 * 4096) % 2 ^ 64))
  else patch bs (o + 8) (beBytes 8 ((cf + st * 4096) % 2 ^ 64))

end Sys2Proof.Machine
end

