-- ==== Sys2Proof/Machine/Flags.lean ====
section
/-! DEFINITION. The computed status of the part: time quality, health and claim, the drive comparison, the alarm
pins, the interrupt levels and their messages. -/

namespace Sys2Proof.Machine

/-! ### Time quality (R91) -/

/-- The estimated time error, in 10^-9 of 2^-32 ns; none is unbounded. -/
def State.timeError (s : State) : Option Nat :=
  let st := s.rd TNS_STAT_STATE
  if st = 2 then some (s.tns.holdE * 10 ^ 9 * nsU)
  else if st = 3 then some (s.tns.holdE * 10 ^ 9 * nsU + s.rd TNS_HOLD_RATE * (s.mono - s.tns.leftAt))
  else none

/-- The time-quality code TNS_STAT.TQ. -/
def State.tqCode (s : State) : Nat :=
  if s.rd TNS_STAT_STATE = 2 then 0
  else
    match s.timeError with
    | none => 15
    | some e =>
      match (List.range 11).find? (fun k => decide (e ≤ 10 ^ k * 10 ^ 9 * nsU)) with
      | some k => k + 1
      | none => 15

/-- The unlocked-time code TNS_STAT.UNLK. -/
def State.unlkCode (s : State) : Nat :=
  if !s.tns.everLocked then 3
  else if s.rd TNS_STAT_STATE = 2 then 0
  else
    let t := (s.mono - s.tns.leftAt) / secU
    if t < 10 then 0 else if t < 100 then 1 else if t < 1000 then 2 else 3

/-! ### Ports -/

/-- The port mode in force: a code the port does not accept acts as 0x0 (R110). -/
def State.portMode (s : State) (n : Nat) : Nat :=
  let m := s.rd (NET_P_CFG_MODE n)
  if n < 4 then (if m ≤ 5 then m else 0) else if m = 8 ∨ m = 9 then m else 0

/-- A port with a mode and no link. -/
def State.portDown (s : State) (n : Nat) : Bool := s.portMode n != 0 && !s.is (NET_P_STAT_LINK n)

/-! ### Health and the claim (R351–R354) -/

/-- The domains PWR_DOMAIN_EN asks for. -/
def State.wanted (s : State) : Nat := 3 + 4 * s.rd PWR_DOMAIN_EN_EN

/-- The conditions of R351, bit by bit. -/
def State.healthCond (s : State) : Nat :=
  let st := s.rd TNS_STAT_STATE
  maskOf 12 (fun i =>
    match i with
    | 0 => s.rd SYS_BOOT_STAT_PHASE != 9
    | 1 => s.rd CLK_STAT_STATE != 0
    | 2 => st == 3
    | 3 => st == 0 || st == 1 || st == 4
    | 4 => s.rd CCD_LANES_FENCED != 0
    | 5 => s.red.ueAt.isSome
    | 6 => (List.range 4).any (fun n => s.portDown n)
    | 7 => s.is CCD_STAT_INQUORATE
    | 8 => s.is LOG_STAT_MEMFAIL
    | 9 => s.red.suspSbyAt.isSome
    | 10 => s.red.suspActAt.isSome
    | _ => (List.range 8).any (fun k => bit s.wanted k == 1 && bit (s.rd PWR_STAT_ON) k == 0))

/-- The sum of the penalties of the conditions that apply. -/
def State.penalty (s : State) (cond : Nat) : Nat :=
  (bitsSet 12 cond).foldl (fun a i =>
    a + (match i with
      | 0 => 255
      | 1 => s.rd RED_HW0_CLK
      | 2 => s.rd RED_HW0_THOLD
      | 3 => s.rd RED_HW0_TOTHER
      | 4 => s.rd RED_HW0_LANE * popCount 16 (s.rd CCD_LANES_FENCED)
      | 5 => s.rd RED_HW1_UE
      | 6 => s.rd RED_HW1_TRUNK * ((List.range 4).filter (fun n => s.portDown n)).length
      | 7 => s.rd RED_HW1_INQ
      | 8 => s.rd RED_HW1_LOG
      | 9 => s.rd RED_HW2_SBY
      | 10 => s.rd RED_HW2_ACT
      | _ => 255)) 0

/-- The 64-bit device serial number (R396). -/
def State.serialNo (s : State) : Nat := s.rd SYS_SN_LO_SN + s.rd SYS_SN_HI_SN * 2 ^ 32

/-- The claim composed from the held health (R7, R352). -/
def State.claimOf (s : State) (held : Nat) : Nat :=
  (if held = 0 then 0 else s.role) * 4096 + held * 16 + s.rd SYS_STRAP_PAIR_POS * 8 + s.serialNo % 8

/-- The comparison of R354 and R16: this unit drives. -/
def State.drives (s : State) : Bool :=
  !s.is RED_STAT_LINK || !s.pairEn
    || decide (s.rd RED_PARTNER_CLAIM < s.rd RED_CLAIM_INFORCE)
    || (s.rd RED_PARTNER_CLAIM == s.rd RED_CLAIM_INFORCE
        && decide (s.rd RED_PSN_LO_SERIAL + s.rd RED_PSN_HI_SERIAL * 2 ^ 32 < s.serialNo))

/-! ### Alarm pins (R261) -/

/-- A definition is active for the pins: DRIVE or LATCHED. -/
def State.defActive (s : State) (d : Nat) : Bool :=
  s.is (ALM_EN d) && (s.is (ALM_DRIVE d) || s.is (ALM_LATCHED d))

/-- The definition level of pin `p`. -/
def State.defLevel (s : State) (p : Nat) : Bool :=
  (List.range 2048).any (fun d => bit (s.rd (ALM_PINS d)) p == 1 && s.defActive d)

/-- The held level of pin `p` given its definition level and its hold. -/
def State.heldLevel (s : State) (p : Nat) (lvl : Bool) : Bool :=
  lvl || s.sch.dly.any (fun e => e.what == .pin p && decide (s.tai < e.due))

/-- Inserts an entry into the delay list, its release time rounded up to a whole microsecond and kept after the
entries of the same time; an entry for the same timer is replaced (R271). -/
def State.delayAdd (s : State) (t : Nat) (what : DlyKind) : State :=
  let us := 1000 * nsU
  let e : Dly := ⟨(t + us - 1) / us * us, what⟩
  let rest := s.sch.dly.filter (fun x => x.what != what)
  { s with sch := { s.sch with dly := rest.takeWhile (fun x => decide (x.due ≤ e.due)) ++ [e] ++ rest.dropWhile (fun x => decide (x.due ≤ e.due)) } }

/-- Removes an entry of the delay list. -/
def State.delayDrop (s : State) (what : DlyKind) : State :=
  { s with sch := { s.sch with dly := s.sch.dly.filter (fun x => x.what != what) } }

/-- Follows the definitions: a rise of a definition level starts the pin's hold (R261). -/
def State.almHolds (s : State) : State :=
  s.each (List.range 16) (fun s p =>
    let lvl := s.defLevel p
    let was := bit s.ana.pinLevel p == 1
    let s := { s with ana := { s.ana with pinLevel := setBits s.ana.pinLevel p 1 (b2n lvl) } }
    if lvl && !was && s.rd (ANA_PIN_CFG_HOLD p) != 0 then
      s.delayAdd (s.tai + s.rd (ANA_PIN_CFG_HOLD p) * 1000000 * nsU) (.pin p)
    else s)

/-- The logical level of pin `p`: FORCE overrides the definitions and any hold. -/
def State.pinLogic (s : State) (p : Nat) : Bool :=
  if s.is (ANA_PIN_CFG_FORCE p) then s.is (ANA_PIN_CFG_FVAL p) else s.heldLevel p (bit s.ana.pinLevel p == 1)

/-- ALM_OUT follows the definitions, the holds, the forces and the claim (R261). -/
def State.almPins (s : State) : State :=
  let s := s.almHolds
  let l := maskOf 16 (fun p => s.pinLogic p)
  (s.wr ANA_PIN_STATE_LOGIC l).wr ANA_PIN_STATE_DRIVEN (if s.is RED_STAT_DRIVING then l else 0)

/-! ### Stream pairs (R144) -/

/-- The system slot rate in force. -/
def State.rate (s : State) : Nat := s.rd CCD_STAT_RATE_ACT

/-- FORMAT class of a stream context. -/
def fmtClass (f : Nat) : Nat := if f ≤ 1 then 0 else f

/-- The partner of a member of a pair in force (R144). -/
def State.pairOf (s : State) (c : Nat) : Option Nat :=
  let p := s.rd (CTX_PARTNER c)
  if s.is (CTX_EN c) && s.is (CTX_PAIRED c) && p != c && s.is (CTX_EN p) && s.is (CTX_PAIRED p) && s.rd (CTX_PARTNER p) == c
      && fmtClass (s.rd (CTX_FORMAT c)) == fmtClass (s.rd (CTX_FORMAT p)) then some p else none

/-- The claim of a member now: 0 once no frame of it has come within ING_PAIR.TMO slot periods; else that of its last Lammar frame, for
other formats W7 in force. -/
def State.claimNow (s : State) (c : Nat) : Nat :=
  match assoc s.ing.heardAt c with
  | none => 0
  | some t =>
    if s.rate ≠ 0 ∧ t + s.eff ING_PAIR_TMO * (secU / s.rate) < s.mono then 0
    else if s.rd (CTX_FORMAT c) = 3 then (assoc s.ing.claims c).getD 0
    else s.rd (CTX_CLAIM c)

/-- The member the claims accept; equal claims accept the lower. -/
def State.pairOwn (s : State) (lo hi : Nat) : Nat := if s.claimNow lo < s.claimNow hi then hi else lo

/-- The current decision for every pair in force: the lower member and the one accepted. -/
def State.decisions (s : State) : List (Nat × Nat) :=
  (List.range 4096).filterMap (fun c =>
    match s.pairOf c with
    | some p => if c < p then some (c, (assoc s.ing.accept c).getD (s.pairOwn c p)) else none
    | none => none)

/-- The driving unit of a pair sends its current decision for every pair in force. -/
def State.sendDecisions (s : State) : State :=
  if s.is RED_STAT_DRIVING && s.is RED_STAT_LINK then { s with red := { s.red with decOut := s.decisions } } else s

/-- The output stages follow the comparison of the claims: alarm pins and pulses at once, publication and pair
acceptance at their next use (R354). -/
def State.driveCompare (s : State) : State :=
  let d := s.red.live && s.drives
  if b2n d = s.rd RED_STAT_DRIVING then s
  else
    let s := (s.wr RED_STAT_DRIVING (b2n d)).cnt RED_HO_CNT_COUNT
    let s := s.ev 0xB012 (b2n d) (s.rd RED_CLAIM_INFORCE) (s.rd RED_PARTNER_CLAIM) 0
    let s := if s.on 2 then s.ev (if d then 0x2120 else 0x2121) (s.rd RED_CLAIM_INFORCE) (s.rd RED_PARTNER_CLAIM) 0 0 else s
    let s := s.sendDecisions
    s.almPins

/-- A new claim in force, with how it came: 1 acknowledged, 2 timeout, 3 rise (R353). -/
def State.claimInForce (s : State) (c how : Nat) : State :=
  let s := { s with red := { s.red with ackAt := none } }
  let s := s.wr RED_STAT_ACKWAIT 0
  if c = s.rd RED_CLAIM_INFORCE then s
  else
    let s := s.wr RED_CLAIM_INFORCE c
    (s.ev 0xB011 c (s.rd RED_PARTNER_CLAIM) how 0).driveCompare

/-- Announces the claim of the held health: a higher claim is in force at once, a lower one after the partner's
acknowledgement or ACK_TMO (R352, R353). -/
def State.announce (s : State) (held : Nat) : State :=
  let s := s.wr RED_HEALTH_HELD held
  let c := s.claimOf held
  let old := s.rd RED_CLAIM_ANNOUNCED
  if c = old then s
  else
    let s := s.wr RED_CLAIM_ANNOUNCED c
    let s := s.ev 0xB010 c old (s.rd RED_HEALTH_COND) 0
    if s.rd RED_CLAIM_INFORCE ≤ c then s.claimInForce c 3
    else
      { s.wr RED_STAT_ACKWAIT 1 with
        red := { s.red with ackAt := some (s.mono + s.eff RED_HOLD_ACK_TMO * 1000 * nsU) } }

/-- The health score is recomputed: a fall is announced at once, a rise after the hold-off (R351, R352). -/
def State.health (s : State) : State :=
  let cond := s.healthCond
  let score := 255 - s.penalty cond
  let old := s.rd RED_HEALTH_SCORE
  let s := (s.wr RED_HEALTH_COND cond).wr RED_HEALTH_SCORE score
  let held := s.rd RED_HEALTH_HELD
  if score < held then
    (({ s with red := { s.red with holdAt := none } }).wr RED_STAT_HOLDOFF 0).announce score
  else if score = held then
    (({ s with red := { s.red with holdAt := none } }).wr RED_STAT_HOLDOFF 0).announce held
  else if s.rd RED_HOLD_HOLDOFF = 0 then
    (({ s with red := { s.red with holdAt := none } }).wr RED_STAT_HOLDOFF 0).announce score
  else if score = old ∧ s.red.holdAt.isSome then s
  else
    ({ s with red := { s.red with holdAt := some (s.mono + s.rd RED_HOLD_HOLDOFF * secU) } }).wr RED_STAT_HOLDOFF 1

/-- The slot period in microseconds, rounded down (R3). -/
def State.slotPeriodUs (s : State) : Nat := if s.rd CCD_STAT_RATE_ACT = 0 then 0 else 1000000 / s.rd CCD_STAT_RATE_ACT

/-! ### Interrupt levels (R39, R400, and each chapter's register section) -/

/-- A mask from a list of bits and tests. -/
def maskBits (l : List (Nat × Bool)) : Nat := l.foldl (fun a p => if p.2 then a + 2 ^ p.1 else a) 0

/-- *blk*_IRQ_STAT of block `b`. -/
def State.irqStat (s : State) (b : Nat) : Nat :=
  match b with
  | 4 => maskOf 28 (fun i =>
      if i < 6 then s.portDown i
      else if 8 ≤ i ∧ i < 14 then s.is (NET_P_FSTAT_THR (i - 8))
      else if 16 ≤ i ∧ i < 22 then s.is (NET_P_FSTAT_OVF (i - 16))
      else if i = 24 ∨ i = 25 then s.portMode (i - 20) == 9 && !s.is (NET_P_STAT_PLCA_ACT (i - 20))
      else if i = 26 then !s.is NET_SREF_STAT_SREF0_OK
      else if i = 27 then !s.is NET_SREF_STAT_SREF1_OK
      else false)
  | 5 => maskBits [(0, (List.range 4096).any (fun c => s.is (CTX_EN c) && !s.is (CTX_DVALID c))),
      (1, !s.on 6 && (match s.ing.codedAt with
        | some t => decide (s.mono < t + secU)
        | none => false))]
  | 6 => maskBits [(0, (List.range 24).any (fun k => bit (s.rd ACQ_LANE_EN_EN) k == 1 && !s.is (ACQ_L_STAT_LOCK k))),
      (1, s.is ACQ_STAT_GAP), (2, s.is ACQ_STI_CHAT_LO_CHAT || s.is ACQ_STI_CHAT_HI_CHAT),
      (3, (List.range 24).any (fun k => s.is (ACQ_L_STAT_SATCH k)))]
  | 7 => maskBits [(0, s.is PHS_HS_MISS_MISS), (1, (List.range 8).any (fun d => s.is (PHS_LOM_STAT_RC d))),
      (2, (List.range 8).any (fun d => s.is (PHS_LOM_STAT_VS d))), (3, (List.range 16).any (fun m => s.is (PHS_SSO_STAT_FLAG m))),
      (4, (List.range 8).any (fun d => s.is (PHS_LOM_STAT_BLOCKED d)))]
  | 8 => maskBits [(0, s.is CCD_STAT_HELD), (1, s.is CCD_STAT_INQUORATE),
      (2, s.rd CCD_MISS_EV_RUN != 0 && (List.range 4096).any (fun c => decide (s.rd CCD_MISS_EV_RUN ≤ s.rd (CTX_MISSRUN c)))),
      (3, decide (s.rd CCD_LANES_COUNT < 16)), (4, s.is CCD_SPECSTAT_CATCHUP),
      (5, decide (16 * s.slotPeriodUs < s.rd CCD_LAG_US))]
  | 9 => maskBits [(0, decide (1 < s.rd ANA_ISL_CNT_COUNT)), (1, (List.range 32).any (fun g => s.is (ANA_GRP_STAT_DIV g))),
      (2, s.is ANA_PIN_STATE_LOGIC), (3, (List.range 1024).any (fun w => s.is (WAT_EN w) && !s.is (WAT_READY w)))]
  | 10 => maskBits [(0, s.is SCH_STAT_SHED), (1, s.is SCH_STAT_HOLD), (2, s.is SCH_SUB_STAT_FULL)]
  | 11 => maskBits [(0, !s.is RED_STAT_DRIVING), (1, (List.range 6).any (fun n => decide (262144 < s.rd (PUB_QLVL_BYTES n)))),
      (2, (List.range 64).any (fun o => s.is (OST_EN o) && s.rd (OST_FORMAT o) == 0 && !s.is (OST_TXON o)))]
  | 12 => maskBits [(0, (List.range 48).any (fun p => s.is (MPT_FALLBACK p)) || (List.range 256).any (fun t => s.is (TPT_FALLBACK t))),
      (1, (List.range 48).any (fun p => s.is (MPT_GAP p)) || s.qty.points.any (fun p => p.2.gap.isSome)), (2, (List.range 256).any (fun t => s.is (TPT_STALE t))),
      (3, decide (288 < s.rd QTY_REC_STAT_COUNT)), (4, (List.range 16).any (fun j => decide (0x8000 < s.rd (QTY_PLS_STAT_BACKLOG j))))]
  | 13 => maskBits [(0, s.is CAP_STAT_BLOCKED), (1, s.is CAP_STAT_CLAMPED),
      (2, (List.range 64).any (fun i => s.rd (CAP_CAPT_W0_STATE i) == 2)), (3, s.cap.deadFrom.isSome)]
  | 14 => maskBits [(0, s.is (ELS_J_STAT_DONE 0) || s.is (ELS_J_STAT_PAUSED 0)), (1, s.is (ELS_J_STAT_DONE 1) || s.is (ELS_J_STAT_PAUSED 1))]
  | 15 => maskBits [(0, s.is LOG_STAT_MEMFAIL), (1, decide (240 ≤ s.log.inq.length)),
      (2, match s.log.lastCrit with
        | some t => decide (s.mono < t + secU)
        | none => false), (3, s.log.ring.length == 65536)]
  | 16 => maskBits [(0, !s.is RED_STAT_DRIVING), (1, s.pairEn && !s.is RED_STAT_LINK), (2, s.is RED_STAT_ONE_LANE),
      (3, s.rd CCD_LANES_FENCED != 0), (4, let r := s.rd (RED_AUD_W 3) % 8
        decide (1 ≤ r) && decide (r ≤ 5))]
  | 17 => maskBits [(0, (List.range 64).any (fun k => s.rd (KSL_STATE k) == 2)), (1, match s.key.refusedAt with
        | some t => decide (s.mono < t + secU)
        | none => false)]
  | 18 => maskBits [(0, s.is FWU_STG_STAT_DONE), (1, s.is FWU_STAT_TRIAL), (2, s.is FWU_STAT_REJECT)]
  | _ => 0

/-- Source `b` is active: an enabled cause of the block is present. -/
def State.irqSource (s : State) (b : Nat) : Bool :=
  b != 0 && s.on (blkDom b) && (List.range 32).any (fun i => bit (s.rd (BLK_IRQ_EN_EN b)) i == 1 && bit (s.irqStat b) i == 1)

/-- SYS_IRQ_SUM (R38, R400). -/
def State.irqSum (s : State) : Nat := maskOf 20 (fun b => s.irqSource b)

/-- The IRQ_N lines asserted, as a mask (R39). -/
def State.irqLines (s : State) : Nat :=
  maskOf 4 (fun m => (List.range 20).any (fun b => bit (s.rd (SYS_IRQ_ROUTE_LINES b)) m == 1 && s.irqSource b))

/-- SYS_NMI_CAUSE as one word. -/
def State.nmiCause (s : State) : Nat :=
  maskOf 5 (fun i => s.is { SYS_NMI_CAUSE_CLKFAIL with lo := i })

/-- NMI_N is asserted (R40). -/
def State.nmiLine (s : State) : Bool := s.nmiCause != 0

/-- Sets a cause of SYS_NMI_CAUSE (R40). -/
def State.setNmi (s : State) (f : Field) : State := s.wr f 1

/-- The Vector Control word of MSI-X vector `v` in BAR2, placed in block 19 (R43, DESIGN CHOICE, log 4, PRESUMED, log 8). -/
def msixCtl (v : Nat) : Field := ⟨2 ^ 32 * 153 + 16 * v + 12, 0, 1, .rw, 1, 0, 1, false, false, false⟩

/-- Vector `v` is masked. -/
def State.msixMasked (s : State) (v : Nat) : Bool := s.is (msixCtl v)

/-- The lines follow their sources, and MSI-X messages follow the lines that went from deasserted to asserted in
PCIe operation (R39–R41). -/
def irqNotify (s : State) : State :=
  let now := s.irqLines
  let nmi := s.nmiLine
  let new := (List.range 5).filter (fun v =>
    (if v < 4 then bit now v == 1 && bit s.fab.lines v == 0 else nmi && !s.fab.nmi)
      && !s.msixMasked v && s.boot.hostPort == 0 && s.on 7)
  { s with fab := { s.fab with lines := now, nmi := nmi, msix := new } }

/-- The lines asserted among IRQ_N[3:0] where their pins are driven; none before PD1 runs, and in PCIe operation under
HST_CFG.PINS_OFF (R41). -/
def State.irqPins (s : State) : Option Nat :=
  if s.up && !(s.boot.hostPort == 0 && s.boot.pinsOff) then some s.fab.lines else none

/-- NMI_N asserted, where its pin is driven: whatever PINS_OFF holds (R41). -/
def State.nmiPin (s : State) : Option Bool := if s.up then some s.fab.nmi else none

/-- The state a command leaves when its effect on `s` is `t`: the queue of waiting commands is as it was, and the lines follow. -/
def finish (s t : State) : State := irqNotify { t with pending := s.pending }

/-- The outcome of a command whose effect on `s` is `t`. -/
def done (s t : State) : Host.Outcome State Fault Refusal := .next (finish s t)

/-- What a step does when no command waits: a core tick passes (DESIGN CHOICE, log 3). -/
def idle (s : State) : Host.Outcome State Fault Refusal := done s s.tick

end Sys2Proof.Machine
end

