-- ==== Sys2Proof/Machine/KeyStore.lean ====
section
/-! DEFINITION. The key store and the life cycle: slots, loading and replacing keys, revocation, uses, and the cells
(R365–R376). What the spec leaves open here: DEDUCED, log 29. -/

namespace Sys2Proof.Machine

/-! ### Life cycle (R365) -/

/-- The life-cycle state in force: the vote over the PD0 field, else the fuses. -/
def State.lc (s : State) : Nat :=
  (vote (nth s.key.lc 0 0) (nth s.key.lc 1 0) (nth s.key.lc 2 0)).getD s.key.fuseLc

/-! ### Slots (R368) -/

/-- Draws `n` open words of 32 bits. -/
def State.drawN (s : State) (n : Nat) : List Nat × State :=
  ((List.range n).map (fun i => (Config.freeValue (s.free + i)).toNat % 2 ^ 32), { s with free := s.free + n })

/-- Draws a new challenge into a register pair. -/
def State.newChallenge (s : State) (lo hi : Field) : State :=
  let (v, s) := s.draw
  (s.wr lo (v % 2 ^ 32)).wr hi (v / 2 ^ 32)

/-- The bytes of the 20-byte message that a response authenticates: challenge, serial number, word. -/
def State.authMsg (s : State) (lo hi : Field) (word : Nat) : List Byte :=
  leBytes 4 (s.rd lo) ++ leBytes 4 (s.rd hi) ++ leBytes 8 s.serialNo ++ leBytes 4 word

/-- The key a pair of shares holds (R375). -/
def sharesKey (h : Shares) : List Nat := List.zipWith (fun a b => a ^^^ b) h.s1 h.s2

/-- Splits key words into shares under a mask. -/
def mkShares (k mask : List Nat) : Shares := ⟨List.zipWith (fun a b => a ^^^ b) k mask, mask⟩

/-- The current key of a slot. -/
def State.curKey (s : State) (k : Nat) : Option (List Nat) :=
  if k < 4 then (assoc s.key.otp k).map (fun o => o.mat) else (assoc s.key.cur k).map sharesKey

/-- The key check value of material of a type, 24 bits, first byte most significant; none for a public key off the curve (R371). The
material's words are bytes least significant first (DEDUCED, log 51). -/
def keyCheck (typ : Nat) (mat : List Nat) : Option Nat :=
  match typ with
  | 1 => some (Config.aesZero mat / 2 ^ 104 % 2 ^ 24)
  | 2 => some (Config.hmacSha256 mat (zeros 16) / 2 ^ 232 % 2 ^ 24)
  | 3 => some (Config.sha256 (Config.ecdsaPublic mat) / 2 ^ 232 % 2 ^ 24)
  | 4 => if Config.ecdsaOnCurve mat then some (Config.sha256 (mat.flatMap (leBytes 4)) / 2 ^ 232 % 2 ^ 24) else none
  | _ => none

/-- The keys that a verifying use accepts: the current one, and in overlap the previous one (R372). -/
def State.verifyKeys (s : State) (k : Nat) : List (List Nat) :=
  (s.curKey k).toList ++ ((assoc s.key.prev k).map sharesKey).toList

/-- Writes the read-only entry of an OTP slot from its fuses. -/
def State.otpEntry (s : State) (k : Nat) : State :=
  let s := (s.wr (KSL_OTP k) 1).wr (KSL_REVOKED k) (bit s.key.otpRev k)
  match assoc s.key.otp k with
  | none => s
  | some o =>
    ((((s.wr (KSL_STATE k) 1).wr (KSL_TYPE k) 4).wr (KSL_WORLD k) (if k < 2 then 3 else 4)).wr (KSL_MASTERS k) o.masters).wr
      (KSL_KCV k) ((keyCheck 4 o.mat).getD 0)

/-- KEY_STAT as the fuses and the life-cycle field give it. -/
def State.keyStat (s : State) : State :=
  ((((s.wr KEY_STAT_LC s.lc).wr KEY_STAT_DEVKEY (b2n s.key.devKey)).wr KEY_STAT_OTP_PROG (maskOf 4 (fun k => (assoc s.key.otp k).isSome))).wr
    KEY_STAT_OTP_REV s.key.otpRev).wr FWU_ROLLBACK_COUNT s.key.rollback

/-- Empties a RAM slot: both keys are zeroised and the entry reads as after reset (R370). -/
def State.keyEmpty (s : State) (k : Nat) : State :=
  let s := { s with key := { s.key with cur := assocDel s.key.cur k, prev := assocDel s.key.prev k, ovl := assocDel s.key.ovl k } }
  s.each [KSL_STATE k, KSL_TYPE k, KSL_WORLD k, KSL_MASTERS k, KSL_LCMASK k, KSL_KCV k, KSL_PKCV k, KSL_KEYID k, KSL_PKEYID k,
    KSL_USES k] (fun s f => s.wr f 0)

/-! ### Use of keys (R376) -/

/-- Why a use of a slot for a world is refused: the reason, or none. `types` are the key types that suit the
operation; `m` is the master of a master-initiated use. -/
def State.keyUse (s : State) (slot world : Nat) (types : List Nat) (m : Option Master) : Option Nat :=
  if s.rd (KSL_STATE slot) = 0 ∨ (s.curKey slot).isNone then some 1
  else if slot < 4 ∧ bit s.key.otpRev slot = 1 then some 2
  else if s.rd (KSL_WORLD slot) ≠ world then some 3
  else if !types.contains (s.rd (KSL_TYPE slot)) then some 4
  else if s.lc = 3 ∧ ¬(world = 3 ∧ slot < 2) then some 5
  else if 4 ≤ slot ∧ bit (s.rd (KSL_LCMASK slot)) s.lc = 0 then some 5
  else
    match m with
    | some m => if bit (s.rd (KSL_MASTERS slot)) (mNum m) = 0 then some 6 else none
    | none => none

/-- A refused use: counted, and recorded; for an ingest context or an output stream (`who`) once until the slot is
next loaded. -/
def State.keyRefuse (s : State) (slot world reason user : Nat) (who : Option Nat) : State :=
  let s := { s.cnt KEY_ERR_COUNT with key := { s.key with refusedAt := some s.mono } }
  match who with
  | none => s.ev 0xC301 slot world reason user
  | some w =>
    let k := (slot, user * 65536 + w)
    if s.key.refused.contains k then s
    else ({ s with key := { s.key with refused := k :: s.key.refused } }).ev 0xC301 slot world reason user

/-- Counts a use of a slot; the count saturates (R368). -/
def State.keyUsed (s : State) (slot : Nat) : State := s.wr (KSL_USES slot) (min (s.rd (KSL_USES slot) + 1) 65535)

/-! ### Loading (R369–R374) -/

/-- What a load brings. -/
structure KeyIn where
  slot : Nat
  typ : Nat
  world : Nat
  masters : Nat
  lcmask : Nat
  kcv : Nat
  keyid : Nat
  ovl : Nat
  mat : List Nat
  deriving DecidableEq, Repr

/-- The combinations of slot, WORLD and TYPE that are accepted (R369). -/
def attrOk (slot world typ : Nat) : Bool :=
  if slot < 2 then world == 3 && typ == 4
  else if slot < 4 then world == 4 && typ == 4
  else (world == 1 && (typ == 1 || typ == 2)) || (world == 2 && typ == 3) || ((world == 5 || world == 6) && typ == 2)

/-- Words of key material of a type. -/
def matWords (typ : Nat) : Nat := if typ = 1 then 4 else if typ = 4 then 16 else 8

/-- The seal is set (R314). -/
def State.sealedNow (s : State) : Bool := s.rdV 1 QTY_SEAL_SEALED != 0

/-- Why a load of a RAM slot fails: ERR, or none. `boot` is none at run time and, in step 13, whether the item
stands in a SEALED section. -/
def State.loadErr (s : State) (m : Master) (boot : Option Bool) (k : KeyIn) : Option Nat :=
  if k.slot < 4 then some 6
  else if s.lc = 3 then some 7
  else if s.rd (KSL_STATE k.slot) ≠ 0 ∧ boot = none ∧ bit (s.rd (KSL_MASTERS k.slot)) (mNum m) = 0 then some 2
  else if s.sealedNow ∧ (s.rd (KSL_WORLD k.slot) = 2 ∨ k.world = 2) ∧ boot ≠ some true then some 9
  else if !attrOk k.slot k.world k.typ then some 3
  else if keyCheck k.typ (k.mat.take (matWords k.typ)) ≠ some k.kcv then some 1
  else if s.rd (KSL_STATE k.slot) = 2 then some 4
  else none

/-- The load: the new key becomes current; a key already in the slot becomes previous and the overlap starts (R372). -/
def State.loadKey (s : State) (m : Master) (k : KeyIn) : State :=
  let n := k.slot
  let repl := s.rd (KSL_STATE n) == 1
  let mat := k.mat.take (matWords k.typ)
  let (mask, s) := s.drawN mat.length
  let old := assoc s.key.cur n
  let key := { s.key with cur := assocSet s.key.cur n (mkShares mat mask), refused := s.key.refused.filter (fun p => p.1 != n) }
  let key := match old with
    | some o => if repl then { key with prev := assocSet key.prev n o,
                                        ovl := assocSet key.ovl n (if k.ovl = 0 then none else some (s.mono + k.ovl * secU)) } else key
    | none => key
  let s := { s with key := key }
  let s := if repl then ((s.wr (KSL_PKCV n) (s.rd (KSL_KCV n))).wr (KSL_PKEYID n) (s.rd (KSL_KEYID n))).wr (KSL_STATE n) 2
    else s.wr (KSL_STATE n) 1
  let s := ((((((s.wr (KSL_TYPE n) k.typ).wr (KSL_WORLD n) k.world).wr (KSL_MASTERS n) k.masters).wr (KSL_LCMASK n) k.lcmask).wr
    (KSL_KCV n) k.kcv).wr (KSL_KEYID n) k.keyid).wr (KSL_USES n) 0
  (s.cnt KEY_LOADS_COUNT).ev 0xC300 n k.kcv (if repl then 2 else 1) (mNum m)

/-- The material words of a master's loader. -/
def State.ldMat (s : State) (m : Master) (n : Nat) : List Nat := (List.range n).map (fun i => s.rd (forM m (KEY_LD_MAT_MAT i)))

/-- The key a master's loader registers describe. -/
def State.ldKey (s : State) (m : Master) : KeyIn :=
  ⟨s.rd (forM m KEY_LD_SLOT_SLOT), s.rd (forM m KEY_LD_ATTR_TYPE), s.rd (forM m KEY_LD_ATTR_WORLD), s.rd (forM m KEY_LD_ATTR_MASTERS),
   s.rd (forM m KEY_LD_ATTR_LCMASK), s.rd (forM m KEY_LD_KCV_KCV), s.rd (forM m KEY_LD_KEYID_KEYID), s.rd (forM m KEY_LD_OVL_SEC),
   s.ldMat m 16⟩

/-- The key of a wrapped blob of 28 words, when the blob is well formed and its tag verifies (R374). -/
def unwrapBlob (w : List Nat) : Option KeyIn :=
  let a (i : Nat) := nth w i 0
  let slot := a 1 % 256
  if a 0 ≠ 0x574B4B47 ∨ bits (a 1) 8 8 ≠ 1 ∨ slot < 4 ∨ 63 < slot ∨ a 3 / 2 ^ 24 ≠ 0 then none
  else (Config.keyUnwrap w).map (fun mat =>
    ⟨slot, bits (a 2) 8 4, bits (a 2) 12 3, bits (a 2) 16 2, bits (a 2) 20 3, a 3, a 4, a 1 / 65536, mat⟩)

/-- The end of a command: the job that KEY_COMMAND_DONE finishes. A failure records 0xC302. -/
def State.keyEnds (s : State) (m : Master) (cmd slot us : Nat) (err : Option Nat) : State :=
  let s := match err with
    | some e => s.ev 0xC302 slot cmd e (mNum m)
    | none => s
  let s := ((s.wr (forM m KEY_LD_STAT_BUSY) 1).wr (forM m KEY_LD_STAT_OK) 0).wr (forM m KEY_LD_STAT_ERR) 0
  { s with key := { s.key with job := some ⟨m, cmd, s.mono + us * 1000 * nsU, err.isNone, err.getD 0⟩ } }

/-- Clears a master's material registers (R370). -/
def State.clearMat (s : State) (m : Master) : State :=
  s.each (List.range 28) (fun s i => s.wr (forM m (KEY_LD_MAT_MAT i)) 0)

/-- A key-store command of a master: one that finds the store busy ends with ERR 8 at once (R370). -/
def State.keyCmd (s : State) (m : Master) (cmd : Nat) (run : State → State) : State :=
  s.accessW m 0xF0100 cmd (fun s =>
    if s.key.job.isSome then
      let s := s.clearMat m
      let s := (s.wr (forM m KEY_LD_STAT_OK) 0).wr (forM m KEY_LD_STAT_ERR) 8
      s.ev 0xC302 (s.rd (forM m KEY_LD_SLOT_SLOT)) cmd 8 (mNum m)
    else run s)

/-- The time a load takes at most, in µs: 20, or 2,000 for an ECDSA private key (R370). -/
def loadUs (typ : Nat) : Nat := if typ = 3 then 2000 else 20

/-- KEY_LOAD (R370–R373). -/
def execKeyLoad (m : Master) (s : State) : Host.Outcome State Fault Refusal :=
  done s (s.keyCmd m 1 (fun s =>
    let k := s.ldKey m
    match s.loadErr m none k with
    | some e => s.keyEnds m 1 k.slot (loadUs k.typ) (some e)
    | none => (s.loadKey m k).keyEnds m 1 k.slot (loadUs k.typ) none))

/-- The load of a wrapped blob (R374), also for the items of KEY sections in step 13. -/
def State.loadWrapped (s : State) (m : Master) (boot : Option Bool) : State :=
  let ls := s.rd (forM m KEY_LD_SLOT_SLOT)
  if !s.key.devKey then s.keyEnds m 2 ls 30 (some 5)
  else
    match unwrapBlob (s.ldMat m 28) with
    | none => s.keyEnds m 2 ls 30 (some 5)
    | some k =>
      match s.loadErr m boot k with
      | some e => s.keyEnds m 2 k.slot (loadUs k.typ + 10) (some e)
      | none => (s.loadKey m k).keyEnds m 2 k.slot (loadUs k.typ + 10) none

/-- KEY_LOAD_WRAPPED (R374). -/
def execKeyLoadWrapped (m : Master) (s : State) : Host.Outcome State Fault Refusal :=
  done s (s.keyCmd m 2 (fun s => s.loadWrapped m none))

/-- The overlap of a slot ends: the previous key is zeroised (R372). -/
def State.overlapEnds (s : State) (k how : Nat) : State :=
  let p := s.rd (KSL_PKCV k)
  let s := { s with key := { s.key with prev := assocDel s.key.prev k, ovl := assocDel s.key.ovl k } }
  ((((s.wr (KSL_STATE k) 1).wr (KSL_PKCV k) 0).wr (KSL_PKEYID k) 0)).ev 0xC303 k p how 0

/-- A slot that a command on an occupied RAM slot may act on: ERR 6 or 2, or none. -/
def State.occupiedErr (s : State) (m : Master) (k : Nat) : Option Nat :=
  if k < 4 ∨ s.rd (KSL_STATE k) = 0 then some 6
  else if bit (s.rd (KSL_MASTERS k)) (mNum m) = 0 then some 2
  else none

/-- KEY_END_OVERLAP (R372). -/
def execKeyEndOverlap (m : Master) (s : State) : Host.Outcome State Fault Refusal :=
  done s (s.keyCmd m 3 (fun s =>
    let k := s.rd (forM m KEY_LD_SLOT_SLOT)
    match s.occupiedErr m k with
    | some e => s.keyEnds m 3 k 5 (some e)
    | none => if s.rd (KSL_STATE k) ≠ 2 then s.keyEnds m 3 k 5 (some 6) else (s.overlapEnds k 2).keyEnds m 3 k 5 none))

/-- KEY_DESTROY (R370, R373). -/
def execKeyDestroy (m : Master) (s : State) : Host.Outcome State Fault Refusal :=
  done s (s.keyCmd m 4 (fun s =>
    let k := s.rd (forM m KEY_LD_SLOT_SLOT)
    match s.occupiedErr m k with
    | some e => s.keyEnds m 4 k 5 (some e)
    | none =>
      if s.sealedNow ∧ s.rd (KSL_WORLD k) = 2 then s.keyEnds m 4 k 5 (some 9)
      else ((s.keyEmpty k).ev 0xC304 k (mNum m) 0 0).keyEnds m 4 k 5 none))

/-- KEY_WRAP_OUT (R374): the blob takes OVERLAP from the master's KEY_LD_OVL and its IV from the random source. -/
def execKeyWrapOut (m : Master) (s : State) : Host.Outcome State Fault Refusal :=
  done s (s.keyCmd m 5 (fun s =>
    let k := s.rd (forM m KEY_LD_SLOT_SLOT)
    if !s.key.devKey then s.keyEnds m 5 k 20 (some 5)
    else
      match s.occupiedErr m k with
      | some e => s.keyEnds m 5 k 20 (some e)
      | none =>
        let (iv, s) := s.drawN 3
        let attr := s.rd (KSL_TYPE k) * 2 ^ 8 + s.rd (KSL_WORLD k) * 2 ^ 12 + s.rd (KSL_MASTERS k) * 2 ^ 16 + s.rd (KSL_LCMASK k) * 2 ^ 20
        let hd := [0x574B4B47, k + 2 ^ 8 + s.rd (forM m KEY_LD_OVL_SEC) * 2 ^ 16, attr, s.rd (KSL_KCV k), s.rd (KSL_KEYID k)] ++ iv
        let mat := ((s.curKey k).getD []) ++ List.replicate 16 0
        let blob := hd ++ Config.keyWrap (hd ++ mat.take 16)
        (s.each (List.range 28) (fun s i => s.wr (forM m (KEY_WRAP_OUT_BLOB i)) (nth blob i 0))).keyEnds m 5 k 20 none))

/-- KEY_PROGRAM_OTP (R365, R370). -/
def execKeyProgramOtp (m : Master) (s : State) : Host.Outcome State Fault Refusal :=
  done s (s.keyCmd m 6 (fun s =>
    let k := s.ldKey m
    let n := k.slot
    let err : Option Nat :=
      if 4 ≤ n ∨ (assoc s.key.otp n).isSome ∨ bit s.key.otpRev n = 1 then some 6
      else if !((s.lc == 0 && decide (n < 2)) || (s.lc == 1 && decide (2 ≤ n))) then some 7
      else if !attrOk n k.world k.typ then some 3
      else if keyCheck 4 k.mat ≠ some k.kcv then some 1
      else none
    match err with
    | some e => s.keyEnds m 6 n 50000 (some e)
    | none =>
      let s := { s with key := { s.key with otp := assocSet s.key.otp n ⟨k.mat, k.masters⟩ } }
      (((s.otpEntry n).keyStat).ev 0xC306 n k.kcv (mNum m) 0).keyEnds m 6 n 50000 none))

/-- A command ends: the material is cleared, the result reported, and the store is free (R370). -/
def State.keyDone (s : State) (m : Master) (j : KeyJob) : State :=
  let s := (s.clearMat m).wr (forM m KEY_LD_STAT_BUSY) 0
  let s := (s.wr (forM m KEY_LD_STAT_OK) (b2n j.ok)).wr (forM m KEY_LD_STAT_ERR) j.err
  { s with key := { s.key with job := none } }

/-- KEY_COMMAND_DONE (R370): the command of master `m` ends, no later than its bound. -/
def execKeyCommandDone (m : Master) (s : State) : Host.Outcome State Fault Refusal :=
  done s (
    match s.key.job with
    | some j => if j.master = m then (s.waitUntil j.doneAt).keyDone m j else s
    | none => s)

/-- KEY_OVERLAP_EXPIRY (R372): the overlap time of a slot runs out. -/
def execKeyOverlapExpiry (slot : Nat) (s : State) : Host.Outcome State Fault Refusal :=
  done s (
    match assoc s.key.ovl slot with
    | some (some t) => if s.up then (s.waitUntil t).overlapEnds slot 1 else s
    | _ => s)

/-! ### The cells (R375) -/

/-- An uncorrectable error in a share of a slot's key empties the slot. -/
def State.keyCellUe (s : State) (k : Nat) : State :=
  ((s.keyEmpty k).cnt KEY_CELL_UE_COUNT).ev 0xC305 k 0 0 0

/-- Rewrites the shares of a list of keys under fresh masks. -/
def State.remask (s : State) (l : List (Nat × Shares)) : List (Nat × Shares) × State :=
  l.foldl (fun (a, s) p =>
    let k := sharesKey p.2
    let (mask, s) := s.drawN k.length
    (a ++ [(p.1, mkShares k mask)], s)) ([], s)

/-- KEY_MASK_REFRESH (R375): every millisecond; `bad` is a RAM slot whose cells are found uncorrectable. -/
def execKeyMaskRefresh (bad : Option Nat) (s : State) : Host.Outcome State Fault Refusal :=
  done s (
    if !s.up then s
    else
      let s := s.waitUntil s.key.refreshAt
      let s := match bad with
        | some k => if 4 ≤ k ∧ (assoc s.key.cur k).isSome then s.keyCellUe k else s
        | none => s
      let (c, s) := s.remask s.key.cur
      let (p, s) := s.remask s.key.prev
      { s with key := { s.key with cur := c, prev := p, refreshAt := s.mono + 1000000 * nsU } })

/-- OTP_REVOKE (R375): each slot named that the writer may revoke is revoked; the last firmware slot is not. -/
def execOtpRevoke (m : Master) (v : Nat) (s : State) : Host.Outcome State Fault Refusal :=
  done s (s.accessW m 0xF0024 v (fun s =>
    let left := (List.range 2).filter (fun k => bit s.key.otpRev k == 0 && !(bit v k == 1 && bit (s.rd (KSL_MASTERS k)) (mNum m) == 1))
    let fw := (List.range 2).any (fun k => bit v k == 1 && bit s.key.otpRev k == 0 && bit (s.rd (KSL_MASTERS k)) (mNum m) == 1)
    if fw && left.isEmpty then s.ev 0xC311 (v % 16) 4 (mNum m) 0
    else
      s.each (bitsSet 4 v) (fun s k =>
        if bit (s.rd (KSL_MASTERS k)) (mNum m) = 1 ∧ bit s.key.otpRev k = 0 then
          let s := { s with key := { s.key with otpRev := s.key.otpRev + 2 ^ k } }
          ((s.otpEntry k).keyStat).ev 0xC307 k (mNum m) 0 0
        else s)))

/-! ### Life-cycle commands (R366, R367) -/

/-- A life-cycle transition burns its fuse. -/
def State.lcBurn (s : State) (m : Master) (new slot : Nat) : State :=
  let old := s.lc
  let s := { s with key := { s.key with fuseLc := new, lc := [new, new, new] } }
  s.keyStat.ev 0xC310 new old (mNum m) slot

/-- R367: what entry to decommissioned does; QTY_SEAL_VIOL returns to 0 with the seal (R314). -/
def State.decommission (s : State) : State :=
  let s := s.each ((List.range 60).map (fun i => i + 4)) (fun s k => s.keyEmpty k)
  let s := { s with key := { s.key with devKey := false,
                                        otpRev := s.key.otpRev % 4 + 12 } }
  ((((s.otpEntry 2).otpEntry 3).keyStat).wrV QTY_SEAL_SEALED 0).wr QTY_SEAL_VIOL_COUNT 0

/-- A life-cycle command: the challenge is consumed and a new one drawn, then the command's condition decides. The
condition answers a reason of 0xC311, or the key slot of the transition. -/
def State.lcCmd (s : State) (m : Master) (code : Nat) (cond : State → List Byte → State × (Nat ⊕ Nat)) (after : State → State) : State :=
  s.accessW m 0xF0004 code (fun s =>
    let msg := s.authMsg KEY_LC_CHAL_LO_CHAL KEY_LC_CHAL_HI_CHAL code
    let s := s.newChallenge KEY_LC_CHAL_LO_CHAL KEY_LC_CHAL_HI_CHAL
    match cond s msg with
    | (s, .inl r) => s.ev 0xC311 code r (mNum m) 0
    | (s, .inr slot) => after (s.lcBurn m (code % 4) slot))

/-- LC_TO_PROVISIONED (R366): needs OTP slot 0 programmed. -/
def execLcToProvisioned (m : Master) (s : State) : Host.Outcome State Fault Refusal :=
  done s (s.lcCmd m 0x4C430001 (fun s _ =>
    if 1 ≤ s.lc then (s, .inl 3) else if (assoc s.key.otp 0).isNone then (s, .inl 1) else (s, .inr 0xFF)) id)

/-- LC_TO_DEPLOYED (R366): needs OTP slot 2 or 3 programmed. -/
def execLcToDeployed (m : Master) (s : State) : Host.Outcome State Fault Refusal :=
  done s (s.lcCmd m 0x4C430002 (fun s _ =>
    if 2 ≤ s.lc then (s, .inl 3)
    else if (assoc s.key.otp 2).isNone ∧ (assoc s.key.otp 3).isNone then (s, .inl 1) else (s, .inr 0xFF)) id)

/-- LC_TO_DECOMMISSIONED (R366, R367): from deployed the response is checked under the slot of KEY_LC_AUTH. -/
def execLcToDecommissioned (m : Master) (s : State) : Host.Outcome State Fault Refusal :=
  done s (s.lcCmd m 0x4C430003 (fun s msg =>
    if s.lc = 3 then (s, .inl 3)
    else if s.lc = 0 then (s, .inl 1)
    else if s.lc = 1 then (s, .inr 0xFF)
    else
      let slot := s.rd KEY_LC_AUTH_KEYSLOT
      match s.keyUse slot 6 [2] (some m) with
      | some r => (s.keyRefuse slot 6 r 7 none, .inl 2)
      | none =>
        let resp := (List.range 4).flatMap (fun i => leBytes 4 (s.rd (KEY_LC_RESP_RESP i)))
        let s := s.keyUsed slot
        if (s.verifyKeys slot).any (fun k => beBytes 16 (Config.hmacSha256 k msg / 2 ^ 128) == resp) then (s, .inr slot)
        else (s, .inl 2)) State.decommission)

/-! ### Resets -/

/-- What a reset of PD1 leaves of the key store: the RAM slots are empty, the cell addresses are scrambled anew, and
the slots of the fuses read as burnt (R368, R375). `porst` reloads the life-cycle field (R365). -/
def State.keyReset (s : State) (porst : Bool) : State :=
  let (v, s) := s.draw
  let s := { s with key := { s.key with cur := [], prev := [], ovl := [], job := none, refused := [], refusedAt := none, scramble := v,
                                        refreshAt := s.mono + 1000000 * nsU,
                                        lc := if porst then [s.key.fuseLc, s.key.fuseLc, s.key.fuseLc] else s.key.lc } }
  (((List.range 4).foldl (fun s k => s.otpEntry k) s).keyStat.wr KEY_STAT_READY 1).newChallenge KEY_LC_CHAL_LO_CHAL KEY_LC_CHAL_HI_CHAL

end Sys2Proof.Machine
end

