-- ==== Sys2Proof/Machine/Recorder.lean ====
section
/-! DEFINITION. The event recorder: records, rate limits, reading, statistics objects, clearing, the NOR mirror, degraded
mode and the last-gasp file (R333–R348). What the spec leaves open here: DEDUCED, log 28. -/

namespace Sys2Proof.Machine

/-! ### Records (R333, R347) -/

/-- The eight words of a record. -/
def recWords (r : Rec) : List Nat :=
  [r.seq, r.sec, r.ns + b2n r.crit * 2 ^ 30 + b2n r.lg * 2 ^ 31, r.epoch + r.code * 65536, r.p0, r.p1, r.p2, r.p3]

/-- A record read back from its eight words. -/
def recOfWords (w : List Nat) : Rec :=
  let a (i : Nat) := nth w i 0
  ⟨a 0, a 1, a 2 % 2 ^ 30, bit (a 2) 30 == 1, bit (a 2) 31 == 1, a 3 % 65536, a 3 / 65536, a 4, a 5, a 6, a 7⟩

/-- The newest sequence number assigned. -/
def State.newestSeq (s : State) : Nat := (s.log.nextSeq + 2 ^ 32 - 1) % 2 ^ 32

/-- Puts a record into the ring; a full ring overwrites its oldest (R338). -/
def ringPush (r : Rec) (l : Recorder) : Recorder :=
  let ring := if l.ring.length < 65536 then l.ring else l.ring.drop 1
  { l with ring := ring ++ [r], bad := l.bad.filter (fun k => k != l.wp), wp := (l.wp + 1) % 65536 }

/-- Writes a record to the last-gasp file, LG set, each word three times (R347). -/
def lgPush (r : Rec) (l : Recorder) : Recorder :=
  { l with lg := assocSet l.lg l.lgHead ((recWords { r with lg := true }).map (fun w => (w, w, w))),
           lgHead := (l.lgHead + 1) % 16 }

/-- Queues a critical record for the mirror; one that finds 64 waiting is lost and counted (R345). -/
def State.mirrorQueue (s : State) (r : Rec) : State :=
  if s.log.mirq.length < 64 then { s with log := { s.log with mirq := s.log.mirq ++ [r] } }
  else
    let s := s.cnt LOG_MIR_LOST_COUNT
    { s with log := { s.log with mirLost := s.log.mirLost + 1,
                                 mirLostFirst := if s.log.mirLost = 0 then r.seq else s.log.mirLostFirst } }

/-- Writes one record under the next sequence number: to the ring, or in degraded mode to the last-gasp file; a
critical one also to the mirror queue (R336, R345, R346). -/
def State.writeRec (s : State) (e : Ev) : State :=
  let crit := s.isCrit e.code
  let r : Rec := ⟨s.log.nextSeq, secOf e.tai % 2 ^ 32, nsOf e.tai, crit, false, e.epoch, e.code, e.p0, e.p1, e.p2, e.p3⟩
  let s := { s with log := { s.log with nextSeq := (s.log.nextSeq + 1) % 2 ^ 32 } }
  let s := s.cnt LOG_WRITTEN_COUNT
  let s := if s.is LOG_STAT_MEMFAIL then
      { s with log := lgPush r { s.log with deg := s.log.deg + 1 } }
    else { s with log := ringPush r s.log }
  if crit then
    let s := { s with log := { s.log with lastCrit := some s.mono } }
    s.whenB (s.is LOG_CFG_MIR_EN) (fun s => s.mirrorQueue { r with lg := s.is LOG_STAT_MEMFAIL })
  else s

/-- A record the recorder writes of itself, observed now. -/
def State.writeOwn (s : State) (code p0 p1 p2 p3 : Nat) : State :=
  s.writeRec ⟨code, p0 % 2 ^ 32, p1 % 2 ^ 32, p2 % 2 ^ 32, p3 % 2 ^ 32, s.tai, s.epoch, s.mono / (5 * nsU)⟩

/-- A cause PD0 writes to the last-gasp file, at a time (R347). -/
def State.lgWrite (s : State) (sec ns code p0 p1 p2 p3 : Nat) : State :=
  let r : Rec := ⟨s.log.nextSeq, sec % 2 ^ 32, ns, s.isCrit code, true, s.epoch, code, p0 % 2 ^ 32, p1 % 2 ^ 32, p2 % 2 ^ 32, p3 % 2 ^ 32⟩
  { s with log := lgPush r { s.log with nextSeq := (s.log.nextSeq + 1) % 2 ^ 32, deg := s.log.deg + 1 } }

/-- A cause written while PD1 has no clock carries the RTC seconds and the 32 kHz count (R333). -/
def State.lgCause (s : State) (code p0 p1 p2 p3 : Nat) : State :=
  s.lgWrite (s.rtc / secU) (s.rtc % secU * 32768 / secU * 1000000000 / 32768) code p0 p1 p2 p3

/-- A cause written while PD1 has its clock carries the time of the counter (R333). -/
def State.lgLive (s : State) (code p0 p1 p2 p3 : Nat) : State := s.lgWrite (secOf s.tai) (nsOf s.tai) code p0 p1 p2 p3

/-- The voted words of a last-gasp entry; none when the copies of a word all differ. -/
def lgVoted (l : List (Nat × Nat × Nat)) : Option (List Nat) :=
  if l.all (fun t => (vote t.1 t.2.1 t.2.2).isSome) then some (l.map (fun t => (vote t.1 t.2.1 t.2.2).getD 0)) else none

/-- Copies into the ring, in sequence order, the last-gasp entries later than the ring's newest; an entry that
cannot be copied is recorded (R347). Answers how many it copied. -/
def State.lgCopy (s : State) : Nat × State :=
  let newest := s.log.ring.getLast?
  let isNew (r : Rec) : Bool :=
    match newest with
    | some n => laterSerial r.seq n.seq
    | none => true
  let order := (List.range 16).map (fun i => (s.log.lgHead + i) % 16)
  let ents := order.filterMap (fun k => (assoc s.log.lg k).map (fun w => (k, lgVoted w)))
  let s1 := s.each ents (fun s p =>
    match p.2 with
    | some w => if isNew (recOfWords w) then { s with log := ringPush (recOfWords w) s.log } else s
    | none => s)
  let s2 := s1.each ents (fun s p => if p.2.isNone then s.ev 0xA032 p.1 0 0 0 else s)
  ((ents.filter (fun p =>
    match p.2 with
    | some w => isNew (recOfWords w)
    | none => false)).length, s2)

/-! ### Taking events, rate limits (R337–R339) -/

/-- The first of the least codes among events. -/
def leastCode (l : List Ev) : Option Ev :=
  l.foldl (fun a e =>
    match a with
    | none => some e
    | some b => if e.code < b.code then some e else some b) none

/-- Removes the first occurrence of an event. -/
def dropEv (x : Ev) (l : List Ev) : List Ev :=
  match l with
  | [] => []
  | e :: es => if e = x then es else e :: dropEv x es

/-- The limiter: a code within its bound of the window is written, beyond it counted; with 256 codes tracked a
further code is written without limit (R339). -/
def State.limited (s : State) (e : Ev) : State :=
  let m := s.rd LOG_CFG_RATE_MAX
  if m = 0 ∨ s.isCrit e.code ∨ e.code / 4096 = 0xA then s.writeRec e
  else
    match s.log.rates.find? (fun r => r.code == e.code) with
    | some r =>
      let ok := decide (r.written < m)
      let r' := if ok then { r with written := r.written + 1 }
        else { r with supp := r.supp + 1, first := if r.supp = 0 then e.tai else r.first }
      let s : State := { s with log := { s.log with rates := s.log.rates.map (fun x => if x.code = e.code then r' else x) } }
      if ok then s.writeRec e else s.cnt LOG_SUPPR_COUNT
    | none =>
      if s.log.rates.length < 256 then
        let s : State := { s with log := { s.log with rates := s.log.rates ++ [⟨e.code, 1, 0, 0⟩] } }
        s.writeRec e
      else (s.cnt LOG_RL_OVF_COUNT).writeRec e

/-- The recorder takes one event: the least code of the head's fabric cycle (R337). -/
def State.takeEvent (s : State) : State :=
  match s.log.inq with
  | [] => s
  | h :: _ =>
    match leastCode (s.log.inq.takeWhile (fun e => e.cycle == h.cycle)) with
    | none => s
    | some e =>
      let q := dropEv e s.log.inq
      let l := match s.log.waiting with
        | w :: ws => { s.log with inq := q ++ [w], waiting := ws }
        | [] => { s.log with inq := q }
      let s := ({ s with log := l }).limited e
      if s.log.lost ≠ 0 ∧ s.log.inq.length < 240 then
        let s := s.ev 0xA002 s.log.lost s.log.lostFirst 0 0
        { s with log := { s.log with lost := 0, lostFirst := 0 } }
      else s

/-- EVENT_RECORD (R337). -/
def execEventRecord (s : State) : Host.Outcome State Fault Refusal :=
  done s (if s.log.running then s.takeEvent else s)

/-- The rate-limit window ends: one record 0xA001 for each code with events suppressed; the next window ends at
the next top of a second (R339). -/
def State.rateWindowEnd (s : State) : State :=
  let s := s.each s.log.rates (fun s r =>
    if r.supp = 0 then s else s.writeOwn 0xA001 r.code r.supp (secOf r.first) (nsOf r.first))
  { s with log := { s.log with rates := [], rateEnd := (s.tai / secU + 1) * secU } }

/-- RATE_WINDOW_END (R339). -/
def execRateWindowEnd (s : State) : Host.Outcome State Fault Refusal :=
  done s (if s.log.running then (s.advanceTo s.log.rateEnd).rateWindowEnd else s)

/-! ### Reading (R340) -/

/-- The slot of the record SRAM that ring entry `i` (0 oldest) stands in. -/
def ringSlot (l : Recorder) (i : Nat) : Nat := (l.wp + 65536 - l.ring.length + i) % 65536

/-- The position in the ring of the record with a sequence number. -/
def ringIndex (l : Recorder) (seq : Nat) : Option Nat :=
  let i := (l.ring.takeWhile (fun r => r.seq != seq)).length
  if i < l.ring.length then some i else none

/-- Copies the record with a sequence number into a master's window (R340). -/
def State.logRead (s : State) (m : Master) (seq : Nat) : State :=
  let s := s.wr (forM m LOG_RD_SEQ_SEQ) seq
  let fill (s : State) (res : Nat) (w : List Nat) : State :=
    (s.wr (forM m LOG_RD_STAT_RESULT) res).each (List.range 8) (fun s i => s.wr (forM m (LOG_RD_W i)) (nth w i 0))
  match ringIndex s.log seq with
  | some i =>
    if s.log.bad.contains (ringSlot s.log i) then
      let (w, s) := s.drawN 8
      fill s 3 w
    else fill s 0 (((s.log.ring[i]?).map recWords).getD [])
  | none => fill s (if laterSerial seq s.newestSeq then 2 else 1) []

/-- LOG_READ_SEQ (R340). -/
def execLogReadSeq (m : Master) (seq : Nat) (s : State) : Host.Outcome State Fault Refusal :=
  done s (s.accessW m 0xD0020 seq (fun s => s.logRead m (seq % 2 ^ 32)))

/-- LOG_READ_NEXT (R340). -/
def execLogReadNext (m : Master) (s : State) : Host.Outcome State Fault Refusal :=
  done s (s.accessW m 0xD0028 1 (fun s => s.logRead m ((s.rd (forM m LOG_RD_SEQ_SEQ) + 1) % 2 ^ 32)))

/-! ### Statistics objects (R341, R342) -/

/-- An object as configured at reset: off. -/
def objBlank : StatObj := ⟨0, 0, 0, 0, 1, false, []⟩

/-- An object by number. -/
def State.obj (s : State) (i : Nat) : StatObj := (assoc s.log.objs i).getD objBlank

/-- A histogram takes a value: underflow R0, bins R1–R32, overflow R33, count R34 (R342). -/
def histStep (o : StatObj) (v : Int) : StatObj :=
  let w : Int := ((if o.width = 0 then 1 else o.width : Nat) : Int)
  let b := (v - sint 32 o.lo) / w
  let i := if b < 0 then 0 else if b > 31 then 33 else b.toNat + 1
  let r := (List.range 36).map (fun k => nth o.res k 0)
  let up (r : List Nat) (k : Nat) : List Nat := setNth r k (min (nth r k 0 + 1) (2 ^ 32 - 1))
  { o with res := up (up r i) 34 }

/-- An extremes object takes a value with a slot serial (R342). -/
def extStep (o : StatObj) (v : Int) (serial : Nat) : StatObj :=
  let g (k : Nat) : Nat := nth o.res k 0
  let first := g 6 == 0
  let lower := first || decide (v < sint 32 (g 0))
  let upper := first || decide (sint 32 (g 2) < v)
  let sum := uint 64 (sint 64 (g 4 + g 5 * 2 ^ 32) + v)
  { o with res := [if lower then i32 v else g 0, if lower then serial else g 1, if upper then i32 v else g 2,
                   if upper then serial else g 3, sum % 2 ^ 32, sum / 2 ^ 32, min (g 6 + 1) (2 ^ 32 - 1)] }

/-- A sample of a quantity updates every object configured for it; none while degraded or STALE (R341, R346). -/
def State.statUpdate (s : State) (qty idx : Nat) (v : Int) (serial : Nat) : State :=
  if !s.log.running || s.is LOG_STAT_MEMFAIL then s
  else
    { s with log := { s.log with objs := s.log.objs.map (fun p =>
      let o := p.2
      if o.stale || o.qty != qty || (o.idx != idx && (qty < 4 || qty == 9)) then p
      else if o.kind = 1 then (p.1, histStep o v)
      else if o.kind = 2 then (p.1, extStep o v serial)
      else p) } }

/-- The configuration words of the selected object as they read. -/
def State.objShow (s : State) : State :=
  let o := s.obj (s.rd LOG_OBJ_SEL_OBJ)
  (((((s.wr LOG_OBJ_CFG_KIND o.kind).wr LOG_OBJ_CFG_QTY o.qty).wr LOG_OBJ_CFG_IDX o.idx).wr
    LOG_OBJ_CFG_STALE (b2n o.stale)).wr LOG_OBJ_LO_LO o.lo).wr LOG_OBJ_WIDTH_WIDTH o.width

/-- A write to LOG_OBJ_SEL: the object's results are copied into the window (R342). -/
def State.objSelect (s : State) (i : Nat) : State :=
  let s := (s.wr LOG_OBJ_SEL_OBJ i).objShow
  let o := s.obj (i % 512)
  s.each (List.range 36) (fun s k => s.wr (LOG_OBJ_R k) (nth o.res k 0))

/-- OBJECT_SELECT (R342). -/
def execObjectSelect (m : Master) (i : Nat) (s : State) : Host.Outcome State Fault Refusal :=
  done s (s.accessW m 0xD0300 i (fun s => s.objSelect i))

/-- A write to LOG_OBJ_CFG, LO or WIDTH: applied to the selected object, which starts anew (R341). -/
def State.objConfig (s : State) (addr v : Nat) : State :=
  let i := s.rd LOG_OBJ_SEL_OBJ
  let o := s.obj i
  let o := if addr = 0xD0304 then { o with kind := bits v 0 2, qty := bits v 2 4, idx := bits v 6 12 }
    else if addr = 0xD0308 then { o with lo := v % 2 ^ 32 }
    else { o with width := v % 65536 }
  let bad := o.qty == 0 || decide (9 < o.qty) || (o.qty == 9 && decide (5 < o.idx))
  let o := { o with kind := if bad then 0 else o.kind, stale := false, res := [] }
  ({ s with log := { s.log with objs := assocSet s.log.objs i o } }).objShow

/-- OBJECT_CONFIGURE (R341): `addr` is one of the three words of the object; another address is no such command. -/
def execObjectConfigure (m : Master) (addr v : Nat) (s : State) : Host.Outcome State Fault Refusal :=
  done s (if addr = 0xD0304 ∨ addr = 0xD0308 ∨ addr = 0xD030C then s.accessW m addr v (fun s => s.objConfig addr v) else s)

/-! ### Authorised clearing (R343, R344) -/

/-- The clear itself, by scope (R344). -/
def State.clearScope (s : State) (scope : Nat) : State :=
  let l := s.log
  let l := if bit scope 0 = 1 then { l with ring := [], bad := [] } else l
  let l := if bit scope 1 = 1 then { l with objs := l.objs.map (fun p => (p.1, { p.2 with res := [], stale := false })) } else l
  let l := if bit scope 2 = 1 then { l with mirOpen := false } else l
  let l := if bit scope 3 = 1 then { l with lg := [] } else l
  let s := { s with log := l }
  let s := s.objShow
  if bit scope 2 = 1 then s.norErase 0x02500000 (32 * 65536) else s

/-- A refused clear (R344). -/
def State.clearFail (s : State) (m : Master) (scope slot reason : Nat) : State :=
  (((s.wr LOG_CLR_STAT_OK 0).wr LOG_CLR_STAT_FAIL 1).cnt LOG_CLR_FAIL_COUNT).ev 0xA011 scope (mNum m) slot reason

/-- LOG_CLR_CMD: the response is checked and the scope cleared (R343, R344, R376). -/
def State.recorderClear (s : State) (m : Master) : State :=
  let scope := s.rd LOG_CLR_KEY_SCOPE
  let slot := s.rd LOG_CLR_KEY_KEYSLOT
  if s.is LOG_CLR_STAT_BUSY then (s.newChallenge LOG_CLR_CHAL_LO_CHAL LOG_CLR_CHAL_HI_CHAL).clearFail m scope slot 3
  else
    let msg := s.authMsg LOG_CLR_CHAL_LO_CHAL LOG_CLR_CHAL_HI_CHAL (slot + scope * 256)
    let resp := (List.range 4).flatMap (fun i => leBytes 4 (s.rd (LOG_CLR_RESP_RESP i)))
    let s := s.newChallenge LOG_CLR_CHAL_LO_CHAL LOG_CLR_CHAL_HI_CHAL
    match s.keyUse slot 5 [2] (some m) with
    | some r => (s.keyRefuse slot 5 r 6 none).clearFail m scope slot 2
    | none =>
      let s := s.keyUsed slot
      if (s.verifyKeys slot).any (fun k => beBytes 16 (Config.hmacSha256 k msg / 2 ^ 128) == resp) then
        let newest := s.newestSeq
        let s := (s.clearScope scope).writeOwn 0xA010 scope (mNum m) slot newest
        (s.wr LOG_CLR_STAT_OK 1).wr LOG_CLR_STAT_FAIL 0
      else s.clearFail m scope slot 1

/-- RECORDER_CLEAR (R344). -/
def execRecorderClear (m : Master) (s : State) : Host.Outcome State Fault Refusal :=
  done s (s.accessW m 0xD0120 1 (fun s => s.recorderClear m))

/-! ### The NOR mirror (R345) -/

/-- Base of the mirror area. -/
def mirBase : Nat := 0x02500000

/-- A sector header of the mirror. -/
def mirHeader (sseq first : Nat) : List Byte :=
  let h : List Byte := [0x47, 0x4B, 0x45, 0x4D] ++ leBytes 4 sseq ++ leBytes 4 first ++ List.replicate 16 0xFF
  h ++ leBytes 4 (crc32c h)

/-- The SSEQ and first sequence number of a sector with a valid header. -/
def State.mirHead (s : State) (k : Nat) : Option (Nat × Nat) :=
  let h := s.norRead (mirBase + k * 65536) 32
  if leAt h 0 4 = 0x4D454B47 ∧ leAt h 28 4 = crc32c (h.take 28) then some (leAt h 4 4, leAt h 8 4) else none

/-- The newest valid sector: its number and SSEQ. -/
def State.mirNewest (s : State) : Option (Nat × Nat) :=
  (List.range 32).foldl (fun a k =>
    match s.mirHead k with
    | none => a
    | some (q, _) =>
      match a with
      | none => some (k, q)
      | some (_, b) => if laterSerial q b then some (k, q) else a) none

/-- The number of record places of a sector that are not empty. -/
def State.mirUsed (s : State) (k : Nat) : Nat :=
  ((List.range 2047).takeWhile (fun i => leAt (s.norRead (mirBase + k * 65536 + 32 + 32 * i + 14) 2) 0 2 != 0xFFFF)).length

/-- The newest sequence number in the mirror. -/
def State.mirNewestSeq (s : State) : Option Nat :=
  match s.mirNewest with
  | none => none
  | some (k, _) =>
    let n := s.mirUsed k
    if n = 0 then (s.mirHead k).map (fun h => (h.2 + 2 ^ 32 - 1) % 2 ^ 32)
    else some (leAt (s.norRead (mirBase + k * 65536 + 32 * n) 4) 0 4)

/-- The mirror's place after start-up. -/
def State.mirResume (s : State) : State :=
  match s.mirNewest with
  | none => { s with log := { s.log with mirOpen := false, mirSector := 31, mirSseq := 2 ^ 32 - 1, mirIndex := 0 } }
  | some (k, q) => { s with log := { s.log with mirOpen := true, mirSector := k, mirSseq := q, mirIndex := s.mirUsed k } }

/-- Opens the next sector with a header. -/
def State.mirNext (s : State) (first : Nat) : State :=
  let k := (s.log.mirSector + 1) % 32
  let q := (s.log.mirSseq + 1) % 2 ^ 32
  let s := (s.norErase (mirBase + k * 65536) 65536).norWrite (mirBase + k * 65536) (mirHeader q first)
  { s with log := { s.log with mirOpen := true, mirSector := k, mirSseq := q, mirIndex := 0 } }

/-- Programs the head record of the mirror queue (R345). `ok` is whether the program verifies. -/
def State.mirProgram (s : State) (ok : Bool) : State :=
  match s.log.mirq with
  | [] => s
  | r :: rest =>
    let s := if !s.log.mirOpen || 2047 ≤ s.log.mirIndex then s.mirNext r.seq else s
    let a := mirBase + s.log.mirSector * 65536 + 32 + 32 * s.log.mirIndex
    if ok then
      let s := s.norWrite a ((recWords r).flatMap (leBytes 4))
      let s := { s with log := { s.log with mirq := rest, mirIndex := s.log.mirIndex + 1 } }
      let s := if s.log.mirIndex = 1024 then s.norErase (mirBase + (s.log.mirSector + 1) % 32 * 65536) 65536 else s
      if s.log.mirLost = 0 then s
      else
        let s := s.ev 0xA021 s.log.mirLost s.log.mirLostFirst 0 0
        { s with log := { s.log with mirLost := 0, mirLostFirst := 0 } }
    else
      let (w, s) := s.drawN 8
      let s := s.norWrite a (w.flatMap (leBytes 4))
      ({ s with log := { s.log with mirOpen := false } }).ev 0xA020 s.log.mirSector r.seq 0 0

/-- MIRROR_PROGRAM (R345): it waits while the NOR is busy with staging. -/
def execMirrorProgram (ok : Bool) (s : State) : Host.Outcome State Fault Refusal :=
  done s (if s.log.running && !s.is FWU_STG_STAT_BUSY then s.mirProgram ok else s)

/-! ### Degraded mode (R346, R348) -/

/-- An uncorrectable error in a recorder SRAM at a byte offset (R346). `mem` is 0 for the record SRAM, 1 for the
object SRAM. -/
def State.degradedEntry (s : State) (mem addr : Nat) : State :=
  let s := if mem = 0 then { s with log := { s.log with bad := (addr / 32 % 65536) :: s.log.bad.filter (fun k => k != addr / 32 % 65536) } } else s
  if s.is LOG_STAT_MEMFAIL then s
  else
    let s := (s.wr LOG_STAT_MEMFAIL 1).setNmi SYS_NMI_CAUSE_LOGMEM
    let objs : List (Nat × StatObj) := (List.range 512).map (fun i => (i, { s.obj i with stale := true }))
    let s : State := { s with log := { s.log with deg := 0, passes := 0, testAt := s.mono + secU, objs := objs } }
    s.objShow.writeOwn 0xA030 addr mem 0 0

/-- Degraded mode ends: the file is copied and 0xA031 written to the ring (R348). -/
def State.degradedEnd (s : State) : State :=
  let n := s.log.deg
  let s := s.wr LOG_STAT_MEMFAIL 0
  let (k, s) := s.lgCopy
  let s := { s with log := { s.log with passes := 0 } }
  s.writeOwn 0xA031 k (n - k) 0 0

/-- DEGRADED_ROW_TEST (R348): `pass` is whether the row reads back. -/
def execDegradedRowTest (pass : Bool) (s : State) : Host.Outcome State Fault Refusal :=
  done s (
    if s.log.running && s.is LOG_STAT_MEMFAIL then
      let s := s.waitUntil s.log.testAt
      let n := if pass then s.log.passes + 1 else 0
      let s := { s with log := { s.log with passes := n, testAt := s.log.testAt + secU } }
      if 3 ≤ n then s.degradedEnd.health else s
    else s)

/-! ### Start (R49 step 8, R336, R347) -/

/-- The recorder starts at step 8: the sequence counter resumes, and the last-gasp file is copied. `lost` is
whether PD0 had lost its supply. -/
def State.recorderStart (s : State) (lost : Bool) : State :=
  let s := s.mirResume
  let s := if lost then
      { s with log := { s.log with nextSeq := (match s.mirNewestSeq with
        | some q => (q + 1) % 2 ^ 32
        | none => 0) } }
    else s
  let s := { s with log := { s.log with running := true, rateEnd := (s.tai / secU + 1) * secU } }
  let s := s.lgCopy.2
  s.newChallenge LOG_CLR_CHAL_LO_CHAL LOG_CLR_CHAL_HI_CHAL

end Sys2Proof.Machine
end

