-- ==== Sys2Proof/Machine/Network.lean ====
section
/-! DEFINITION. The trunk and field ports: link, admission, PAUSE, low-power idle, flushing, transmission, collisions and
PLCA (R101–R104, R110–R130, R402). What the spec leaves open here: DEDUCED, log 22. -/

namespace Sys2Proof.Machine

/-! ### Ports -/

def State.port (s : State) (n : Nat) : Port := nth s.ports n port0

def State.setPort (s : State) (n : Nat) (p : Port) : State := { s with ports := setNth s.ports n p }

/-- A port of the part that is powered. -/
def State.portUp (s : State) (n : Nat) : Bool := decide (n < 6) && s.up && s.on 2

/-- Picoseconds in the units of `mono`. -/
def psU (x : Nat) : Nat := x * 2 ^ 32 / 1000

/-- The bit time of a port in ps (R116). -/
def State.bitPs (s : State) (n : Nat) : Nat :=
  let m := s.portMode n
  if m = 1 ∨ m = 2 then 40 else if m = 3 then 100 else if m = 4 then 1000
  else if m = 5 then (match s.rd (NET_P_STAT_SPEED n) with
    | 0 => 100000
    | 1 => 10000
    | _ => 1000)
  else 100000

/-- The fixed receive correction of the port mode, in 1/16 ns (R101). -/
def State.rxCorr (s : State) (n : Nat) : Nat :=
  let m := s.portMode n
  if m = 1 then 448 else if m = 2 then 1896 else if m = 3 then 888 else if m = 4 then 2112
  else if m = 5 then (match s.rd (NET_P_STAT_SPEED n) with
    | 0 => 107840
    | 1 => 11840
    | _ => 2240)
  else 24960

/-- The fixed transmit correction of the port mode, in 1/16 ns (R101). -/
def State.txCorr (s : State) (n : Nat) : Nat :=
  let m := s.portMode n
  if m = 1 then 344 else if m = 2 then 1032 else if m = 3 then 656 else if m = 4 then 1376
  else if m = 5 then (match s.rd (NET_P_STAT_SPEED n) with
    | 0 => 64832
    | 1 => 7232
    | _ => 1472)
  else 17920

/-- The IRC flag of a stamp taken now (R90). -/
def State.ircFlag (s : State) : Bool := s.boot.ircFlag

/-- The resolution of a MAC stamp in 1/16 ns: 0.3125 ns, in IRC-direct 20 ns (R90). -/
def macRes (direct : Bool) : Nat := if direct then 320 else 5

/-- A raw MAC stamp `fwd` 1/16 ns after the counter. -/
def State.rawStamp (s : State) (fwd : Nat) : Nat :=
  let r := macRes s.ircDirect
  stampOf s.tai + fwd / r * r

/-- User corrections in 1/16 ns, signed. -/
def State.userRx (s : State) (n : Nat) : Int := sint 20 (s.rd (TNS_PCOR_RX_COR n))
def State.userTx (s : State) (n : Nat) : Int := sint 20 (s.rd (TNS_PCOR_TX_COR n))

/-- Capacity of the ingress FIFO and of the transmit buffer (R121, R126). -/
def fifoCap (n : Nat) : Nat := if n < 4 then 262144 else 16384
def txCap (n : Nat) : Nat := if n < 4 then 65536 else 8192

/-- Committed fill of the FIFO. -/
def Port.fill (p : Port) : Nat := p.fifo.foldl (fun a e => a + e.len) 0

/-- Fill of the transmit buffer. -/
def Port.txFill (p : Port) : Nat := p.tx.foldl (fun a f => a + max (f.bytes.length + 4) 64) 0

/-- The address in slot `k` of port `n`, when enabled (R114). -/
def State.slotAddr (s : State) (n k : Nat) : Option Nat :=
  if s.is (NET_P_ADDR_HI_EN n k) then some (s.rd (NET_P_ADDR_HI_MAC n k) * 2 ^ 32 + s.rd (NET_P_ADDR_LO_MAC n k)) else none

/-- Slot 0 holds a station address: enabled and unicast. -/
def State.stationOk (s : State) (n : Nat) : Bool :=
  match s.slotAddr n 0 with
  | some a => bit a 40 == 0
  | none => false

/-- After a change of fill: THR follows with its event, and OVF ends when the FIFO is empty (R121, R124). -/
def State.fifoLevel (s : State) (n : Nat) : State :=
  let lvl := (s.port n).fill
  let thr := decide (s.eff (NET_P_FIFO_THR_THR n) * 256 ≤ lvl)
  let rise := thr && !s.is (NET_P_FSTAT_THR n)
  let s := s.wr (NET_P_FSTAT_THR n) (b2n thr)
  let s := if lvl = 0 then s.wr (NET_P_FSTAT_OVF n) 0 else s
  if rise then s.ev 0x2021 n lvl 0 0 else s

/-! ### Time-stamp queues (R103, R104) -/

/-- The queue of trunk port `n`. -/
def State.tsQ (s : State) (n : Nat) : TsQueue := nth s.tns.tsq n ⟨[], 0, false⟩

def State.setTsQ (s : State) (n : Nat) (q : TsQueue) : State := { s with tns := { s.tns with tsq := setNth s.tns.tsq n q } }

/-- Offers a stamp to a queue: the sequence number is consumed even when the queue is full (R104). -/
def State.tsqOffer (s : State) (n : Nat) (bs : List Byte) (rx : Bool) (stamp epoch qual : Nat) (irc : Bool) : State :=
  let q := s.tsQ n
  let e : TsEntry := ⟨q.seq, ptpSeqId bs, ptpType bs, ptpDomain bs, rx, irc, qual, epoch, stamp⟩
  let seq := (q.seq + 1) % 65536
  if q.items.length < 64 then s.setTsQ n { q with items := q.items ++ [e], seq := seq }
  else
    let s := (s.setTsQ n { q with seq := seq, dropped := true }).cnt (TNS_TSQ_LOST_LOST n)
    if q.dropped then s else s.ev 0x1050 n e.qseq 0 0

/-! ### PAUSE (R115, R116) -/

/-- Ends a pause at `t`: PAUSE_US takes its whole microseconds. -/
def State.pauseEnd (s : State) (n start t : Nat) : State :=
  let s := s.setPort n { s.port n with pause := none }
  s.cntN (NET_P_PAUSE_US_COUNT n) ((t - start) / (1000 * nsU))

/-- A pause whose time has run out is over. -/
def State.pauseSettle (s : State) (n : Nat) : State :=
  match (s.port n).pause with
  | some (f, u) => if u ≤ s.mono then s.pauseEnd n f u else s
  | none => s

/-- A PAUSE frame received (R115, R116). -/
def State.pauseFrame (s : State) (n quanta : Nat) : State :=
  let hon := decide (n < 4) && s.is (NET_P_CFG_PAUSE_HON n)
  let s := (s.pauseSettle n).cnt (NET_P_PAUSE_RX_COUNT n)
  let s := s.ev 0x2030 n quanta (b2n hon) 0
  if !hon then s
  else
    let d := psU (quanta * 512 * s.bitPs n)
    match (s.port n).pause with
    | some (f, _) => if quanta = 0 then s.pauseEnd n f (max f s.mono) else s.setPort n { s.port n with pause := some (f, max f s.mono + d) }
    | none =>
      if quanta = 0 then s
      else
        let f := max s.mono (s.port n).txUntil
        s.setPort n { s.port n with pause := some (f, f + d) }

/-- PAUSE_FRAME (R115). -/
def execPauseFrame (n quanta : Nat) (s : State) : Host.Outcome State Fault Refusal :=
  done s (if s.portUp n && s.is (NET_P_STAT_LINK n) then s.pauseFrame n (quanta % 65536) else s)

/-- PAUSE_EXPIRY (R116): the pause time runs out. -/
def execPauseExpiry (n : Nat) (s : State) : Host.Outcome State Fault Refusal :=
  done s (
    match (s.port n).pause with
    | some (_, u) => if s.portUp n then (s.waitUntil u).pauseSettle n else s
    | none => s)

/-! ### Transmission (R102, R120, R126) -/

/-- The buffer drops a frame: TXDROP and event 0x2060. -/
def State.txDrop (s : State) (n : Nat) (f : TxFrame) : State :=
  (s.cnt (NET_P_TXDROP_COUNT n)).ev 0x2060 n f.src (max (f.bytes.length + 4) 64) 0

/-- The port accepts frames at all (R114, R126). -/
def State.txOpen (s : State) (n : Nat) : Bool := s.is (NET_P_STAT_LINK n) && s.portMode n != 0 && s.stationOk n

/-- Held frames enter the buffer as space frees, by source in the order of R126. -/
def acceptFrom (cap src : Nat) (held : List TxFrame) (p : Port) : Port :=
  match held with
  | [] => p
  | f :: rest =>
    if f.src != src then acceptFrom cap src rest { p with held := p.held ++ [f] }
    else if (p.held.any (fun g => g.src == src)) || cap < p.txFill + max (f.bytes.length + 4) 64 then
      acceptFrom cap src rest { p with held := p.held ++ [f] }
    else acceptFrom cap src rest { p with tx := p.tx ++ [f] }

/-- One pass over the three sources. -/
def Port.accept (n : Nat) (p : Port) : Port :=
  [1, 2, 3].foldl (fun p src => acceptFrom (txCap n) src p.held { p with held := [] }) p

/-- Hands a frame to a port: dropped when the port accepts nothing, else taken or held (R126). -/
def State.txOffer (s : State) (n : Nat) (f : TxFrame) : State :=
  if !s.txOpen n then s.txDrop n f
  else s.setPort n (Port.accept n { s.port n with held := (s.port n).held ++ [f] })

/-- A frame of a source fits the buffer now, with none of that source held before it. -/
def State.txRoom (s : State) (n src len : Nat) : Bool :=
  !((s.port n).held.any (fun g => g.src == src)) && decide ((s.port n).txFill + max (len + 4) 64 ≤ txCap n)

/-- Drops the whole of the buffer and what is held for it. -/
def State.txFlush (s : State) (n : Nat) : State :=
  let p := s.port n
  (s.setPort n { p with tx := [], held := [], cols := 0, backoffUntil := 0 }).each (p.tx ++ p.held) (fun s f => s.txDrop n f)

/-- The wake time of a port in low-power idle, in ns (R117). -/
def State.wakeNs (s : State) (n : Nat) : Nat :=
  let m := s.portMode n
  if m = 1 ∨ m = 2 then 5000 else if m = 3 then 4500 else if s.rd (NET_P_STAT_SPEED n) = 1 then 30500 else 16500

/-- A field port that sends by CSMA/CD (R127, R129). -/
def State.csma (s : State) (n : Nat) : Bool :=
  decide (4 ≤ n) && decide (n < 6) && (s.portMode n == 8 || (s.portMode n == 9 && (s.port n).fell))

/-- A field port that sends by PLCA, and one that waits for its first BEACON. -/
def State.plca (s : State) (n : Nat) : Bool := s.portMode n == 9 && s.is (NET_P_STAT_PLCA_ACT n)
def State.plcaWaits (s : State) (n : Nat) : Bool := s.portMode n == 9 && !s.is (NET_P_STAT_PLCA_ACT n) && !(s.port n).fell

/-- Bit times of a field port in the units of `mono`. -/
def fieldBits (n : Nat) : Nat := psU (n * 100000)

/-- The length of an idle PLCA cycle in bit times: the BEACON and one TO_TIMER for each node (R129). -/
def State.plcaCycle (s : State) (n : Nat) : Nat := 20 + s.eff (NET_P_PLCA_NODE_CNT n) * s.eff (NET_P_PLCA_TO_TIMER n)

/-- A frame ready at `t` goes as an extra frame of the present transmit opportunity. -/
def State.plcaBurst (s : State) (n t : Nat) : Bool :=
  let p := s.port n
  p.txUntil != 0 && decide (p.burst < s.rd (NET_P_PLCA_BURST_CNT n)) && decide (t ≤ p.txUntil + fieldBits (96 + s.eff (NET_P_PLCA2_BURST_TMR n)))

/-- The BEACON of the coordinator's first cycle whose transmit opportunity does not begin before `t`. -/
def State.plcaBeacon (s : State) (n t : Nat) : Nat :=
  let b := (s.port n).lastBeacon
  let c := fieldBits (s.plcaCycle n)
  b + (t - (b + fieldBits 20) + c - 1) / c * c

/-- The start of a frame under PLCA, ready at `t`: in a burst at once; at the coordinator after the BEACON of a cycle of its own; at a
follower in its opportunity after the last BEACON, later ones lying with the other nodes (DESIGN CHOICE, log 22). -/
def State.plcaStart (s : State) (n t : Nat) : Nat :=
  if s.plcaBurst n t then t
  else if s.rd (NET_P_PLCA_NODE_ID n) = 0 then s.plcaBeacon n t + fieldBits 20
  else max t ((s.port n).lastBeacon + fieldBits (20 + s.rd (NET_P_PLCA_NODE_ID n) * s.eff (NET_P_PLCA_TO_TIMER n)))

/-- The instant from which the head frame may begin: after the frame before it, and on a CSMA/CD segment what was last heard there, and
the gap of 96 bit times, after a pause, after a backoff, after the wake from low-power idle, and in a PLCA transmit opportunity. -/
def State.txStart (s : State) (n : Nat) : Nat :=
  let p := s.port n
  let t := if p.txUntil = 0 then s.mono else max s.mono (p.txUntil + psU (96 * s.bitPs n))
  let t := if s.csma n && p.busyUntil != 0 then max t (p.busyUntil + fieldBits 96) else t
  let t := match p.pause with
    | some (_, u) => max t u
    | none => t
  let t := max t p.backoffUntil
  let t := if s.is (NET_P_STAT_LPI_TX n) then max t (s.mono + s.wakeNs n * nsU) else t
  if s.plca n then s.plcaStart n t else t

/-- The one-step rule of a frame (R102): a Sync or Pdelay_Resp of a domain with ONESTEP at 1. -/
def State.oneStep (s : State) (n : Nat) (bs : List Byte) : Bool :=
  isPtp bs && (ptpType bs == 0 || ptpType bs == 3) &&
    (match ptpMatch s n (ptpDomain bs) with
     | some 1 => s.is TNS_DOMA_CFG_ONESTEP
     | some _ => s.is TNS_DOMB_CFG_ONESTEP
     | none => false)

/-! ### The PTP engine's own messages (R95, R97, R102, R126)

The engine is management-core firmware: peer-delay requests and answers of every enabled domain, and, where the domain may transmit, Announce
and Sync. Message forms, intervals of 1 s and the clock identity are those of IEEE 1588 and its profiles (PRESUMED, log 14). -/

/-- Registers of domain 1 (A) or 2 (B). -/
def State.domEn (s : State) (d : Nat) : Bool := if d = 1 then s.is TNS_DOMA_CFG_EN else s.is TNS_DOMB_CFG_EN
def State.domPort (s : State) (d : Nat) : Nat := if d = 1 then s.rd TNS_DOMA_CFG_PORT else s.rd TNS_DOMB_CFG_PORT
def State.domNum (s : State) (d : Nat) : Nat := if d = 1 then s.rd TNS_DOMA_CFG_DOMAIN else s.rd TNS_DOMB_CFG_DOMAIN
def State.domRole (s : State) (d : Nat) : Bool := if d = 1 then s.is TNS_DOMA_CFG_ROLE else s.is TNS_DOMB_CFG_ROLE
def State.domOneStep (s : State) (d : Nat) : Bool := if d = 1 then s.is TNS_DOMA_CFG_ONESTEP else s.is TNS_DOMB_CFG_ONESTEP

/-- The domain is time transmitter: it may, the servo is LOCKED to another source, and no other transmitter is heard (R97). -/
def State.domSends (s : State) (d : Nat) : Bool :=
  s.domRole d && s.rd TNS_STAT_STATE == 2 && s.rd TNS_STAT_SRC != d && !(nth s.tns.srcs (d - 1) tSource0).announced

/-- The clock identity of a port: its station address as an EUI-64. -/
def State.clockId (s : State) (n : Nat) : List Byte :=
  let m := beBytes 6 ((s.slotAddr n 0).getD 0)
  m.take 3 ++ [0xFF, 0xFE] ++ m.drop 3

/-- A PTP message of type `typ` in domain `d`, with its correctionField, sequenceId and body. -/
def State.ptpFrame (s : State) (d typ seq cf : Nat) (body : List Byte) : List Byte :=
  let n := s.domPort d
  let two := (typ == 0 || typ == 3) && !s.domOneStep d
  beBytes 6 (if typ = 2 ∨ typ = 3 ∨ typ = 10 then 0x0180C200000E else 0x011B19000000) ++ zeros 6 ++ beBytes 2 0x88F7
    ++ [toByte typ, 0x12] ++ beBytes 2 (34 + body.length) ++ [toByte (s.domNum d), 0] ++ beBytes 2 (if two then 0x0200 else 0) ++ beBytes 8 cf
    ++ zeros 4 ++ s.clockId n ++ beBytes 2 1 ++ beBytes 2 seq ++ [toByte (if typ = 0 then 0 else if typ = 8 then 2 else 5), 0] ++ body

/-- A stamp as a PTP timestamp: seconds and nanoseconds. -/
def ptpTime (st : Nat) : List Byte := beBytes 6 (st / 16000000000) ++ beBytes 4 (st / 16 % 1000000000)

/-- What the engine keeps of domain `d`. -/
def State.ptpTx (s : State) (d : Nat) : PtpTx := nth s.tns.ptp (d - 1) ⟨0, 0⟩

/-- The messages of one second of a domain are handed to its port. -/
def State.ptpSend (s : State) (d : Nat) : State :=
  let x := s.ptpTx d
  let s : State := { s with tns := { s.tns with ptp := setNth s.tns.ptp (d - 1) ⟨s.mono + secU, (x.seq + 1) % 65536⟩ } }
  let leap := s.rd TNS_UTC_OFS + 65536 * s.rd TNS_UTC_LSP + 131072 * s.rd TNS_UTC_LSDIR
  let own := if s.domSends d then
      [⟨3, s.ptpFrame d 11 x.seq 0 ((Config.announceBody (s.rd TNS_STAT_STATE) leap ++ zeros 30).take 30), false, false⟩,
       ⟨1, s.ptpFrame d 0 x.seq 0 (zeros 10), false, false⟩]
    else []
  s.each ((⟨1, s.ptpFrame d 2 x.seq 0 (zeros 20), false, false⟩ : TxFrame) :: own) (fun s f => s.txOffer (s.domPort d) f)

/-- What the PTP engine has due on port `n`. -/
def State.ptpDue (s : State) (n : Nat) : State :=
  s.each ([1, 2].filter (fun d => s.domEn d && s.domPort d == n && decide ((s.ptpTx d).due ≤ s.mono))) (fun s d => s.ptpSend d)

/-- A peer-delay request of an enabled domain is answered: one-step with the negated receive stamp in correctionField, else with the
receive stamp in the body. -/
def State.ptpAnswer (s : State) (n : Nat) (e : RxEntry) : State :=
  match ptpMatch s n (ptpDomain e.bytes) with
  | none => s
  | some d =>
    if !isPtp e.bytes || ptpType e.bytes != 2 then s
    else
      let who := slice e.bytes (l3Ofs e.bytes + 20) 10
      let cf := if s.domOneStep d then (2 ^ 64 - e.stamp * 4096 % 2 ^ 64) % 2 ^ 64 else 0
      let t := if s.domOneStep d then zeros 10 else ptpTime e.stamp
      s.txOffer n ⟨1, s.ptpFrame d 3 (ptpSeqId e.bytes) cf (t ++ who), false, false⟩

/-- A two-step Sync or Pdelay_Resp of the engine has left at a stamp: its Follow_Up is handed over. -/
def State.ptpFollow (s : State) (n : Nat) (bs : List Byte) (st : Nat) : State :=
  match ptpMatch s n (ptpDomain bs) with
  | none => s
  | some d =>
    let cf := st % 16 * 4096
    if ptpType bs = 0 then s.txOffer n ⟨3, s.ptpFrame d 8 (ptpSeqId bs) cf (ptpTime st), false, false⟩
    else if ptpType bs = 3 then s.txOffer n ⟨3, s.ptpFrame d 10 (ptpSeqId bs) cf (ptpTime st ++ slice bs (l3Ofs bs + 44) 10), false, false⟩
    else s

/-- The head frame leaves (R120, R126): source address, checksums, counters, and the stamp, taken once preamble and start-of-frame
delimiter of 64 bits have passed (R101). -/
def State.txSend (s : State) (n ofs : Nat) (f : TxFrame) (rest : List TxFrame) : State :=
  let raw := s.rawStamp (ofs % 40 + 64 * 16 * s.bitPs n / 1000)
  let st := ((raw : Nat) : Int) + ((s.txCorr n : Nat) : Int) + s.userTx n
  let st := st.toNat
  let bs := f.bytes ++ zeros (60 - f.bytes.length)
  let bs := patch bs 6 (beBytes 6 ((s.slotAddr n 0).getD 0))
  let bs := insertSums f.c37 bs
  let one := f.oneStep || s.oneStep n bs
  let bs := if one then oneStepInsert bs st else bs
  let len := bs.length + 4
  let p := s.port n
  let fin := s.mono + psU ((8 + len) * 8 * s.bitPs n)
  let burst := s.plcaBurst n s.mono
  let q := Port.accept n { p with tx := rest, cols := 0, backoffUntil := 0, lastSent := bs ++ frameFcs bs, lastStamp := st, txUntil := fin, idleAt := fin,
                                  burst := if burst then p.burst + 1 else 0,
                                  lastBeacon := if s.plca n && s.rd (NET_P_PLCA_NODE_ID n) == 0 then
                                      (if burst then p.lastBeacon else s.mono - fieldBits 20) + (fin - s.mono) else p.lastBeacon }
  let s := (s.setPort n q).wr (NET_P_STAT_LPI_TX n) 0
  let s := s.cntPair (NET_P_TX_OK_LO_COUNT n) (NET_P_TX_OK_HI_COUNT n) 1
  let s := s.cntPair (NET_P_TX_BYTES_LO_COUNT n) (NET_P_TX_BYTES_HI_COUNT n) len
  if ptpEvent bs && !one && (ptpMatch s n (ptpDomain bs)).isSome && decide (n < 4) then
    (s.tsqOffer n bs false st s.epoch s.quality s.ircFlag).whenB (f.src == 1) (fun s => s.ptpFollow n bs st)
  else s

/-- FRAME_TRANSMIT (R126): the PTP engine's messages due are handed over, and the head frame of the buffer leaves as soon as it may; `ofs`
is the MAC's sub-tick phase in 1/16 ns. With slot 0 no longer valid the whole buffer is dropped (R114). -/
def execFrameTransmit (n ofs : Nat) (s : State) : Host.Outcome State Fault Refusal :=
  done s (
    if !s.portUp n || !s.is (NET_P_STAT_LINK n) then s
    else if !s.stationOk n then s.txFlush n
    else if s.plcaWaits n then s
    else
      let s := s.ptpDue n
      match (s.port n).tx with
      | [] => s
      | f :: rest => ((s.waitUntil (s.txStart n)).pauseSettle n).txSend n ofs f rest)

/-- LPI_ENTRY (R117). -/
def execLpiEntry (n : Nat) (s : State) : Host.Outcome State Fault Refusal :=
  let m := s.portMode n
  let can := decide (n < 4) && s.is (NET_P_CFG_EEE_EN n) && (m == 1 || m == 2 || m == 3 || (m == 5 && s.rd (NET_P_STAT_SPEED n) != 0))
  done s (
    if s.portUp n && can && s.is (NET_P_STAT_LINK n) && (s.port n).tx.isEmpty && !s.is (NET_P_STAT_LPI_TX n) then
      let s := s.waitUntil ((s.port n).idleAt + s.eff (NET_P_EEE_IDLE n) * 1000 * nsU)
      (s.wr (NET_P_STAT_LPI_TX n) 1).cnt (NET_P_LPI_CNT_COUNT n)
    else s)

/-! ### Link (R110, R111, R402) -/

/-- SREF present for a trunk port. -/
def State.srefOk (s : State) (n : Nat) : Bool :=
  if n < 2 then s.is NET_SREF_STAT_SREF0_OK else if n < 4 then s.is NET_SREF_STAT_SREF1_OK else true

/-- The SPEED code of a mode; SGMII takes what its auto-negotiation found (R110). -/
def modeSpeed (m speed : Nat) : Nat :=
  if m = 1 ∨ m = 2 ∨ m = 3 then 3 else if m = 4 then 2 else if m = 5 then min speed 2 else 0

/-- LINK_UP (R402): `speed` is what the SGMII exchange found. -/
def execLinkUp (n speed : Nat) (s : State) : Host.Outcome State Fault Refusal :=
  let m := s.portMode n
  done s (
    if s.portUp n && m != 0 && !s.is (NET_P_STAT_LINK n) && s.srefOk n then
      let v := modeSpeed m speed
      let s := (s.wr (NET_P_STAT_LINK n) 1).wr (NET_P_STAT_SPEED n) v
      let s := s.wr (NET_P_STAT_PLCA_ACT n) (b2n (m == 9 && s.rd (NET_P_PLCA_NODE_ID n) == 0))
      let p := { s.port n with lastBeacon := s.mono, plcaLostAt := s.mono, txUntil := 0, idleAt := s.mono }
      let s := s.setPort n { p with busyUntil := 0, fell := false, burst := 0 }
      (s.ev 0x2001 n m v 0).health
    else s)

/-- The link of a port drops: `rx` when a frame was being received, which fails its FCS check (R111). The event gives the MODE in force,
after a change of MODE the new one (DESIGN CHOICE, log 22). -/
def State.linkLost (s : State) (n : Nat) (rx : Bool) : State :=
  if !s.is (NET_P_STAT_LINK n) then s
  else
    let m := s.portMode n
    let s := s.pauseSettle n
    let s := match (s.port n).pause with
      | some (f, _) => s.pauseEnd n f (max f s.mono)
      | none => s
    let s := s.each [NET_P_STAT_LINK n, NET_P_STAT_SPEED n, NET_P_STAT_LPI_TX n, NET_P_STAT_LPI_RX n, NET_P_STAT_PLCA_ACT n] (fun s f => s.wr f 0)
    let s := s.ev 0x2002 n m 0 0
    s.whenB rx (fun s => s.cnt (NET_P_FCSERR_COUNT n))

/-- The link of a port drops, and its transmit frames with it (R111, R126). -/
def State.linkDown (s : State) (n : Nat) (rx : Bool) : State := if s.is (NET_P_STAT_LINK n) then (s.linkLost n rx).txFlush n else s

/-- LINK_DOWN (R111). -/
def execLinkDown (n : Nat) (receiving : Bool) (s : State) : Host.Outcome State Fault Refusal :=
  done s (if s.portUp n && s.is (NET_P_STAT_LINK n) then (s.linkDown n receiving).health else s)

/-- SREF_CHANGE (R110): `rx` marks the ports of the reference that were receiving a frame. -/
def execSrefChange (k : Nat) (ok : Bool) (rx : Nat) (s : State) : Host.Outcome State Fault Refusal :=
  let f := if k = 0 then NET_SREF_STAT_SREF0_OK else NET_SREF_STAT_SREF1_OK
  done s (
    if s.up && s.on 2 && decide (k < 2) && s.rd f != b2n ok then
      let s := (s.wr f (b2n ok)).ev 0x2004 k (b2n ok) 0 0
      if ok then s
      else (s.each [2 * k, 2 * k + 1] (fun s n => s.linkDown n (bit rx n == 1))).health
    else s)

/-! ### Flushing (R125) -/

/-- Discards every complete frame. -/
def State.fifoDiscard (s : State) (n : Nat) : Nat × State :=
  let k := (s.port n).fifo.length
  let s := (s.setPort n { s.port n with fifo := [] }).cntN (NET_P_FLUSHED_COUNT n) k
  (k, s.fifoLevel n)

/-- FIFO_FLUSH (R125): `receiving` when the MAC is within a frame. -/
def execFifoFlush (m : Master) (n : Nat) (receiving : Bool) (s : State) : Host.Outcome State Fault Refusal :=
  done s (s.accessW m (0x3101C + 0x200 * n) 1 (fun s =>
    if s.is (NET_P_FSTAT_FLUSH_BUSY n) then s
    else
      let s := (s.wr (NET_P_FSTAT_FLUSH_DONE n) 0).wr (NET_P_FSTAT_FORCED n) 0
      let (k, s) := s.fifoDiscard n
      if receiving then (s.wr (NET_P_FSTAT_FLUSH_BUSY n) 1).setPort n { s.port n with flushFrames := k, flushAt := s.mono }
      else (s.wr (NET_P_FSTAT_FLUSH_DONE n) 1).ev 0x2022 n k 0 0))

/-- The producer cycle of a port in ps (R110). -/
def State.cyclePs (s : State) (n : Nat) : Nat :=
  let m := s.portMode n
  if m = 1 ∨ m = 2 then 2560 else if m = 3 then 6400 else if m = 4 ∨ m = 5 then 8000 else 40000

/-- 1,024 producer cycles after the write of a flush (R125). -/
def State.flushDue (s : State) (n : Nat) : Nat := (s.port n).flushAt + psU (1024 * s.cyclePs n)

/-- The receive MAC is reset. -/
def State.flushForce (s : State) (n words : Nat) : State :=
  let s := ((s.wr (NET_P_FSTAT_FLUSH_BUSY n) 0).wr (NET_P_FSTAT_FLUSH_DONE n) 1).wr (NET_P_FSTAT_FORCED n) 1
  (s.cnt (NET_P_FLUSHED_COUNT n)).ev 0x2023 n words 0 0

/-- FLUSH_COMPLETE (R125): the end marker of the swallowed frame; it counts as one frame more. One that comes after the 1,024 cycles finds
the MAC reset. -/
def execFlushComplete (n words : Nat) (s : State) : Host.Outcome State Fault Refusal :=
  done s (
    if s.portUp n && s.is (NET_P_FSTAT_FLUSH_BUSY n) then
      if s.flushDue n < s.mono then s.flushForce n words
      else
      let s := ((s.wr (NET_P_FSTAT_FLUSH_BUSY n) 0).wr (NET_P_FSTAT_FLUSH_DONE n) 1).cnt (NET_P_FLUSHED_COUNT n)
      s.ev 0x2022 n ((s.port n).flushFrames + 1) words 0
    else s)

/-- FLUSH_FORCED (R125): no end marker within 1,024 producer cycles. -/
def execFlushForced (n words : Nat) (s : State) : Host.Outcome State Fault Refusal :=
  done s (
    if s.portUp n && s.is (NET_P_FSTAT_FLUSH_BUSY n) then (s.waitUntil (s.flushDue n)).flushForce n words else s)

/-- A change of MODE or AN (R111): the link goes down, the FIFO is flushed, the transmit buffer discarded, and the port trains anew.
Whether a frame was being received is open. -/
def State.portModeChange (s : State) (n : Nat) : State :=
  let s := if s.is (NET_P_STAT_LINK n) then
      let (v, s) := s.draw
      s.linkLost n (v % 2 == 1)
    else s
  let (k, s) := s.fifoDiscard n
  let s := (((s.wr (NET_P_FSTAT_FLUSH_BUSY n) 0).wr (NET_P_FSTAT_FLUSH_DONE n) 1).wr (NET_P_FSTAT_FORCED n) 0).ev 0x2022 n k 0 0
  s.txFlush n

/-! ### Admission (R112–R114, R119, R121) -/

/-- The verdict of check 11: the frame's CRC is wrong, is right or was not checked, or its length is out of range (R119). -/
inductive C37Check where
  | good | bad | unchecked
  deriving DecidableEq, Repr

def State.c37Check (s : State) (u : Udp) : C37Check :=
  let names := (s.is NET_C37_UDP_PORT0 && s.rd NET_C37_UDP_PORT0 == u.dport) || (s.is NET_C37_UDP_PORT1 && s.rd NET_C37_UDP_PORT1 == u.dport)
  if !names || u.payload.isEmpty || byteAt u.payload 0 != 0xAA then .good
  else
    let fs := beAt u.payload 2 2
    if fs < 16 ∨ u.payload.length < fs then .unchecked
    else if crcCcitt (u.payload.take (fs - 2)) = beAt u.payload (fs - 2) 2 then .good else .bad

/-- The destination passes the filter (R114). -/
def State.addrPass (s : State) (n dst : Nat) : Bool :=
  (List.range 8).any (fun k => s.slotAddr n k == some dst) || (dst == 0xFFFFFFFFFFFF && s.is (NET_P_CFG_BCAST n))

/-- The outcome of checks 1 to 11 of R112. -/
inductive Admit where
  | drop (counter : Field)
  | stranger
  | pause (quanta : Nat)
  | pass (unchecked : Bool)
  deriving DecidableEq, Repr

/-- Checks 5 to 11. -/
def State.admitRest (s : State) (n : Nat) (bs : List Byte) : Admit :=
  if 1 < tagCount bs then .drop (NET_P_TAGERR_COUNT n)
  else if !s.addrPass n (frameDst bs) then .stranger
  else
    let et := etherType bs
    if et ≠ 0x0800 ∧ et ≠ 0x0806 ∧ et ≠ 0x88F7 then .drop (NET_P_TYPEERR_COUNT n)
    else if et ≠ 0x0800 then .pass false
    else
      match parseIp bs with
      | none => .drop (NET_P_IPCSERR_COUNT n)
      | some ip =>
        if ip.frag % 0x4000 ≠ 0 then .drop (NET_P_FRAG_COUNT n)
        else if l4Bad bs ip then .drop (NET_P_L4CSERR_COUNT n)
        else if ip.proto ≠ 17 then .pass false
        else
          match s.c37Check (parseUdp bs ip) with
          | .bad => .drop (NET_P_CRCERR_COUNT n)
          | .unchecked => .pass true
          | .good => .pass false

/-- Checks 1 to 11. Checks 3 and 4 read the EtherType of an untagged frame: a tagged one goes on to check 5 (DESIGN CHOICE, log 22). -/
def State.admission (s : State) (n : Nat) (f : RxFrame) : Admit :=
  let len := f.bytes.length + 4
  let bs := f.bytes
  if len < 64 then .drop (NET_P_RUNT_COUNT n)
  else if 9216 < len then .drop (NET_P_OVERSIZE_COUNT n)
  else if !f.fcsOk then .drop (NET_P_FCSERR_COUNT n)
  else if beAt bs 12 2 = 0x8808 then
    let own := frameDst bs == 0x0180C2000001 || s.slotAddr n 0 == some (frameDst bs)
    if beAt bs 14 2 = 1 ∧ own then .pause (beAt bs 16 2) else .drop (NET_P_CTRLERR_COUNT n)
  else s.admitRest n bs

/-- Check 12 and the write into the FIFO: the writer sees up to 128 or 512 bytes fewer than are free (R121, R122). -/
def State.fifoPut (s : State) (n : Nat) (e : RxEntry) : State :=
  let p := s.port n
  let free := fifoCap n - p.fill
  let slack := if n < 4 then 128 else 512
  let (late, s) := if e.len ≤ free ∧ free < e.len + slack ∨ free < e.len then
      (let (v, s) := s.draw
       (v % (slack + 1), s)) else (0, s)
  let seen := free - late
  if e.len ≤ seen then
    let s := s.setPort n { p with fifo := p.fifo ++ [e] }
    let s := s.cntPair (NET_P_RX_OK_LO_COUNT n) (NET_P_RX_OK_HI_COUNT n) 1
    let s := s.cntPair (NET_P_RX_BYTES_LO_COUNT n) (NET_P_RX_BYTES_HI_COUNT n) e.len
    let s := s.fifoLevel n
    if decide (n < 4) && ptpEvent e.bytes && (ptpMatch s n (ptpDomain e.bytes)).isSome then
      s.tsqOffer n e.bytes true e.stamp e.epoch e.qual e.irc
    else s
  else
    let s := s.cnt (NET_P_OVF_COUNT n)
    if s.is (NET_P_FSTAT_OVF n) then s else (s.wr (NET_P_FSTAT_OVF n) 1).ev 0x2020 n e.len seen 0

/-- The receive stamp of a frame whose start-of-frame delimiter lies `ago` back: the counter as it then read, corrected (R90, R101). -/
def State.rxStamp (s : State) (n ago : Nat) : Nat :=
  let r := macRes (s.asOf ago).direct
  (((stampOf (s.taiAsOf ago) - ago / r * r : Nat) : Int) - ((s.rxCorr n : Nat) : Int) - s.userRx n).toNat

/-- A frame as the FIFO of its port holds it: the stamp carries the epoch, quality and IRC flag of its own instant (R14, R90, R112). -/
def State.rxEntry (s : State) (n : Nat) (f : RxFrame) (unchecked : Bool) : RxEntry :=
  let m := s.asOf f.ago
  ⟨f.bytes, f.bytes.length + 4, s.rxStamp n f.ago, m.epoch, m.qual, m.irc, frameTag f.bytes, unchecked⟩

/-- FRAME_RECEIVED (R112): the last byte of a frame. During a flush the frame is swallowed (R125). -/
def execFrameReceived (n : Nat) (f : RxFrame) (s : State) : Host.Outcome State Fault Refusal :=
  done s (
    let s := if 4 ≤ n then s.setPort n { s.port n with busyUntil := s.mono } else s
    if !s.portUp n || !s.is (NET_P_STAT_LINK n) || s.is (NET_P_FSTAT_FLUSH_BUSY n) then s
    else
      match s.admission n f with
      | .drop c => s.cnt c
      | .pause q => s.pauseFrame n q
      | .stranger =>
        let first := !(s.port n).stranger
        let s := (s.cnt (NET_P_STRANGER_COUNT n)).setPort n { s.port n with stranger := true }
        let d := frameDst f.bytes
        if first then s.ev 0x2010 n (d / 2 ^ 32) d (frameSrc f.bytes) else s
      | .pass unchecked => s.fifoPut n (s.rxEntry n f unchecked))

/-! ### Field ports (R127, R129) -/

/-- COLLISION (R127): `bit` is the bit of the frame at which it came. A jam of 32 bits follows in every case. -/
def execCollision (n bit : Nat) (s : State) : Host.Outcome State Fault Refusal :=
  done s (
    match (s.port n).tx with
    | [] => s
    | f :: rest =>
      if !s.portUp n || !s.csma n || !s.is (NET_P_STAT_LINK n) then s
      else
        let jam := s.mono + fieldBits 32
        let p := { s.port n with txUntil := jam, idleAt := jam }
        let len := max (f.bytes.length + 4) 64
        let s := s.cnt (NET_P_COL_COUNT n)
        if 512 < bit then
          ((s.setPort n (Port.accept n { p with tx := rest, cols := 0, backoffUntil := 0 })).cnt (NET_P_LATECOL_COUNT n)).ev 0x2041 n bit 0 0
        else if p.cols + 1 = 16 then
          ((s.setPort n (Port.accept n { p with tx := rest, cols := 0, backoffUntil := 0 })).cnt (NET_P_EXCOL_COUNT n)).ev 0x2040 n len 0 0
        else
          let m := p.cols + 1
          let (v, s) := s.draw
          let r := v % 2 ^ min m 10
          s.setPort n { p with cols := m, backoffUntil := jam + r * fieldBits 512 })

/-- BACKOFF_EXPIRY (R127): the backoff is over and the frame may be retried. -/
def execBackoffExpiry (n : Nat) (s : State) : Host.Outcome State Fault Refusal :=
  done s (
    if s.portUp n && (s.port n).backoffUntil != 0 then
      let s := s.waitUntil (s.port n).backoffUntil
      s.setPort n { s.port n with backoffUntil := 0 }
    else s)

/-- BEACON_TIMEOUT (R129): a follower that has seen no BEACON for 400 µs, counted from the last one or from link up. -/
def execBeaconTimeout (n : Nat) (s : State) : Host.Outcome State Fault Refusal :=
  done s (
    if s.portUp n && s.portMode n == 9 && s.is (NET_P_STAT_LINK n) && s.rd (NET_P_PLCA_NODE_ID n) != 0 && !(s.port n).fell then
      let s := s.waitUntil ((s.port n).lastBeacon + 400000 * nsU)
      let s := ((s.wr (NET_P_STAT_PLCA_ACT n) 0).cnt (NET_P_PLCA_FALLBK_COUNT n)).ev 0x2042 n (s.rd (NET_P_PLCA_NODE_ID n)) 0 0
      s.setPort n { s.port n with plcaLostAt := s.mono, fell := true, burst := 0 }
    else s)

/-- BEACON_RECEIVED (R129). The first after link up counts as their return too (DESIGN CHOICE, log 22). -/
def execBeaconReceived (n : Nat) (s : State) : Host.Outcome State Fault Refusal :=
  done s (
    if !s.portUp n || s.portMode n != 9 || !s.is (NET_P_STAT_LINK n) then s
    else if s.rd (NET_P_PLCA_NODE_ID n) = 0 then (s.cnt (NET_P_COL_COUNT n)).ev 0x2044 n 0 0 0
    else
      let was := s.is (NET_P_STAT_PLCA_ACT n)
      let us := s.usSince (s.port n).plcaLostAt
      let s := s.setPort n { s.port n with lastBeacon := s.mono, fell := false, burst := 0 }
      if was then s else (s.wr (NET_P_STAT_PLCA_ACT n) 1).ev 0x2043 n us 0 0)

/-- TSQ_POP (R103). -/
def execTsqPop (m : Master) (n : Nat) (s : State) : Host.Outcome State Fault Refusal :=
  done s (s.accessW m (0x20218 + 0x20 * n) 1 (fun s =>
    let q := s.tsQ n
    let items := q.items.drop 1
    s.setTsQ n { q with items := items, dropped := q.dropped && !items.isEmpty }))

end Sys2Proof.Machine
end

