-- ==== Sys2Proof/Machine/Concord.lean ====
section
/-! DEFINITION. Concord: the slot grid, the slot store and directory, what a slot expects, marking, the tolerance test and
dirty marks, the predictor, value generations, the early store, post-commit judgement, quorum and the slot record
(R145–R148, R183–R218). What the spec leaves open here: DEDUCED, log 18. -/

namespace Sys2Proof.Machine

/-! ### The grid (R3, R184) -/

/-- The reporting rates permitted for a system frequency (R3). -/
def rateOk (f60 : Bool) (r : Nat) : Bool :=
  if f60 then [10, 12, 15, 20, 30, 60, 120, 240].contains r else [10, 25, 50, 100, 200].contains r

/-- The system frequency in force is 60 Hz. -/
def State.is60 (s : State) : Bool := s.is CCD_STAT_FSYS_ACT

/-- The system slot rate and frequency that entries are judged by: those in force, or those set where no grid has started. -/
def State.sysRate (s : State) : Nat := if s.rate = 0 then s.rd CCD_CFG_RATE else s.rate
def State.sys60 (s : State) : Bool := if s.rate = 0 then s.is CCD_CFG_FSYS else s.is60

/-- Slot time of a grid point in ns (R184). -/
def gridNs (f : Nat) (g : Nat × Nat) : Nat := g.1 * 1000000000 + g.2 * 1000000000 / f

/-- `w` grid steps later. -/
def gridStep (f : Nat) (g : Nat × Nat) (w : Nat) : Nat × Nat := if f = 0 then g else (g.1 + (g.2 + w) / f, (g.2 + w) % f)

/-- The latest grid point at or before a time in ns. -/
def gridOf (f t : Nat) : Nat × Nat :=
  (t / 1000000000, min (((t % 1000000000 + 1) * f - 1) / 1000000000) (f - 1))

/-- TAI in whole ns. -/
def State.nowNs (s : State) : Nat := s.tai / nsU

/-- Applies a function to a slot in its ring position. -/
def State.setSlot (s : State) (pos : Nat) (sl : Slot) : State := { s with ccd := { s.ccd with ring := assocSet s.ccd.ring pos sl } }

def State.slot (s : State) (pos : Nat) : Option Slot := assoc s.ccd.ring pos

/-- A slot is open in the states OPEN, SPECULATED and COMMITTING. -/
def Slot.isOpen (sl : Slot) : Bool := !sl.released && (sl.st == 2 || sl.st == 3 || sl.st == 4)

/-- The position of the slot that satisfies a test, taken by ascending serial. -/
def oldestSlot (ring : List (Nat × Slot)) (p : Slot → Bool) : Option (Nat × Slot) :=
  ring.foldl (fun a e =>
    if e.2.released || !p e.2 then a
    else
      match a with
      | none => some e
      | some b => if laterSerial b.2.serial e.2.serial then some e else some b) none

/-- The slot of a serial held in the ring. -/
def State.bySerial (s : State) (n : Nat) : Option (Nat × Slot) :=
  (s.slot (n % 128)).bind (fun sl => if sl.serial = n then some (n % 128, sl) else none)

/-- The open slots, counted. -/
def State.openCount (s : State) : State := s.wr CCD_STAT_OPEN (s.ccd.ring.filter (fun e => e.2.isOpen)).length

/-- The open slots with their ring positions, in serial order. -/
def State.openOrder (s : State) : List (Nat × Slot) :=
  (s.ccd.ring.filter (fun e => e.2.isOpen)).foldl (fun l e =>
    l.takeWhile (fun x => laterSerial e.2.serial x.2.serial) ++ [e] ++ l.dropWhile (fun x => laterSerial e.2.serial x.2.serial)) []

/-! ### Value generations (R209) -/

/-- The fields at any word address, tables included. -/
def fieldsAny (a : Nat) : List Field :=
  if 2 ^ 32 ≤ a then
    tblFields ((a / 2 ^ 32 - 1) / 8) ((a / 2 ^ 32 - 1) % 8) (a % 2 ^ 32 / 256) (a % 256 / 4)
  else fieldsAt a

/-- A key belongs to a value generation: the buffered values of CCD, ANA and PUB, and words 24 and 28–30 of the stream
contexts (R207, R209, R233). -/
def genKey (k : Nat) : Bool :=
  let a := k / 32
  let b := blkOfAddr a
  (b == 8 || b == 9 || b == 11 || (b == 5 && decide (2 ^ 32 ≤ a) && (a % 256 == 96 || (decide (112 ≤ a % 256) && decide (a % 256 ≤ 120)))))
    && (fieldsAny a).any (fun f => f.lo == k % 32 && f.acc == .rwa)

/-- The values of a generation taken from a register file. -/
def genSnap (r : RegFile) : RegFile := r.filter (fun p => genKey p.1)

/-- The values of a slot's generation. -/
def State.gen (s : State) (id : Nat) : RegFile := (assoc s.ccd.gens id).getD (genSnap s.regs)

/-- A value of a generation, limited to its range. -/
def gEff (g : RegFile) (f : Field) : Nat := clamp f.least f.most (g.get f)

/-- A new generation when the values have changed; a fifth moves the slots on the oldest to the next (R209). -/
def State.genSync (s : State) : State :=
  let snap := genSnap s.regs
  match s.ccd.gens.getLast? with
  | none => { s with ccd := { s.ccd with gens := [(0, snap)] } }
  | some (id, g) =>
    if g = snap then s
    else
      let used := s.ccd.gens.filter (fun p => s.ccd.ring.any (fun e => e.2.gen == p.1 && !e.2.released))
      let gens := used ++ [((id + 1) % 2 ^ 32, snap)]
      if gens.length ≤ 4 then { s with ccd := { s.ccd with gens := gens } }
      else
        match gens with
        | o :: n :: rest =>
          let moved := (s.ccd.ring.filter (fun e => e.2.gen == o.1 && !e.2.released)).length
          let ring := s.ccd.ring.map (fun e => if e.2.gen = o.1 then (e.1, { e.2 with gen := n.1 }) else e)
          (({ s with ccd := { s.ccd with gens := n :: rest, ring := ring } }).cnt CCD_GENMERGE_COUNT).ev 0x510C o.1 moved 0 0
        | _ => { s with ccd := { s.ccd with gens := gens } }

/-! ### Columns and allocations (R131, R133, R144, R172) -/

/-- The context in whose column and allocation a context's data are placed: the lower member of a pair in force. -/
def State.placeCtx (s : State) (c : Nat) : Nat :=
  match s.pairOf c with
  | some p => min c p
  | none => c

/-- DIV of an entry. -/
def State.ctxDiv (s : State) (c : Nat) : Nat := s.eff (CTX_DIV c)

/-- The enabled context that fills a column: itself, or a multi-PMU context below it (R133). -/
def State.ctxOfCol (s : State) (c : Nat) : Option Nat :=
  if s.is (CTX_EN c) then (if s.placeCtx c = c then some c else none)
  else ((List.range 7).map (fun j => j + 1)).findSome? (fun j =>
    if j ≤ c ∧ s.is (CTX_EN (c - j)) ∧ j ≤ s.rd (CTX_NPMU (c - j)) ∧ s.placeCtx (c - j) = c - j then some (c - j) else none)

/-- The enabled home stream of a column (R172). -/
def State.homeOfCol (s : State) (c : Nat) : Option Nat :=
  (List.range 32).find? (fun h => s.is (HSM_EN h) && s.rd (HSM_COLUMN h) == c)

/-- DIV of the stream that fills a column, if one does. -/
def State.colDiv (s : State) (c : Nat) : Option Nat :=
  match s.homeOfCol c with
  | some h => some (s.eff (HSM_DIV h))
  | none => (s.ctxOfCol c).map (fun x => s.ctxDiv x)

/-- Column `c` is expected in the slot with index `k` (R192). -/
def State.expects (s : State) (k c : Nat) : Bool :=
  match s.colDiv c with
  | some d => k % d == 0
  | none => false

/-- A column of the directory as the opening sets it. -/
def colAbsent : Col := ⟨1, false, false, false, 0, 0, 0, 0xC000, 0x8000, 0x8000, 0, 0, false⟩

/-- Entries of a home stream's descriptors and bound monitors (R172). -/
def State.homePhd (s : State) (h i : Nat) : Nat := if i % 2 = 0 then s.rd (HSM_PHDL h (i / 2)) else s.rd (HSM_PHDH h (i / 2))
def State.homeNph (s : State) (h : Nat) : Nat := ((List.range 16).filter (fun i => bit (s.homePhd h i) 10 == 1)).length
def State.homeNan (s : State) (h : Nat) : Nat := 4 * popCount 16 (s.rd (HSM_SSOMASK h))

/-! ### Reading a slot (R187) -/

/-- The missing pattern of a float32 part. -/
def fMiss : Nat := 0x7FC00000

/-- A column holds values: PRESENT or SRCPRED, and readable. -/
def Col.holds (c : Col) : Bool := (c.st == 2 || c.st == 3) && !c.ue

/-- A phasor entry as every reader sees it. -/
def Slot.phAt (sl : Slot) (p : Nat) : Nat × Nat :=
  match assoc sl.ph p with
  | some e =>
    match assoc sl.cols e.col with
    | some c => if c.holds then (e.re, e.im) else (fMiss, fMiss)
    | none => (fMiss, fMiss)
  | none => (fMiss, fMiss)

/-- An analogue entry as every reader sees it. -/
def Slot.anAt (sl : Slot) (p : Nat) : Nat :=
  match assoc sl.an p with
  | some e =>
    match assoc sl.cols e.col with
    | some c => if c.holds then e.v else fMiss
    | none => fMiss
  | none => fMiss

/-- Digital, STAT, frequency and ROCOF words of a column as every reader sees them. -/
def Slot.colAt (sl : Slot) (c : Nat) : Nat × Nat × Nat × Nat :=
  match assoc sl.cols c with
  | some x => if x.holds then (x.dig, x.stat, x.fq, x.rc) else if x.st = 4 ∧ !x.ue then (0, x.stat, 0x8000, 0x8000) else (0, 0xC000, 0x8000, 0x8000)
  | none => (0, 0xC000, 0x8000, 0x8000)

/-- A directory entry (R188). -/
def Slot.dirEntry (sl : Slot) (c : Nat) : Nat :=
  match assoc sl.cols c with
  | some x => x.st + b2n x.irc * 8 + b2n x.pred * 16 + b2n x.early * 32 + x.ofs * 64
  | none => 0

/-- W8 [20]: a PRESENT column carries IRC, or C was taken in IRC-direct (R204). -/
def Slot.irc (sl : Slot) : Bool := sl.cIrc || sl.cols.any (fun p => p.2.st == 2 && p.2.irc)

/-- A word of the slot record (R204); the last published revision takes W15 [15:12]. -/
def Slot.word (sl : Slot) (i : Nat) : Nat :=
  let frozen := sl.st == 5
  let c := sl.cAt.getD 0 / 16
  match i with
  | 0 => sl.serial
  | 1 => sl.t / 1000000000 % 2 ^ 32
  | 2 => sl.t / 1000000000 / 2 ^ 32 + sl.epoch * 65536
  | 3 => sl.t % 1000000000
  | 4 => sl.soc
  | 5 => sl.frac + sl.tq * 2 ^ 24
  | 6 => c / 1000000000 % 2 ^ 32
  | 7 => c % 1000000000
  | 8 => if frozen then sl.hz + (if sl.hdrBad then 6 else sl.st) * 65536 + b2n sl.irc * 2 ^ 20 + b2n sl.noSpec * 2 ^ 21 + b2n sl.held * 2 ^ 22 + sl.quor * 2 ^ 23 else 0
  | 15 => nth sl.words 6 0 % 4096 + (sl.rev.getD 0) * 4096
  | _ => nth sl.words (i - 9) 0

/-- The bytes the digest is taken over (R205). -/
def Slot.digestBytes (sl : Slot) : List Byte :=
  leBytes 6 (sl.t / 1000000000) ++ leBytes 4 (sl.t % 1000000000)
    ++ (List.range 4096).map (fun c => toByte (((assoc sl.cols c).map (fun x => x.st)).getD 0))
    ++ (List.range 32768).flatMap (fun p => leBytes 4 (sl.phAt p).1 ++ leBytes 4 (sl.phAt p).2)
    ++ (List.range 8192).flatMap (fun p => leBytes 4 (sl.anAt p))
    ++ (List.range 4096).flatMap (fun c => leBytes 2 (sl.colAt c).1)
    ++ (List.range 4096).flatMap (fun c => leBytes 2 (sl.colAt c).2.1)
    ++ (List.range 4096).flatMap (fun c => leBytes 2 (sl.colAt c).2.2.1 ++ leBytes 2 (sl.colAt c).2.2.2)

/-! ### Quorum (R197) -/

/-- Expected and PRESENT columns of class `q` in a slot. -/
def Slot.classCount (sl : Slot) (g : RegFile) (q : Nat) : Nat × Nat :=
  let cs := sl.cols.filter (fun p => g.get (CTX_QCLASS p.1) == q)
  (cs.length, (cs.filter (fun p => p.2.st == 2)).length)

/-- Class `q` is quorate. -/
def Slot.quorate (sl : Slot) (g : RegFile) (q : Nat) : Bool :=
  let (e, n) := sl.classCount g q
  let pct := gEff g (CCD_QC_QPCT q)
  e == 0 || pct == 0 || decide ((pct * e + 99) / 100 ≤ n)

/-- The quorate flags as W8 [30:23] holds them: bit 0 the slot, bit q class q. -/
def Slot.quorum (sl : Slot) (g : RegFile) : Nat :=
  let cl := maskOf 7 (fun i => sl.quorate g (i + 1))
  b2n (cl == 127) + cl * 2

/-! ### The predictor (R210–R212) -/

/-- Whole turns taken off an angle: the remainder lies in (−π, π] (R235). -/
def fReduce (x : Nat) : Option Nat := do
  let n := fToInt (← fDiv x f2Pi) 1
  fWrap (← fSub x (← fMul (← fOfInt n) f2Pi))

/-- The frequency half of a pair in Hz: 1 mHz units, missing counts as 0 here. -/
def fqHz (w : Nat) : Option Nat := if w = 0x8000 then some 0 else fOfRat (sint 16 w) 1000

/-- The ROCOF half of a pair in Hz/s. -/
def rcHz (w : Nat) : Option Nat := if w = 0x8000 then some 0 else fOfRat (sint 16 w) 100

/-- A value as a half of the pair: saturating within 0x8001 to 0x7FFF (R138, R187). -/
def halfWord (i : Int) : Nat := uint 16 (if i < -32767 then -32767 else if 32767 < i then 32767 else i)

/-- θ of R212 for a pair and a time in ns. -/
def predAngle (fq rc : Nat) (ns : Nat) : Option Nat := do
  let tau ← fOfRat ns 1000000000
  let f ← fqHz fq
  let r ← rcHz rc
  let a ← fMul f tau
  let b ← fDiv (← fMul r (← fMul tau tau)) 0x40000000
  fReduce (← fMul f2Pi (← fAdd a b))

/-- The predicted frequency half (R212). -/
def predFq (fq rc ns : Nat) : Nat :=
  if fq = 0x8000 then 0x8000
  else if rc = 0x8000 then fq
  else
    match (do
      let tau ← fOfRat ns 1000000000
      let v ← fAdd (← fqHz fq) (← fMul (← rcHz rc) tau)
      return halfWord (fToInt v 1000)) with
    | some w => w
    | none => 0x8000

/-- A phasor entry turned by θ (R212); a value that cannot be formed is missing. -/
def predPh (th : Option Nat) (e : PhEnt) : PhEnt :=
  match (do
    let t ← th
    let c ← fCos t
    let n ← fSin t
    cMul (e.re, e.im) (c, n)) with
  | some v => ⟨e.col, v.1, v.2⟩
  | none => ⟨e.col, fMiss, fMiss⟩

/-- The anchor of a column for a slot: its time, pair, digital, STAT, phasors and analogues (R211). -/
def State.anchor (s : State) (g : RegFile) (sl : Slot) (c : Nat) : Option BaseCol :=
  let lower := s.ccd.ring.filter (fun e => laterSerial sl.serial e.2.serial && e.2.epoch == sl.epoch && e.2.st != 6 &&
    (match assoc e.2.cols c with
     | some x => x.st == 2 && !x.ue
     | none => false))
  let best := lower.foldl (fun (a : Option Slot) e =>
    match a with
    | none => some e.2
    | some b => if b.t < e.2.t then some e.2 else some b) none
  let anc : Option BaseCol :=
    match best with
    | some b => (assoc b.cols c).map (fun x => ⟨b.t, b.epoch, x.stat, x.dig, x.fq, x.rc, b.ph.filter (fun p => p.2.col == c), b.an.filter (fun p => p.2.col == c)⟩)
    | none => (assoc s.ccd.base c).bind (fun b => if b.epoch = sl.epoch then some b else none)
  let div := (s.colDiv c).getD 1
  anc.bind (fun b =>
    if b.t ≤ sl.t ∧ (sl.t - b.t) * s.rate ≤ gEff g (CTX_PRED_MAX c) * div * 1000000000 then some b else none)

/-- A column as a reader without prediction is shown it. -/
def plainCol (c : Col) : ViewCol :=
  if c.holds then ⟨if c.st = 3 then 1 else 2, c.st, false, c.dig, c.stat, c.fq, c.rc⟩
  else ⟨0, c.st, false, 0, if c.st = 4 ∧ !c.ue then c.stat else 0xC000, 0x8000, 0x8000⟩

/-- The view of an indicative evaluation: the slot as every reader sees it (R210). -/
def Slot.plainView (sl : Slot) : View :=
  let ok (c : Nat) : Bool := ((assoc sl.cols c).map (fun x => x.holds)).getD false
  ⟨sl.cols.map (fun p => (p.1, plainCol p.2)), sl.ph.filter (fun p => ok p.2.col), sl.an.filter (fun p => ok p.2.col)⟩

/-- The subjunctive view (R210): ABSENT columns with an anchor are shown predicted. -/
def State.subView (s : State) (sl : Slot) : View :=
  let g := s.gen sl.gen
  let base := sl.plainView
  sl.cols.foldl (fun v p =>
    if p.2.st ≠ 1 ∨ g.get (CTX_PRED_EN p.1) = 0 then v
    else
      match s.anchor g sl p.1 with
      | none => v
      | some b =>
        let ns := sl.t - b.t
        let th := predAngle b.fq b.rc ns
        ⟨assocSet v.cols p.1 ⟨1, 1, true, b.dig, b.stat, predFq b.fq b.rc ns, b.rc⟩,
         b.ph.foldl (fun l e => assocSet l e.1 (predPh th e.2)) v.ph,
         b.an.foldl (fun l e => assocSet l e.1 e.2) v.an⟩) base

/-! ### Tolerance (R216) -/

/-- A comparison of float32 values that may have failed to form: a failure counts as exceeding. -/
def fExceeds (a b : Option Nat) : Bool :=
  match a, b with
  | some x, some y => fLt y x
  | _, _ => true

/-- An entry is missing: a part is a NaN. -/
def phMissing (e : PhEnt) : Bool := fBad e.re || fBad e.im

/-- The entries of both values under each index. -/
def bothKeys {α : Type} (a b : List (Nat × α)) : List Nat :=
  a.map (fun p => p.1) ++ (b.filter (fun p => (assoc a p.1).isNone)).map (fun p => p.1)

/-- The failed test of R216: 1 magnitude, 2 angle, 3 frequency, 4 analogue, 5 digital, 6 STAT, 0 none. -/
def tolTest (g : RegFile) (p : Place) (v : View) (vc : ViewCol) : Nat :=
  let c := p.col
  let vph := v.ph.filter (fun e => e.2.col == c)
  let van := v.an.filter (fun e => e.2.col == c)
  let miss : PhEnt := ⟨c, fMiss, fMiss⟩
  let pairs := (bothKeys p.ph vph).map (fun k => ((assoc p.ph k).getD miss, (assoc vph k).getD miss))
  let tm := g.get (CTX_TOLMAG c)
  let ta := g.get (CTX_TOLANG c)
  let tf := g.get (CTX_TOLF c)
  let tn := g.get (CTX_TOLAN c)
  let badMag (q : PhEnt × PhEnt) : Bool :=
    if phMissing q.1 && phMissing q.2 then false
    else if phMissing q.1 || phMissing q.2 then true
    else
      let m := cAbs (q.1.re, q.1.im)
      let n := cAbs (q.2.re, q.2.im)
      fExceeds (do
        return fAbs (← fSub (← m) (← n))) (do
        fMul (← fOfRat (tm : Int) 10000) (← n))
  let badAng (q : PhEnt × PhEnt) : Bool :=
    if phMissing q.1 || phMissing q.2 then false
    else if (fVal q.1.re == 0 && fVal q.1.im == 0) || (fVal q.2.re == 0 && fVal q.2.im == 0) then false
    else fExceeds (do
      return fAbs (← cArg (← cMul (q.1.re, q.1.im) (cConj (q.2.re, q.2.im))))) (fOfRat (ta : Int) 10000)
  let gone (h : Nat) : Bool := h == 0x8000
  let badF : Bool := gone p.fq != gone vc.fq || gone p.rc != gone vc.rc
    || (!gone p.fq && decide (tf < (sint 16 p.fq - sint 16 vc.fq).natAbs))
  let ans := (bothKeys p.an van).map (fun k => (((assoc p.an k).map (fun e => e.v)).getD fMiss, ((assoc van k).map (fun e => e.v)).getD fMiss))
  let badA (q : Nat × Nat) : Bool :=
    if fBad q.1 && fBad q.2 then false
    else if fBad q.1 || fBad q.2 then true
    else fExceeds (do
      return fAbs (← fSub q.1 q.2)) (do
      let n := fAbs q.2
      fMul (← fOfRat (tn : Int) 10000) (if fLt n f1 then f1 else n))
  if tm ≠ 0xFFFF ∧ pairs.any badMag then 1
  else if ta ≠ 0xFFFF ∧ pairs.any badAng then 2
  else if tf ≠ 0xFFFF ∧ badF then 3
  else if tn ≠ 0xFFFF ∧ ans.any badA then 4
  else if g.get (CTX_DIGDIRTY c) = 1 ∧ p.dig ≠ vc.dig then 5
  else if g.get (CTX_STATDIRTY c) = 1 ∧ p.stat / 8192 ≠ vc.stat / 8192 then 6
  else 0

/-! ### Dirty marks (R218) -/

/-- Marks a slot dirty; a slot that has published revision 15 counts in CCD_REVFULL (R224). -/
def State.dirtyMark (s : State) (pos col cause test : Nat) : State :=
  match s.slot pos with
  | none => s
  | some sl =>
    let s := (s.setSlot pos { sl with dirty := true }).cnt CCD_DIRTYCNT_COUNT
    if sl.rev = some 15 then (s.cnt CCD_REVFULL_COUNT).ev 0x5102 sl.serial col cause 0
    else s.ev 0x5101 sl.serial col cause test

/-- Cause 6: the oldest SPECULATED slot after a COMMITTING one, if evaluated. -/
def State.dirtyAfter (s : State) (serial col : Nat) : State :=
  match oldestSlot s.ccd.ring (fun x => x.st == 3 && laterSerial x.serial serial) with
  | some (pos, x) => if x.view.isSome then s.dirtyMark pos col 6 0 else s
  | none => s

/-- A value has been marked in a slot that has a completed subjunctive evaluation (R216, R218). -/
def State.markTest (s : State) (pos : Nat) (sl : Slot) (p : Place) : State :=
  match sl.view with
  | none => s
  | some v =>
    let vc := (assoc v.cols p.col).getD ⟨0, 1, false, 0, 0xC000, 0x8000, 0x8000⟩
    let hit (s : State) (cause test : Nat) : State :=
      let s := s.cnt (CTX_DIRTY p.col)
      if sl.st = 3 then s.dirtyMark pos p.col cause test else s.dirtyAfter sl.serial p.col
    if p.kind = 2 then (if vc.mood = 1 then hit s 2 0 else s)
    else if vc.mood = 0 then hit s 2 0
    else
      let s := s.cnt (CTX_TESTS p.col)
      let t := tolTest (s.gen sl.gen) p v vc
      if t = 0 then s else hit s 1 t

/-! ### Marking (R193) -/

/-- OFFSET of a placed value (R188). -/
def offsetOf (f : Nat) (t stamp : Nat) : Nat := min 1023 ((stamp - 16 * t) * 8 * f / 16000000000)

/-- Writes a frame into the slot store and marks its column; a column with an uncorrectable error keeps it (R206). -/
def Slot.put (sl : Slot) (f : Nat) (p : Place) : Slot :=
  let old := (assoc sl.cols p.col).getD colAbsent
  let c : Col := ⟨if p.kind = 0 then 2 else if p.kind = 1 then 3 else 4, p.irc, old.pred, p.early,
    if p.early then 0 else offsetOf f sl.t p.stamp, p.stamp, p.dig, p.stat, p.fq, p.rc, p.ctx, p.rev, old.ue⟩
  { sl with cols := assocSet sl.cols p.col c
            ph := p.ph.foldl (fun l e => assocSet l e.1 e.2) (sl.ph.filter (fun e => e.2.col != p.col))
            an := p.an.foldl (fun l e => assocSet l e.1 e.2) (sl.an.filter (fun e => e.2.col != p.col)) }

/-- What counts a frame is done once for it: for its first column. -/
def Place.once (p : Place) (f : State → State) (s : State) : State := if p.first then f s else s

/-- A frame is counted in its context's counter; a home stream has none. -/
def Place.count (p : Place) (f : Nat → Field) (s : State) : State := if p.home then s else s.cnt (f p.ctx)

/-- A duplicate (R147). -/
def State.dupDrop (s : State) (p : Place) : State :=
  p.once (fun s => (p.count CTX_DUP s).ev 0x3011 p.ctx p.col (p.t % 1000000000) 0) s

/-- The placement may change the column's state (R142, R147, R193). -/
def mayPlace (c : Col) (p : Place) : Bool :=
  c.st == 1 || (c.st == 3 && (p.kind != 1 || decide (c.rev < p.rev)))

/-- A frame of a column replaces an earlier one that is held: one of a source's prediction gives way to a measured one and to a higher
revision (R142, R147). -/
def replaces (q p : Place) : Bool := q.kind == 1 && (p.kind != 1 || decide (q.rev < p.rev))

/-- Makes a marking: the slot store, the counts of the frame, values without a place among them (R140), and the tests. -/
def State.markNow (s : State) (pos : Nat) (sl : Slot) (p : Place) : State :=
  let s := s.setSlot pos (sl.put s.rate p)
  let s := p.once (fun s =>
    let s := p.count CTX_RX s
    if p.lostPh = 0 ∧ p.lostAn = 0 then s else (p.count CTX_TRUNC s).ev 0x3014 p.ctx p.lostPh p.lostAn 0) s
  if sl.st = 3 ∨ sl.st = 4 then s.markTest pos sl p else s

/-- An evaluation of the slot is running (R213). -/
def State.evalRuns (s : State) (serial : Nat) : Bool :=
  (match s.ccd.evS with
   | some e => e.serial == serial
   | none => false) ||
  (match s.ccd.evI with
   | some e => e.serial == serial
   | none => false)

/-- Placement in an open slot: unexpected columns and duplicates are discarded; while an evaluation of the slot runs
the marking is held (R192, R193, R213). -/
def State.placeIn (s : State) (pos : Nat) (p : Place) : State :=
  match s.slot pos with
  | none => s
  | some sl =>
    match assoc sl.cols p.col with
    | none => p.once (fun s => (s.cnt CCD_UNEXP_COUNT).ev 0x5012 p.ctx p.col sl.serial 0) s
    | some c =>
      let waits := sl.heldMarks.any (fun q => q.col == p.col && !replaces q p)
      if waits || !mayPlace c p then s.dupDrop p
      else if s.evalRuns sl.serial then s.setSlot pos { sl with heldMarks := sl.heldMarks ++ [p] }
      else s.markNow pos sl p

/-- The markings held during an evaluation are made after it (R213). -/
def State.heldMarkings (s : State) (pos : Nat) : State :=
  match s.slot pos with
  | none => s
  | some sl =>
    let s := s.setSlot pos { sl with heldMarks := [] }
    s.each sl.heldMarks (fun s p =>
      match s.slot pos with
      | some x => s.markNow pos x p
      | none => s)

/-! ### Frames that miss their slot (R199, R200) -/

/-- Lateness in µs of a post-commit frame, from C or from the slot time plus W grid steps. -/
def State.lateness (s : State) (p : Place) : Int × Nat :=
  match s.ccd.ring.find? (fun e => e.2.t == p.t && e.2.epoch == p.epoch && e.2.cAt.isSome && e.2.st != 6) with
  | some e => ((((p.stamp : Int) - ((e.2.cAt.getD 0 : Nat) : Int)) / 16000), e.2.serial)
  | none =>
    let w := match s.ccd.gens with
      | g :: _ => gEff g.2 CCD_WAIT_WAIT
      | [] => s.eff CCD_WAIT_WAIT
    let f := s.rate
    (((p.stamp : Int) - ((16 * gridNs f (gridStep f (gridOf f p.t) w) : Nat) : Int)) / 16000, 2 ^ 32 - 1)

/-- A frame for an aborted or skipped slot time, or for a held one without room (R199, R201). -/
def State.deadFrame (s : State) (p : Place) : State :=
  p.once (fun s => (s.cnt CCD_DEADFR_COUNT).ev 0x5011 p.ctx p.col (p.t / 1000000000) (p.t % 1000000000)) s

/-- R199: duplicate, dead or post-commit. A frame counts once, and in LATE of each of its columns. -/
def State.postCommit (s : State) (p : Place) : State :=
  let dup := s.ccd.ring.any (fun e => e.2.t == p.t && e.2.st == 5 &&
    (match assoc e.2.cols p.col with
     | some c => c.st == 2
     | none => false))
  if dup then s.dupDrop p
  else if s.ccd.dead.any (fun d => decide (d.first ≤ p.t) && decide (p.t ≤ d.last) && d.epoch == p.epoch) then
    s.deadFrame p
  else
    let (late, serial) := s.lateness p
    let s := p.once (fun s => (s.cnt CCD_POSTCOMMIT_COUNT).ev 0x5010 p.ctx p.col serial (i32 late)) (s.cnt (CTX_LATE p.col))
    if s.is (CTX_ARCH_LATE p.col) then { s with ccd := { s.ccd with lateQ := s.ccd.lateQ ++ [(p, serial, i32 late)] } } else s

/-- A frame is discarded as early (R146). -/
def State.earlyDrop (s : State) (p : Place) : State :=
  p.once (fun s => (p.count CTX_EARLY s).ev 0x3010 p.ctx (p.t % 1000000000) ((s.ccd.o.getD 0) % 1000000000) 0) s

/-- The early store: two places per column, the replacements of R142 among them (R146, R147, R201). -/
def State.earlyHold (s : State) (p : Place) (full : State → State) : State :=
  let mine := s.ccd.early.filter (fun q => q.col == p.col)
  match mine.find? (fun q => q.t == p.t) with
  | some q =>
    if replaces q p then { s with ccd := { s.ccd with early := s.ccd.early.map (fun x => if x = q then p else x) } } else s.dupDrop p
  | none => if 2 ≤ mine.length then full s else { s with ccd := { s.ccd with early := s.ccd.early ++ [p] } }

/-- A frame stamped in an earlier epoch is discarded (R148). -/
def State.staleFrame (s : State) (p : Place) : State :=
  p.once (fun s => (p.count CTX_STALE s).ev 0x3013 p.ctx p.epoch s.epoch 0) s

/-- The held early frames are stale after a backward step (R148). -/
def State.earlyStale (s : State) : State :=
  s.ccd.early.foldl (fun s p => s.staleFrame p) { s with ccd := { s.ccd with early := [] } }

/-- Placement by slot time (R146–R148, R194, R201). -/
def State.place (s : State) (p : Place) : State :=
  if p.epoch < s.epoch then s.staleFrame p
  else
    match s.ccd.o with
    | none => s.earlyDrop p
    | some o =>
      let f := s.rate
      if gridNs f (gridStep f (gridOf f o) 2) < p.t then s.earlyDrop p
      else if o < p.t then s.earlyHold p (fun s => s.earlyDrop p)
      else
        match s.ccd.ring.find? (fun e => e.2.isOpen && e.2.t == p.t && e.2.epoch == s.epoch) with
        | some (pos, sl) => if sl.st = 4 ∧ sl.cAt.getD 0 < p.stamp then s.postCommit p else s.placeIn pos p
        | none =>
          if s.ccd.helds.any (fun h => h.t == p.t) then
            s.earlyHold p (fun s => s.deadFrame p)
          else s.postCommit p

/-! ### Opening (R189, R190) -/

/-- The points of a slot opened now: speculation point, if any, and commit point (R190). -/
def State.points (s : State) (g : Nat × Nat) : Option Nat × Nat :=
  let f := s.rate
  let t := gridNs f g
  let d := if s.is CCD_SPECSTAT_CATCHUP then 1000 else s.eff CCD_SPEC_DELAY
  let c := gridNs f (gridStep f g (s.eff CCD_WAIT_WAIT))
  let sp := t + d * 1000
  let (sp, c) := match s.ccd.lastOpen with
    | some (e, lsp, lc) => if e = s.epoch then (max sp (lsp.getD 0), max c lc) else (sp, c)
    | none => (sp, c)
  (if s.is CCD_SPEC_EN ∧ sp < c then some sp else none, c)

/-- TAI − UTC and the leap-second bits of C37.118 (direction, occurred, pending) as they stand at a TAI instant in ns not yet passed: a
leap second pending takes effect at its start (R109, R184). -/
def State.utcAt (s : State) (t : Nat) : Nat × Nat :=
  let ofs := s.rd TNS_UTC_OFS
  let dir := s.rd TNS_UTC_LSDIR
  let occ := s.rd TNS_UTC_LSOCC
  match s.tns.leapAt with
  | some l =>
    if l * 1000000000 ≤ t then ((if dir = 0 then ofs + 1 else ofs + 65535) % 65536, 4 * dir + 2 * (1 - occ))
    else (ofs, 4 * dir + 2 * occ + s.rd TNS_UTC_LSP)
  | none => (ofs, 4 * dir + 2 * occ + s.rd TNS_UTC_LSP)

/-- Opens a slot in its position, `utc` being the UTC offset and leap-second bits of its slot time, with the held early frames placed (R146, R189, R201). -/
def State.openSlot (s : State) (g : Nat × Nat) (sp : Option Nat) (cp : Nat) (held : Bool) (sti : Nat) (utc : Nat × Nat) : State :=
  let f := s.rate
  let t := gridNs f g
  let n := s.rd CCD_NEXT_SERIAL_SERIAL
  let s := s.genSync
  let id := match s.ccd.gens.getLast? with
    | some p => p.1
    | none => 0
  let cols := ((List.range 4096).filter (fun c => s.expects g.2 c)).map (fun c => (c, colAbsent))
  let soc := (g.1 + 2 ^ 32 - utc.1 % 2 ^ 32) % 2 ^ 32
  let frac := (2 * g.2 * s.ccd.tbase + f) / (2 * f)
  let sl : Slot := ⟨n, t, g.2, s.epoch, 2, soc, frac, s.tqCode, utc.2, sp, cp, none, false, 0, sp.isNone, held, 0, 0, [], cols, [], [], sti, id,
    false, false, false, none, [], false, none, none, none, [], [], false, false, [], false⟩
  let s := s.setSlot (n % 128) sl
  let s : State := { s with ccd := { s.ccd with lastOpen := some (s.epoch, sp, cp) } }
  let s := ((s.wr CCD_NEXT_SERIAL_SERIAL (n + 1)).cnt CCD_OPENED_COUNT).openCount
  let mine := s.ccd.early.filter (fun q => q.t == t)
  let s : State := { s with ccd := { s.ccd with early := s.ccd.early.filter (fun q => q.t != t) } }
  s.each mine (fun s q => s.placeIn (n % 128) { q with early := true })

/-- Skips slot times: counts, dead range, dead frames, one event for the run (R201–R203). On a backward step, reason 3, the frames held
early are stale instead (R148). -/
def State.skipRun (s : State) (ts : List Nat) (epoch reason : Nat) : State :=
  match ts with
  | [] => s
  | t :: _ =>
    let last := ts.getLast?.getD t
    let gone (q : Place) : Bool := reason != 3 && ts.contains q.t
    let deadFr := s.ccd.early.filter (fun q => gone q && q.first)
    let s : State := { s with ccd := { s.ccd with early := s.ccd.early.filter (fun q => !gone q), dead := (⟨t, last, epoch⟩ :: s.ccd.dead).take 16, discQ := s.ccd.discQ ++ [(t, epoch, ts.length, 2, 0)] } }
    let s := (s.cntN CCD_SKIPPED_COUNT ts.length).cntN CCD_DEADFR_COUNT deadFr.length
    s.ev 0x5002 (t / 1000000000) (t % 1000000000) ts.length reason

/-- The position of the next serial is free. -/
def State.posFree (s : State) : Bool :=
  match s.slot (s.rd CCD_NEXT_SERIAL_SERIAL % 128) with
  | some sl => sl.released
  | none => true

/-- CCD_STAT.HELD follows the held slot times. -/
def State.heldStat (s : State) : State := s.wr CCD_STAT_HELD (b2n (!s.ccd.helds.isEmpty))

/-- The levels of the status inputs accepted now (R252). -/
def State.stiLevels (s : State) : Nat := s.rd ACQ_STI_STATE_LO_STATE + s.rd ACQ_STI_STATE_HI_STATE * 2 ^ 32

/-- A slot time is held because its position is occupied (R201). -/
def State.holdSlot (s : State) (g : Nat × Nat) (sp : Option Nat) (cp : Nat) : State :=
  let t := gridNs s.rate g
  let n := (s.rd CCD_NEXT_SERIAL_SERIAL + s.ccd.helds.length) % 2 ^ 32
  let s : State := { s with ccd := { s.ccd with helds := s.ccd.helds ++ [⟨t, g.2, sp, cp, s.mono, n, s.stiLevels, (s.utcAt t).1, (s.utcAt t).2⟩], lastOpen := some (s.epoch, sp, cp) } }
  ((s.cnt CCD_DEFERRED_COUNT).heldStat).ev 0x5003 n (n % 128) (t % 1000000000) 0

/-- Held slots whose commit point has fallen due are skipped on this tick, as one run (R201). -/
def State.heldSkip (s : State) : State :=
  let now := s.nowNs
  let gone := s.ccd.helds.takeWhile (fun h => decide (h.commitAt ≤ now))
  let s : State := { s with ccd := { s.ccd with helds := s.ccd.helds.drop gone.length } }
  if gone.isEmpty then s else (s.skipRun (gone.map (fun h => h.t)) s.epoch 2).heldStat

/-- Held slots open one after another while the position of the next serial is free (R201). -/
def State.heldOpenN (fuel : Nat) (s : State) : State :=
  match fuel, s.ccd.helds with
  | 0, _ => s
  | _, [] => s
  | k + 1, h :: rest =>
    if !s.posFree then s
    else
      let n := s.rd CCD_NEXT_SERIAL_SERIAL
      let us := s.usSince h.since
      let s := ({ s with ccd := { s.ccd with helds := rest } }).heldStat
      let s := s.ev 0x5004 n us 0 0
      State.heldOpenN k (s.openSlot (h.t / 1000000000, h.k) h.specAt h.commitAt true h.sti (h.ofs, h.leap))

/-- Held slots open as their positions are released (R201). -/
def State.heldOpen (s : State) : State := State.heldOpenN s.ccd.helds.length s.heldSkip

/-- A slot time falls due: O moves, and the slot opens or is held; while activation pauses Concord nothing opens (R189,
R201, R381). -/
def State.slotDue (s : State) (g : Nat × Nat) : State :=
  let f := s.rate
  let t := gridNs f g
  let s : State := { s with ccd := { s.ccd with o := some t, grid := gridStep f g 1 } }
  let s := s.each (List.range 6) (fun s n => s.statUpdate 9 n (((s.port n).fill : Nat) : Int) 0)
  if s.ccd.paused then s
  else
    let (sp, cp) := s.points g
    if s.posFree ∧ s.ccd.helds.isEmpty then s.openSlot g sp cp false s.stiLevels (s.utcAt t) else s.holdSlot g sp cp

/-! ### Points -/

/-- The speculation point of a slot: quorum is counted, and the slot is SPECULATED and new (R191, R197). -/
def State.specPoint (s : State) (pos : Nat) (sl : Slot) : State :=
  s.setSlot pos { sl with st := 3, new := true, specQuor := sl.quorum (s.gen sl.gen) }

/-- The commit point of a slot: C is the counter after the tick (R191). -/
def State.commitPoint (s : State) (pos : Nat) (sl : Slot) : State :=
  s.setSlot pos { sl with st := 4, cAt := some (stampOf s.tai), cIrc := s.ircDirect }

/-! ### The freeze (R195–R197, R204, R205) -/

/-- Per-column counters of a committed slot (R207). -/
def State.colCommit (s : State) (serial : Nat) (p : Nat × Col) : State :=
  let c := p.1
  let x := p.2
  let s := (s.wr (CTX_LASTSTATE c) x.st).wr (CTX_LASTOFS c) x.ofs
  if x.st = 2 then
    let run := s.rd (CTX_MISSRUN c)
    let s := (s.cnt (CTX_PRESENT c)).wr (CTX_MISSRUN c) 0
    if s.ccd.missEv.contains c then
      ({ s with ccd := { s.ccd with missEv := s.ccd.missEv.filter (fun d => d != c) } }).ev 0x5041 c run serial 0
    else s
  else
    let s := if x.st = 5 then s.cnt (CTX_MISSING c) else s
    let run := min 65535 (s.rd (CTX_MISSRUN c) + 1)
    let s := s.wr (CTX_MISSRUN c) run
    let lim := s.rd CCD_MISS_EV_RUN
    if lim ≠ 0 ∧ run = lim then
      ({ s with ccd := { s.ccd with missEv := c :: s.ccd.missEv } }).ev 0x5040 c run serial 0
    else s

/-- Columns that the last committed slot does not expect show NONE (R207). -/
def State.colsNone (s : State) (cols : List (Nat × Col)) : State :=
  s.each ((List.range 4096).filter (fun c => (s.rd (CTX_LASTSTATE c) != 0 || s.rd (CTX_LASTOFS c) != 0) && (assoc cols c).isNone))
    (fun s c => (s.wr (CTX_LASTSTATE c) 0).wr (CTX_LASTOFS c) 0)

/-- The slot as the freeze leaves it. -/
def Slot.frozen (sl : Slot) (g : RegFile) (hz : Nat) : Slot :=
  let srcpred := (sl.cols.filter (fun p => p.2.st == 3)).length
  let cols := sl.cols.map (fun p =>
    (p.1, { p.2 with st := if p.2.st = 1 ∨ p.2.st = 3 ∨ p.2.ue then 5 else p.2.st, pred := false }))
  let n (k : Nat) : Nat := (cols.filter (fun p => p.2.st == k)).length
  let x : Slot := { sl with cols := cols, st := 5, hz := min hz 65535 }
  let cl (q : Nat) : Nat := (x.classCount g q).2
  let irc := (cols.filter (fun p => p.2.st == 2 && p.2.irc)).length
  let x : Slot := { x with quor := x.quorum g,
                           words := [cols.length + n 2 * 65536, n 5 + n 4 * 65536, srcpred + irc * 65536, cl 1 + cl 2 * 65536,
                                     cl 3 + cl 4 * 65536, cl 5 + cl 6 * 65536, cl 7] }
  let d := beBytes 32 (Config.sha256 x.digestBytes)
  { x with words := x.words ++ (List.range 4).map (fun i => leAt d (4 * i) 4) }

/-- An entry is stamped after `c` (1/16 ns) of the present epoch; one of an earlier epoch is before it. -/
def State.after (s : State) (c : Nat) (e : RxEntry) : Bool := e.epoch == s.epoch && decide (c < e.stamp)

/-- No frame stamped at or before `c` (1/16 ns) waits unread, and no coded one (R195). -/
def State.backlogClear (s : State) (c : Nat) : Bool :=
  (List.range 6).all (fun n => decide (c < nth s.ccd.stamps n 0) || (s.port n).fifo.all (s.after c))
    && s.ing.coded.all (fun e => s.after c e.entry)

/-- The conditions of R195 as far as the part can see them, with every held marking made. -/
def State.mayFreeze (s : State) (sl : Slot) : Bool := s.backlogClear (sl.cAt.getD 0) && sl.heldMarks.isEmpty

/-- The freeze of a COMMITTING slot; `port` held it last. -/
def State.freeze (s : State) (pos : Nat) (sl : Slot) (port : Nat) : State :=
  let g := s.gen sl.gen
  let wait := stampOf s.tai - sl.cAt.getD 0
  let us := wait / 16000
  let x := sl.frozen g us
  let x : Slot := { x with noSpec := x.noSpec || sl.new }
  let s := ((s.setSlot pos x).cnt CCD_COMMITTED_COUNT).openCount
  let s := s.wr CCD_LAST_SERIAL_SERIAL x.serial
  let s := s.each (List.range 7) (fun s i => s.wr (CCD_QC_LASTPRES (i + 1)) (x.classCount g (i + 1)).2)
  let s := (s.each x.cols (fun s p => s.colCommit x.serial p)).colsNone x.cols
  let s := if s.rd CCD_HZN_MAX_US < us then s.wr CCD_HZN_MAX_US us else s
  let s := if s.rd CCD_HZN_WARN ≠ 0 ∧ s.rd CCD_HZN_WARN * 16000 < wait then s.ev 0x5030 x.serial us port 0 else s
  let q := bit x.quor 0 == 1
  let was := s.is CCD_STAT_INQUORATE
  let s := if q then (if was then (s.wr CCD_STAT_INQUORATE 0).ev 0x5021 x.serial 0 0 0 else s)
    else
      let s := s.cnt CCD_INQUORATE_COUNT
      if was then s else (s.wr CCD_STAT_INQUORATE 1).ev 0x5020 x.serial (127 - x.quor / 2) (nth x.words 0 0 / 65536) (nth x.words 0 0 % 65536)
  let s := if sl.new then (s.cnt CCD_NOSPECRUN_COUNT).ev 0x5107 x.serial (s.rd CCD_LAG_US) 0 0 else s
  ({ s with ccd := { s.ccd with indQ := s.ccd.indQ ++ [x.serial] } }).health

/-! ### Release (R198, R211) -/

/-- PRESENT columns of a released slot enter the predictor base unless it holds a later one. -/
def State.baseUpdate (s : State) (sl : Slot) : State :=
  let base := sl.cols.foldl (fun b p =>
    if p.2.st ≠ 2 ∨ p.2.ue then b
    else
      let keep := match assoc b p.1 with
        | some o => decide (sl.epoch < o.epoch) || (o.epoch == sl.epoch && decide (sl.t < o.t))
        | none => false
      if keep then b
      else assocSet b p.1 ⟨sl.t, sl.epoch, p.2.stat, p.2.dig, p.2.fq, p.2.rc, sl.ph.filter (fun e => e.2.col == p.1), sl.an.filter (fun e => e.2.col == p.1)⟩) s.ccd.base
  { s with ccd := { s.ccd with base := base } }

/-- The ring position of a slot is released, and a held slot may open. -/
def State.release (s : State) (pos : Nat) (sl : Slot) : State :=
  (((s.setSlot pos { sl with released := true }).baseUpdate sl).openCount).heldOpen

end Sys2Proof.Machine
end

