-- ==== Sys2Proof/Machine/Analytics.lean ====
section
/-! DEFINITION. The analysis chain of an evaluation: derived signals, topology, islands and groups, watch signals, root
extraction, mode shape and alarm definitions, with the carry of state across a change of definition (R234–R258, R263,
R264). What the spec leaves open here: DEDUCED, log 20. -/

namespace Sys2Proof.Machine

/-- What one evaluation works on: the part (for the allocations), the slot's values generation, the slot, its view, and
whether it is indicative. -/
structure EvCtx where
  s : State
  g : RegFile
  sl : Slot
  v : View
  ind : Bool

/-- A numerical error made a value missing (R235): 1, else 0. -/
def errOf {α : Type} (o : Option α) : Nat := if o.isNone then 1 else 0

/-- A sum of counts. -/
def sumNat (l : List Nat) : Nat := l.foldl (fun a b => a + b) 0

/-- A value with its mood: 0 missing, 1 predicted, 2 measured, 3 not expected; real and imaginary part. -/
structure Val where
  mood : Nat
  re : Nat
  im : Nat
  div : Nat
  deriving DecidableEq, Repr

/-! ### Entries and columns (R133, R172, R187) -/

/-- The block that holds item `i` when blocks hold the given numbers; the last takes the rest. -/
def blockOf (counts : List Nat) (i : Nat) : Nat :=
  match counts with
  | [] => 0
  | n :: rest => if rest.isEmpty ∨ i < n then 0 else 1 + blockOf rest (i - n)

/-- Analogue entries of block `b`: its analogues, then its digital words from the second on (R138). -/
def State.blockAn (s : State) (c b : Nat) : Nat := s.rd (CTX_ANNMR c b) + (s.rd (CTX_DGNMR c b) - 1)

/-- The column whose allocation holds phasor entry `p`. -/
def State.phCol (s : State) (p : Nat) : Option Nat :=
  match (List.range 4096).findSome? (fun c =>
    let b := s.rd (CTX_PH_BASE c)
    if s.is (CTX_EN c) ∧ s.placeCtx c = c ∧ b ≤ p ∧ p < b + s.rd (CTX_PH_CNT c) then
      some (c + blockOf ((List.range (s.rd (CTX_NPMU c) + 1)).map (fun k => s.rd (CTX_PHNMR c k))) (p - b))
    else none) with
  | some c => some c
  | none => (List.range 32).findSome? (fun h =>
      let b := s.rd (HSM_PH_BASE h)
      if s.is (HSM_EN h) ∧ b ≤ p ∧ p < b + s.homeNph h then some (s.rd (HSM_COLUMN h)) else none)

/-- The column whose allocation holds analogue entry `p`. -/
def State.anCol (s : State) (p : Nat) : Option Nat :=
  match (List.range 4096).findSome? (fun c =>
    let b := s.rd (CTX_AN_BASE c)
    if s.is (CTX_EN c) ∧ s.placeCtx c = c ∧ b ≤ p ∧ p < b + s.rd (CTX_AN_CNT c) then
      some (c + blockOf ((List.range (s.rd (CTX_NPMU c) + 1)).map (fun k => s.blockAn c k)) (p - b))
    else none) with
  | some c => some c
  | none => (List.range 32).findSome? (fun h =>
      let b := s.rd (HSM_AN_BASE h)
      if s.is (HSM_EN h) ∧ b ≤ p ∧ p < b + s.homeNan h then some (s.rd (HSM_COLUMN h)) else none)

/-- The mood a column is shown in. -/
def EvCtx.colMood (x : EvCtx) (c : Nat) : Nat := ((assoc x.v.cols c).map (fun w => w.mood)).getD 3

def EvCtx.colDiv (x : EvCtx) (c : Nat) : Nat := (x.s.colDiv c).getD 1

/-- The nominal frequency. -/
def EvCtx.f0 (x : EvCtx) : Nat := if x.s.is60 then 60 else 50

def missVal (d : Nat) : Val := ⟨0, fMiss, fMiss, d⟩

/-- A phasor entry as the evaluation sees it; one that the view holds belongs to the column that filled it. -/
def EvCtx.phasor (x : EvCtx) (p : Nat) : Val :=
  match x.s.phCol p with
  | none => missVal 1
  | some c =>
    let c := ((assoc x.v.ph p).map (fun e => e.col)).getD c
    let d := x.colDiv c
    let m := x.colMood c
    if m = 3 then ⟨3, 0, 0, d⟩
    else
      match assoc x.v.ph p with
      | some e => if m = 0 ∨ phMissing e then missVal d else ⟨m, e.re, e.im, d⟩
      | none => missVal d

/-- An analogue entry as the evaluation sees it. -/
def EvCtx.analog (x : EvCtx) (p : Nat) : Val :=
  match x.s.anCol p with
  | none => missVal 1
  | some c =>
    let c := ((assoc x.v.an p).map (fun e => e.col)).getD c
    let d := x.colDiv c
    let m := x.colMood c
    if m = 3 then ⟨3, 0, 0, d⟩
    else
      match assoc x.v.an p with
      | some e => if m = 0 ∨ fBad e.v then missVal d else ⟨m, e.v, 0, d⟩
      | none => missVal d

/-- A value of a column's pair: Δf in Hz or ROCOF in Hz/s. -/
def EvCtx.pairVal (x : EvCtx) (c : Nat) (rocof : Bool) : Val :=
  let d := x.colDiv c
  match assoc x.v.cols c with
  | none => ⟨3, 0, 0, d⟩
  | some w =>
    let h := if rocof then w.rc else w.fq
    if w.mood = 0 ∨ h = 0x8000 then missVal d
    else
      match if rocof then rcHz h else fqHz h with
      | some f => ⟨w.mood, f, 0, d⟩
      | none => missVal d

/-! ### Derived signals (R237–R240) -/

/-- The operand word of a derived signal. -/
def opType (o : Nat) : Nat := o / 2 ^ 28
def opIndex (o : Nat) : Nat := o % 2 ^ 28

/-- A derived result as an operand. -/
def derVal (r : Option DerRes) (part : Nat) : Val :=
  match r with
  | none => missVal 1
  | some d =>
    if d.kind = 0 then ⟨3, 0, 0, d.div⟩
    else if d.kind = 1 then missVal d.div
    else if part = 0 then ⟨d.kind - 1, d.re, d.im, d.div⟩
    else if part = 1 then ⟨d.kind - 1, d.re, 0, d.div⟩
    else ⟨d.kind - 1, d.im, 0, d.div⟩

/-- The value of an operand. -/
def EvCtx.operand (x : EvCtx) (der : List (Nat × DerRes)) (o : Nat) : Val :=
  let i := opIndex o
  match opType o with
  | 1 => x.phasor i
  | 2 => x.analog i
  | 3 => let v := x.pairVal i false
         match fOfInt (x.f0 : Int) with
         | some f => (match fAdd f v.re with
            | some r => if v.mood = 0 ∨ v.mood = 3 then v else { v with re := r }
            | none => v)
         | none => v
  | 4 => x.pairVal i true
  | 5 => derVal (assoc der i) 0
  | 6 => derVal (assoc der i) 1
  | 7 => derVal (assoc der i) 2
  | _ => missVal 1

/-- The operands that matter to a KIND. -/
def derOps (g : RegFile) (e : Nat) : List (Nat × Nat) :=
  let kind := g.get (DER_KIND e)
  let all := (List.range 4).map (fun i => (i, g.get (DER_OP e i)))
  if kind = 2 then all.filter (fun p => opType p.2 != 0)
  else if kind = 4 ∨ kind = 5 then all.take 1
  else all.take 2

/-- The least common multiple of the DIVs of several values. -/
def lcmDiv (vs : List Val) : Nat := vs.foldl (fun a v => Nat.lcm a v.div) 1

/-- 2^-n as a float32. -/
def fPow2Neg (n : Nat) : Nat := fLit 1 (2 ^ n)

/-- A difference of slot times in seconds (R235). -/
def secDiff (t t' : Nat) : Option Nat := fOfRat ((t : Int) - (t' : Int)) 1000000000

/-- The complex result of KINDs 1 to 5; none where it cannot be formed. -/
def derCalc (kind k : Nat) (neg : Nat) (vs : List (Nat × Val)) : Option Cpx :=
  let v (i : Nat) : Cpx := ((assoc vs i).map (fun w => (w.re, w.im))).getD (0, 0)
  match kind with
  | 1 => do cScale k (← cMul (v 0) (cConj (v 1)))
  | 2 =>
    let term (p : Nat × Val) : Cpx := if bit neg p.1 = 1 then cNeg (p.2.re, p.2.im) else (p.2.re, p.2.im)
    (match vs with
      | [] => some (0, 0)
      | p :: rest => (rest.foldl (fun (a : Option Cpx) q => do cAdd (← a) (term q)) (some (term p))).bind (fun z => cScale k z))
  | 3 => do cScale k (← cDiv (v 0) (v 1))
  | 4 => do return (← fMul k (← cAbs (v 0)), ← cArg (v 0))
  | 5 => cScale k (v 0)
  | _ => none

/-- The rate of an angle difference (R239). -/
def derRate (rsh t a : Nat) (old : Option DerState) : Option DerState :=
  match old with
  | none => some ⟨a, t, 0⟩
  | some o => do
    let w ← fDiv (← fWrap (← fSub a o.ang)) (← secDiff t o.t)
    if rsh = 0 then return ⟨a, t, w⟩
    else
      let r ← fAdd o.rate (← fMul (fPow2Neg rsh) (← fSub w o.rate))
      return ⟨a, t, r⟩

/-- What the derived-signal stage has so far: results, states, numerical errors. -/
structure DerAcc where
  res : List (Nat × DerRes)
  st : List (Nat × DerState)
  err : Nat

/-- One derived signal (R238, R239). -/
def EvCtx.derStep (x : EvCtx) (old : List (Nat × DerState)) (a : DerAcc) (e : Nat) : DerAcc :=
  let kind := x.g.get (DER_KIND e)
  let vs := (derOps x.g e).map (fun p => (p.1, x.operand a.res p.2))
  let div := lcmDiv (vs.map (fun p => p.2))
  let carry := match assoc old e with
    | some o => assocSet a.st e o
    | none => a.st
  let miss (n : Nat) : DerAcc := ⟨assocSet a.res e ⟨1, div, fMiss, fMiss⟩, carry, a.err + n⟩
  if vs.any (fun p => p.2.mood == 3) then ⟨assocSet a.res e ⟨0, div, 0, 0⟩, carry, a.err⟩
  else if vs.any (fun p => p.2.mood == 0) then miss 0
  else
    let mood := if vs.any (fun p => p.2.mood == 1) then 2 else 3
    if kind = 0 then
      match (do
        let p ← assoc vs 0
        let q ← assoc vs 1
        let ang ← cArg (← cMul (p.re, p.im) (cConj (q.re, q.im)))
        derRate (x.g.get (DER_RSH e)) x.sl.t ang (assoc old e)) with
      | some d => ⟨assocSet a.res e ⟨mood, div, d.ang, d.rate⟩, assocSet a.st e d, a.err⟩
      | none => miss 1
    else if kind == 3 && (match assoc vs 1 with
        | some q => fVal q.re == 0 && fVal q.im == 0
        | none => true) then miss 0
    else
      match derCalc kind (x.g.get (DER_K e)) (x.g.get (DER_NEG e)) vs with
      | some z => ⟨assocSet a.res e ⟨mood, div, z.1, z.2⟩, carry, a.err⟩
      | none => miss 1

/-- The derived-signal stage. -/
def EvCtx.derived (x : EvCtx) (old : List (Nat × DerState)) : DerAcc :=
  ((List.range 8192).filter (fun e => x.g.get (DER_EN e) == 1)).foldl (fun a e => x.derStep old a e) ⟨[], [], 0⟩

/-! ### Topology and islands (R250–R253) -/

/-- The enabled nodes. -/
def EvCtx.nodes (x : EvCtx) : List Nat := (List.range 4096).filter (fun n => x.g.get (NOD_EN n) == 1)

/-- A branch's status: closed, unknown, and whether it was predicted (R252). -/
def EvCtx.branchStatus (x : EvCtx) (old : List (Nat × Bool)) (b : Nat) : Bool × Bool × Bool :=
  let inv := x.g.get (BRA_INV b) == 1
  match x.g.get (BRA_SRC b) with
  | 0 => (true, false, false)
  | 1 => ((bit x.sl.sti (x.g.get (BRA_SEL b) % 64) == 1) != inv, false, false)
  | 2 =>
    (match assoc x.v.cols (x.g.get (BRA_SEL b)) with
      | some w => if w.mood = 0 then (unk, true, false) else ((bit w.dig (x.g.get (BRA_BIT b)) == 1) != inv, false, w.mood == 1)
      | none => (unk, true, false))
  | _ => (false, false, false)
where
  unk : Bool :=
    let u := x.g.get (BRA_UNK b)
    if u = 1 then true else if u = 2 then false else (assoc old b).getD false

/-- Union-find: each node with the lowest node of its set. -/
def joinSets (lab : List (Nat × Nat)) (a b : Nat) : List (Nat × Nat) :=
  match assoc lab a, assoc lab b with
  | some la, some lb => lab.map (fun p => if p.2 = la ∨ p.2 = lb then (p.1, min la lb) else p)
  | _, _ => lab

/-- A node's frequency deviation: present when the node uses FCOL and its column shows a frequency. -/
def EvCtx.nodeFreq (x : EvCtx) (n : Nat) : Val :=
  if x.g.get (NOD_F_EN n) = 0 then missVal 1 else x.pairVal (x.g.get (NOD_FCOL n)) false

/-- A node's voltage phasor. -/
def EvCtx.nodePh (x : EvCtx) (n : Nat) : Val :=
  if x.g.get (NOD_PH_EN n) = 0 then missVal 1 else x.phasor (x.g.get (NOD_PH n))

def Val.has (v : Val) : Bool := v.mood == 1 || v.mood == 2

/-- The mean of values summed in order; none where it cannot be formed. -/
def fMean (l : List Nat) : Option Nat :=
  match l with
  | [] => none
  | a :: rest => do
    let t ← rest.foldl (fun (z : Option Nat) b => do fAdd (← z) b) (some a)
    fDiv t (← fOfInt (l.length : Int))

/-- The topology of an evaluation: branch statuses, nodes with their labels, labels in island order. -/
structure Topo where
  branch : List (Nat × Bool × Bool × Bool)
  lab : List (Nat × Nat)
  order : List Nat
  pred : Bool

/-- Connectivity and the numbering of islands (R253). -/
def EvCtx.topology (x : EvCtx) (old : List (Nat × Bool)) : Topo :=
  let nodes := x.nodes
  let en (n : Nat) : Bool := x.g.get (NOD_EN n) == 1
  let bs := (List.range 8192).filter (fun b => x.g.get (BRA_EN b) == 1 && en (x.g.get (BRA_NODE_A b)) && en (x.g.get (BRA_NODE_B b)))
  let st := bs.map (fun b => (b, x.branchStatus old b))
  let lab := st.foldl (fun l p => if p.2.1 then joinSets l (x.g.get (BRA_NODE_A p.1)) (x.g.get (BRA_NODE_B p.1)) else l)
    (nodes.map (fun n => (n, n)))
  let labels := nodes.filter (fun n => assoc lab n == some n)
  let first := match assoc lab (x.g.get ANA_REF_REFNODE) with
    | some l => some l
    | none => labels.head?
  let order := match first with
    | some l => l :: labels.filter (fun m => m != l)
    | none => []
  ⟨st, lab, order, st.any (fun p => p.2.2.2)⟩

/-- An island report without its split (R253). -/
def EvCtx.island (x : EvCtx) (tp : Topo) (l : Nat) : IslRes :=
  let ns := (tp.lab.filter (fun p => p.2 == l)).map (fun p => p.1)
  let fs := (ns.map (fun n => x.nodeFreq n)).filter (fun v => v.has)
  ⟨l, ns.length, fs.length, if fs.isEmpty then 0 else (fMean (fs.map (fun v => v.re))).getD fMiss, 0⟩

/-- The island reports 0 to 63, and the numerical errors met. The mean of a DEAD island is 0.0, and so is its part in a split. -/
def EvCtx.islands (x : EvCtx) (tp : Topo) : List IslRes × Nat :=
  let rs := (tp.order.take 64).map (fun l => x.island tp l)
  let m0 := match rs with
    | r :: _ => r.mean
    | [] => 0
  let sp (r : IslRes) : Option Nat := if fBad r.mean || fBad m0 then some fMiss else fSub r.mean m0
  let live := rs.filter (fun r => r.fnodes != 0)
  (rs.map (fun r => if r.fnodes = 0 then r else { r with split := (sp r).getD fMiss }),
   (live.filter (fun r => fBad r.mean)).length + sumNat (live.map (fun r => errOf (sp r))))

/-- The island number of a node: 0 to 63, or 0xFF. -/
def Topo.islandOf (tp : Topo) (n : Nat) : Nat :=
  match assoc tp.lab n with
  | none => 0xFF
  | some l =>
    match (tp.order.take 64).findIdx? (fun m => m == l) with
    | some i => i
    | none => 0xFF

/-- An angle unwrapped against its predecessor. -/
def unwrap (old : Option Nat) (a : Nat) : Option Nat :=
  match old with
  | none => some a
  | some o => do fAdd o (← fReduce (← fSub a o))

/-- A node's angle relative to the reference node, which it keeps while it is missing (R253), and the numerical errors met. -/
def EvCtx.relAng (x : EvCtx) (old : List (Nat × Nat)) (n : Nat) : Option Nat × Nat :=
  let p := x.nodePh n
  let r := x.nodePh (x.g.get ANA_REF_REFNODE)
  if p.has ∧ r.has ∧ x.g.get (NOD_EN (x.g.get ANA_REF_REFNODE)) = 1 then
    match (do
      let a ← fWrap (← fSub (← cArg (p.re, p.im)) (← cArg (r.re, r.im)))
      unwrap (assoc old n) a) with
    | some a => (some a, 0)
    | none => (assoc old n, 1)
  else (assoc old n, 0)

/-! ### Coherent groups (R254) -/

/-- What a group shows in a slot: mood, mean Δf, angle, nodes present, numerical errors met. -/
structure GrpNow where
  kind : Nat
  f : Option Nat
  theta : Option Nat
  present : Nat
  err : Nat

/-- The enabled members of a group. -/
def groupMembers (g : RegFile) (grp : Nat) : List Nat :=
  (List.range 4096).filter (fun n => g.get (NOD_EN n) == 1 && g.get (NOD_GRP_EN n) == 1 && g.get (NOD_GROUP n) == grp)

/-- The unit phasor of a value. -/
def unitPh (v : Val) : Option Cpx := do
  let m ← cAbs (v.re, v.im)
  return (← fDiv v.re m, ← fDiv v.im m)

/-- A group's mean frequency and angle. -/
def EvCtx.grpNow (x : EvCtx) (old : Option GrpState) (grp : Nat) : GrpNow :=
  let ms := groupMembers x.g grp
  let fv := ms.map (fun n => x.nodeFreq n)
  let fs := fv.filter (fun v => v.has)
  let ps := (ms.map (fun n => x.nodePh n)).filter (fun v => v.has)
  let us := ps.map unitPh
  let sum : Option Cpx := match us.filterMap (fun o => o) with
    | [] => none
    | u :: rest => rest.foldl (fun (a : Option Cpx) v => do cAdd (← a) v) (some u)
  let th := (sum.bind cArg).bind (fun a => unwrap (old.bind (fun o => o.theta)) a)
  let miss := decide (fs.length < gEff x.g (ANA_GRP_CFG2_GMIN grp))
  let kind := if !ms.isEmpty && fv.all (fun v => v.mood == 3) then 0
    else if miss then 1
    else if fs.any (fun v => v.mood == 1) || ps.any (fun v => v.mood == 1) then 2 else 3
  let mean := fMean (fs.map (fun v => v.re))
  ⟨kind, mean, th, fs.length, sumNat (us.map errOf) + (if us.any (fun u => u.isSome) then errOf th else 0) + (if fs.isEmpty then 0 else errOf mean)⟩

/-- A group's state after the slot, with its split (R254), and the numerical errors met. -/
def EvCtx.grpStep (x : EvCtx) (old : List (Nat × GrpState)) (ref : GrpNow) (grp : Nat) : GrpState × GrpRes × Nat :=
  let st := (assoc old grp).getD ⟨none, none, 0, 0, 0, false⟩
  let now := x.grpNow (assoc old grp) grp
  let missing := decide (now.present < gEff x.g (ANA_GRP_CFG2_GMIN grp))
  if now.kind = 0 then (st, ⟨0, 0, 0, st.sigma, st.div, missing, now.present⟩, now.err)
  else
    let st := { st with theta := match now.theta with
      | some a => some a
      | none => st.theta }
    let f := now.f.getD (if now.present = 0 then 0 else fMiss)
    if grp = x.g.get ANA_REF_REFGROUP then ({ st with div := false }, ⟨now.kind, f, 0, 0, false, missing, now.present⟩, now.err)
    else if missing ∨ ref.kind = 1 ∨ ref.kind = 0 then
      (st, ⟨1, f, 0, st.sigma, st.div, missing, now.present⟩, now.err)
    else
      let sp : Option Nat := do fSub (← now.f) (← ref.f)
      let split := sp.getD fMiss
      let both := now.theta.isSome && ref.theta.isSome
      let dl : Option Nat := do fSub (← now.theta) (← ref.theta)
      let (sigma, dlt, e) := match dl with
        | none => (st.sigma, st.dlt, b2n both)
        | some d =>
          match st.dlt with
          | none => (st.sigma, some (d, x.sl.t), 0)
          | some (d', t') =>
            match (do
              let w ← fDiv (← fReduce (← fSub d d')) (← secDiff x.sl.t t')
              fAdd st.sigma (← fMul (fPow2Neg (x.g.get (ANA_GRP_CFG2_SLIP_SH grp))) (← fSub w st.sigma))) with
            | some r => (r, some (d, x.sl.t), 0)
            | none => (st.sigma, some (d, x.sl.t), 1)
      let fl := (fOfRat (x.g.get (ANA_GRP_CFG_FSPLIT grp) : Int) 1000).getD 0
      let sl := (fOfRat (x.g.get (ANA_GRP_CFG_SLIP grp) : Int) 1000).getD 0
      let hi := (match sp with
        | some v => fLe fl (fAbs v)
        | none => false) || fLe sl (fAbs sigma)
      let dur := gEff x.g (ANA_GRP_CFG2_DUR grp)
      let on := if hi then min (st.on + 1) dur else 0
      let off := if hi then 0 else min (st.off + 1) dur
      let div := if dur ≤ on then true else if dur ≤ off then false else st.div
      let kind := if now.kind = 2 ∨ ref.kind = 2 then 2 else 3
      (⟨st.theta, dlt, sigma, on, off, div⟩, ⟨kind, f, split, sigma, div, missing, now.present⟩, now.err + (if now.f.isSome && ref.f.isSome then errOf sp else 0) + e)

/-- All groups, the reference first as the others refer to it. -/
def EvCtx.groups (x : EvCtx) (old : List (Nat × GrpState)) : List (Nat × GrpState × GrpRes × Nat) :=
  let r := x.g.get ANA_REF_REFGROUP
  let ref := x.grpNow (assoc old r) r
  (List.range 32).filterMap (fun grp => if (groupMembers x.g grp).isEmpty then none else some (grp, x.grpStep old ref grp))

/-! ### Watch signals (R241–R249) -/

/-- The magnitude of a complex value with its mood; one that cannot be formed is missing (R235). -/
def Val.magn (v : Val) : Val :=
  if !v.has then v
  else
    match cAbs (v.re, v.im) with
    | some m => { v with re := m, im := 0 }
    | none => { v with mood := 0 }

/-- The numerical error of a magnitude. -/
def Val.magnErr (v : Val) : Nat := if v.has then errOf (cAbs (v.re, v.im)) else 0

/-- The input of a watch signal. -/
def EvCtx.watIn (x : EvCtx) (der : List (Nat × DerRes)) (w : Nat) : Val :=
  let i := x.g.get (WAT_INDEX w)
  match x.g.get (WAT_SRC w) with
  | 0 => derVal (assoc der i) 1
  | 1 => derVal (assoc der i) 2
  | 2 => (derVal (assoc der i) 0).magn
  | 3 => x.pairVal i false
  | 4 => x.pairVal i true
  | 5 => x.analog i
  | _ => (x.phasor i).magn

/-- The numerical error of a watch signal's input. -/
def EvCtx.watInErr (x : EvCtx) (der : List (Nat × DerRes)) (w : Nat) : Nat :=
  let i := x.g.get (WAT_INDEX w)
  match x.g.get (WAT_SRC w) with
  | 2 => (derVal (assoc der i) 0).magnErr
  | 6 => (x.phasor i).magnErr
  | _ => 0

/-- The biquad coefficients of a band: b0, b1, b2, a1, a2 (R243). -/
structure Biquad where
  b0 : Nat
  b1 : Nat
  b2 : Nat
  a1 : Nat
  a2 : Nat

/-- A band is unusable at a rate of `rate` ÷ `div` (R243). -/
def bandUnusable (fl fh rate div : Nat) : Bool := fl == 0 || fh ≤ fl || 45 * rate ≤ fh * div

/-- The coefficients of a usable band. -/
def biquad (fl fh rate div : Nat) : Option Biquad := do
  let l ← fOfRat (fl : Int) 100
  let h ← fOfRat (fh : Int) 100
  let fs ← fOfRat (rate : Int) div
  let fc ← fSqrt (← fMul l h)
  let q ← fDiv fc (← fSub h l)
  let w ← fDiv (← fMul f2Pi fc) fs
  let al ← fDiv (← fSin w) (← fMul 0x40000000 q)
  let a0 ← fAdd f1 al
  let b0 ← fDiv al a0
  return ⟨b0, 0, fNeg b0, ← fDiv (← fMul 0xC0000000 (← fCos w)) a0, ← fDiv (← fSub f1 al) a0⟩

/-- Band number of a channel and whether it works on the signal. -/
def chanBand (g : RegFile) (w i : Nat) : Nat := bits (g.get (WAT_BANDS w)) (4 * i) 4
def chanOn (g : RegFile) (w i rate div : Nat) : Bool :=
  let b := chanBand g w i
  bit (g.get (WAT_BAND_EN w)) i == 1 && !bandUnusable (g.get (ANA_BAND_FL b)) (g.get (ANA_BAND_FH b)) rate div

/-- One sample through a channel: new state and output. -/
def bandStep (q : Biquad) (esh y : Nat) (b : BandState) : Option (BandState × Nat) := do
  let v ← fAdd (← fMul q.b0 y) b.s1
  let s1 ← fAdd (← fSub (← fMul q.b1 y) (← fMul q.a1 v)) b.s2
  let s2 ← fSub (← fMul q.b2 y) (← fMul q.a2 v)
  let e ← fAdd b.e (← fMul (fPow2Neg esh) (← fSub (← fMul v v) b.e))
  return (⟨s1, s2, e⟩, v)

/-- Entry (i, j) of a symmetric matrix of order p held as its upper triangle, row by row (R244). -/
def triIx (p i j : Nat) : Nat :=
  let a := min i j
  let b := max i j
  a * p - a * (a - 1) / 2 + (b - a)

def triAt (p : Nat) (m : List Nat) (i j : Nat) : Nat := nth m (triIx p i j) 0

/-- The upper triangle of c × I. -/
def triDiag (p c : Nat) : List Nat :=
  (List.range p).flatMap (fun i => (List.range (p - i)).map (fun j => if j = 0 then c else 0))

/-- A sum of products in ascending order. -/
def fDot (a b : List Nat) : Option Nat :=
  match List.zipWith fMul a b with
  | [] => some 0
  | z :: rest => rest.foldl (fun (t : Option Nat) y => do fAdd (← t) (← y)) z

/-- All or nothing. -/
def allSome (l : List (Option Nat)) : Option (List Nat) :=
  l.foldr (fun o a => do return (← o) :: (← a)) (some [])

/-- A reset estimator keeps the band-filter states (R244). -/
def WatState.reset (w : WatState) (p pinit : Nat) : WatState :=
  { w with theta := List.replicate p 0, pmat := triDiag p pinit, phi := List.replicate p 0, nupd := 0, modes := [], hist := [],
           msMag := 0, msPh := 0 }

/-- One estimator update (R244): the new state, the cause of a reset, 0 none, and whether a numerical error was met. -/
def rlsStep (p lam pinit pmax xk : Nat) (w : WatState) : WatState × Nat × Nat :=
  match allSome ((List.range p).map (fun i => fDot ((List.range p).map (fun j => triAt p w.pmat i j)) w.phi)) with
  | none => (w.reset p pinit, 2, 1)
  | some h =>
    match (do fAdd lam (← fDot w.phi h)) with
    | none => (w.reset p pinit, 2, 1)
    | some d =>
      if fLe d 0 then (w.reset p pinit, 2, 0)
      else
        match (do
          let gv ← allSome (h.map (fun y => fDiv y d))
          let e ← fSub xk (← fDot w.phi w.theta)
          let th ← allSome (List.zipWith (fun t y => do fAdd t (← fMul y e)) w.theta gv)
          let pm ← allSome ((List.range p).flatMap (fun i => (List.range (p - i)).map (fun j => do
            fDiv (← fSub (triAt p w.pmat i (i + j)) (← fMul (nth gv i 0) (nth h (i + j) 0))) lam)))
          return (th, pm)) with
        | none => (w.reset p pinit, 2, 1)
        | some (th, pm) =>
          let tr := (List.range p).foldl (fun (t : Option Nat) i => do fAdd (← t) (triAt p pm i i)) (some 0)
          let isOver := match tr with
            | some t => fLt pmax t
            | none => true
          let w1 : WatState := if isOver then w.reset p pinit else { w with theta := th, pmat := pm }
          ({ w1 with phi := (xk :: w1.phi).take p, nupd := min (w1.nupd + 1) 65535 }, if isOver then 1 else 0, errOf tr)

/-- A watch signal that has not run. -/
def watNew (p pinit : Nat) : WatState :=
  ⟨List.replicate 4 ⟨0, 0, 0⟩, List.replicate p 0, triDiag p pinit, List.replicate p 0, 0, 0, [], [], 0, 0, 0⟩

/-- λ limited to its range. -/
def lamEff (l : Nat) : Nat := if fBad l || fLt l (fLit 9 10) then fLit 9 10 else if fLt f1 l then f1 else l

/-- What a watch signal's update gives: state, band RMS, reset cause, numerical errors. -/
structure WatUp where
  st : WatState
  brms : List Nat
  cause : Nat
  err : Nat

/-- The update of a watch signal in a slot (R242–R245). -/
def EvCtx.watStep (x : EvCtx) (der : List (Nat × DerRes)) (w : Nat) (st : WatState) : WatUp :=
  let p := gEff x.g (WAT_ORDER w)
  let pinit := x.g.get ANA_RLS_PINIT_PINIT
  let y := x.watIn der w
  let rms (i : Nat) (b : BandState) : Nat := if chanOn x.g w i x.s.rate y.div then (fSqrt b.e).getD fMiss else 0
  let rmsAll (l : List BandState) : List Nat := (List.range 4).map (fun i => rms i (nth l i ⟨0, 0, 0⟩))
  if y.mood = 3 then ⟨st, rmsAll st.bands, 0, 0⟩
  else if y.mood = 0 then
    let st := { st with miss := min (st.miss + 1) 65535 }
    let e := x.watInErr der w
    if st.miss = p + 1 then ⟨st.reset p pinit, rmsAll st.bands, 3, e⟩ else ⟨st, rmsAll st.bands, 0, e⟩
  else
    let outs := (List.range 4).map (fun i =>
      let b := nth st.bands i ⟨0, 0, 0⟩
      if chanOn x.g w i x.s.rate y.div then
        let k := chanBand x.g w i
        match (do bandStep (← biquad (x.g.get (ANA_BAND_FL k)) (x.g.get (ANA_BAND_FH k)) x.s.rate y.div)
                    (gEff x.g (WAT_ESH w)) y.re b) with
        | some (b, v) => (b, some v, 0)
        | none => (b, none, 1)
      else (b, none, 0))
    let errs := sumNat (outs.map (fun o => o.2.2))
    let st := { st with bands := outs.map (fun o => o.1), miss := 0 }
    let feed := (nth outs (x.g.get (WAT_ARBAND w)) (⟨0, 0, 0⟩, none, 0)).2.1
    match feed with
    | none => ⟨st, rmsAll st.bands, 0, errs⟩
    | some v =>
      match fDiv v (x.g.get (WAT_SCALE w)) with
      | none => ⟨st, rmsAll st.bands, 0, errs + 1⟩
      | some xk =>
        let (st, c, e) := rlsStep p (lamEff (x.g.get (WAT_LAMBDA w))) pinit (x.g.get ANA_RLS_PMAX_PMAX) xk st
        ⟨st, rmsAll st.bands, c, errs + e⟩

/-- READY (R245). -/
def watReady (g : RegFile) (w : Nat) (st : WatState) : Bool := decide (10 * gEff g (WAT_ORDER w) ≤ st.nupd)

/-- The enabled mode-shape group of a watch signal. -/
def msGroup (g : RegFile) (w : Nat) : Option Nat :=
  let m := g.get (WAT_MSGROUP w)
  if m < 64 ∧ g.get (ANA_MS_CFG_EN m) = 1 then some m else none

/-- A READY signal is due for root extraction (R246). -/
def rootDue (g : RegFile) (serial w : Nat) : Bool :=
  let n := gEff g ANA_ROOT_ROOT_N
  serial % n == ((msGroup g w).getD w) % n

/-- The complex logarithm (R235). -/
def cLog (z : Cpx) : Option Cpx := do
  let m ← cAbs z
  if fVal m == 0 then none else return (← fLog m, ← cArg z)

/-- Frequency and damping of a root (R246). -/
def rootMode (fs : Nat) (z : Cpx) : Option (Nat × Nat) := do
  let l ← cScale fs (← cLog z)
  return (← fDiv l.2 f2Pi, ← fDiv (fNeg l.1) (← cAbs l))

/-- Inserts a mode by descending amplitude, equal amplitudes by ascending frequency (R247). -/
def modeInsert (m : ModeRep) (l : List ModeRep) : List ModeRep :=
  match l with
  | [] => [m]
  | x :: rest =>
    if fLt x.amp m.amp || (fEq x.amp m.amp && fLt m.f x.f) then m :: x :: rest else x :: modeInsert m rest

/-- A complex number in units of 2^-256: product and reciprocal (0 for 0). -/
def fxCMul (a b : Int × Int) : Int × Int := (fxMul a.1 b.1 - fxMul a.2 b.2, fxMul a.1 b.2 + fxMul a.2 b.1)
def fxCInv (a : Int × Int) : Int × Int :=
  let d := fxMul a.1 a.1 + fxMul a.2 a.2
  (fxDiv a.1 d, fxDiv (-a.2) d)

/-- The powers 1, z, …, z^n. -/
def fxPowers (z : Int × Int) (n : Nat) : List (Int × Int) :=
  ((List.range n).foldl (fun (a : List (Int × Int)) _ => match a with
    | y :: _ => fxCMul y z :: a
    | [] => a) [(fxOne, 0)]).reverse

/-- `z` is a root of z^p − θ1 z^(p−1) − … − θp, within 2^-14 of the product of the sums of its coefficients and of the powers of |z| (R246): the spec states no accuracy
(DESIGN CHOICE, log 20). -/
def isRoot (theta : List Nat) (z : Cpx) : Bool :=
  let p := theta.length
  let ws := fxPowers (fFx z.1, fFx z.2) p
  let coef : List Int := (theta.map (fun t => -(fFx t))).reverse ++ [fxOne]
  let v := (List.zipWith (fun c w => (fxMul c w.1, fxMul c w.2)) coef ws).foldl (fun a b => (a.1 + b.1, a.2 + b.2)) ((0 : Int), (0 : Int))
  let size : Int := fxMul (coef.foldl (fun a c => a + (c.natAbs : Int)) 0) (ws.foldl (fun a w => a + fxHypot w.1 w.2) 0)
  !fBad z.1 && !fBad z.2 && decide (fxHypot v.1 v.2 ≤ size / 16384)

/-- The roots that have converged: at most p of the numbers the iteration ends with, and roots all of them (R246). -/
def arRootsOf (theta : List Nat) : List Cpx :=
  (((Config.arRoots theta).map (fun r => (r.1 % 2 ^ 32, r.2 % 2 ^ 32))).filter (isRoot theta)).take theta.length

/-- Linear equations, each row its coefficients and its right side, solved by elimination with the largest pivot; none when they have no one
solution. -/
def fxSolve (n : Nat) (rows : List (List Int)) : Option (List Int) :=
  match n with
  | 0 => some []
  | k + 1 =>
    let hd (r : List Int) : Int := r.headD 0
    match rows.foldl (fun (a : Option (List Int)) r => match a with
        | none => some r
        | some b => if (hd b).natAbs < (hd r).natAbs then some r else some b) none with
    | none => none
    | some q =>
      if hd q = 0 then none
      else
        let rest := (rows.erase q).map (fun r => List.zipWith (fun a b => a - fxMul (fxDiv (hd r) (hd q)) b) r.tail q.tail)
        (fxSolve k rest).map (fun xs =>
          fxDiv (q.getLastD 0 - (List.zipWith fxMul q.tail xs).foldl (fun a b => a + b) 0) (hd q) :: xs)

/-- The least-squares amplitudes of R247: x of k−j is fitted by the sum of Re(c z^−j), the newest value having j = 1. A fit that has no one
solution gives free values; else the float32 arithmetic, which is not given, may move an amplitude by at most 2^-10 of the largest
(DESIGN CHOICE, log 20). -/
def modeFit (phi : List Nat) (zs : List Cpx) : List Cpx :=
  let m := zs.length
  let cols := zs.flatMap (fun z =>
    let ws := (fxPowers (fxCInv (fFx z.1, fFx z.2)) phi.length).tail
    [ws.map (fun w => w.1), ws.map (fun w => -w.2)])
  let dot (a b : List Int) : Int := (List.zipWith fxMul a b).foldl (fun s t => s + t) 0
  let rows := cols.map (fun c => cols.map (dot c) ++ [dot c (phi.map fFx)])
  let dev (i : Nat) : Int × Int := Config.fitDev phi zs i
  match fxSolve (2 * m) rows with
  | none => (List.range m).map (fun i => (((dev i).1 % 2 ^ 32).toNat, ((dev i).2 % 2 ^ 32).toNat))
  | some cs =>
    let b := (cs.foldl (fun a c => max a c.natAbs) 0) / 1024
    (List.range m).map (fun i => (fOfFx (nth cs (2 * i) 0 + devWithin (dev i).1 b), fOfFx (nth cs (2 * i + 1) 0 + devWithin (dev i).2 b)))

/-- The modes of a READY signal (R246, R247), without their class, and the numerical errors met. -/
def EvCtx.modesOf (x : EvCtx) (w div : Nat) (st : WatState) : List ModeRep × Nat :=
  match fOfRat (x.s.rate : Int) div with
  | none => ([], 1)
  | some fs =>
    let roots := arRootsOf st.theta
    let lo := (fOfRat (x.g.get ANA_MODE_FMIN : Int) 100).getD 0
    let hi := (fOfRat (x.g.get ANA_MODE_FMAX : Int) 100).getD 0
    let zm := (fOfRat (x.g.get ANA_MODE2_ZMAX : Int) 1000).getD 0
    let cand := roots.filterMap (fun z => (rootMode fs z).bind (fun m =>
      if fLe lo m.1 && fLe m.1 hi && fLt m.2 zm then some (z, m) else none))
    let os := List.zipWith (fun (c : Cpx × Nat × Nat) (a : Cpx) => (do
      return (⟨c.2.1, c.2.2, ← fMul (← cAbs a) (x.g.get (WAT_SCALE w)), ← cArg a, 0⟩ : ModeRep) : Option ModeRep)) cand (modeFit st.phi (cand.map (fun c => c.1)))
    (((os.filterMap (fun o => o)).foldl (fun l m => modeInsert m l) []).take 4,
     sumNat (roots.map (fun z => errOf (rootMode fs z))) + sumNat (os.map errOf))

/-- FORCED needs, in each of the last FO_K extractions, a mode of small damping near the frequency, with amplitudes within
20 % of their mean (R248). -/
def forced (g : RegFile) (hist : List (List ModeRep)) (m : ModeRep) : Bool :=
  let k := gEff g ANA_FO_FO_K
  let z := (fOfRat (g.get ANA_FO_FO_ZETA : Int) 10000).getD 0
  let df := (fOfRat (g.get ANA_FO_FO_DF : Int) 1000).getD 0
  let near (l : List ModeRep) : Option ModeRep := l.find? (fun n =>
    fLe (fAbs n.zeta) z && (match fSub n.f m.f with
      | some d => fLe (fAbs d) df
      | none => false))
  let picks := (hist.take k).map near
  let amps := picks.filterMap (fun o => o.map (fun n => n.amp))
  if hist.length < k ∨ amps.length < k then false
  else
    match fMean amps with
    | none => false
    | some mu => amps.all (fun a =>
      match (do return (fAbs (← fSub a mu), ← fMul (fLit 1 5) mu)) with
      | some (d, t) => fLe d t
      | none => false)

/-- The class of a mode (R248). -/
def modeClass (g : RegFile) (hist : List (List ModeRep)) (m : ModeRep) : Nat :=
  let z := (fOfRat (g.get ANA_FO_FO_ZETA : Int) 10000).getD 0
  if fLt m.zeta (fNeg z) then 3 else if forced g hist m then 2 else 1

/-- One root extraction: the new state, the modes whose class changed to forced or unstable, and the numerical errors met. -/
def EvCtx.extract (x : EvCtx) (w div : Nat) (st : WatState) : WatState × List (Nat × Nat × ModeRep) × Nat :=
  let (ms, e) := x.modesOf w div st
  let hist := (ms :: st.hist).take (gEff x.g ANA_FO_FO_K)
  let out := ms.map (fun m => { m with cls := modeClass x.g hist m })
  let old (i : Nat) : Nat := ((nth (st.modes.map some) i none).map (fun m => m.cls)).getD 0
  let ch := (List.range out.length).filterMap (fun i =>
    match nth (out.map some) i none with
    | some m => if (m.cls = 2 ∨ m.cls = 3) ∧ m.cls ≠ old i then some (w, i, m) else none
    | none => none)
  ({ st with modes := out, hist := hist, extr := x.sl.serial }, ch, e)

/-- The mode shape of a member against its group's reference (R249), and the numerical errors met. -/
def EvCtx.modeShape (x : EvCtx) (all : List (Nat × WatState)) (w : Nat) (st : WatState) : WatState × Nat :=
  let zero := { st with msMag := 0, msPh := 0 }
  match msGroup x.g w with
  | none => (st, 0)
  | some gn =>
    let r := x.g.get (ANA_MS_CFG_REF gn)
    let df := (fOfRat (x.g.get (ANA_MS_CFG_MS_DF gn) : Int) 1000).getD 0
    let ref := if msGroup x.g r = some gn then (assoc all r).bind (fun s => s.modes.head?) else none
    match ref with
    | none => (zero, 0)
    | some m0 =>
      match st.modes.find? (fun m => match fSub m.f m0.f with
        | some d => fLe (fAbs d) df
        | none => false) with
      | none => (zero, 0)
      | some m =>
        match (do return (← fDiv m.amp m0.amp, ← fWrap (← fSub m.phase m0.phase))) with
        | some (a, b) => ({ st with msMag := a, msPh := b }, 0)
        | none => ({ st with msMag := fMiss, msPh := fMiss }, 1)

/-! ### Alarm definitions with slot sources (R255–R258) -/

/-- A definition with a direct source. -/
def almDirect (src : Nat) : Bool := 0x20 ≤ src

/-- The CMP conditions of a value: on condition and release condition (R257); a release limit that cannot be formed is missing and is not met. -/
def almCond (cmp thr hyst v : Nat) : Bool × Bool :=
  let h := if fLt hyst 0 then 0 else hyst
  let lo := fSub thr h
  let hi := fAdd thr h
  let atMost (v : Nat) (o : Option Nat) : Bool := (o.map (fun y => fLe v y)).getD false
  match cmp with
  | 0 => (fLt thr v, atMost v lo)
  | 1 => (fLt v thr, (hi.map (fun y => fLe y v)).getD false)
  | 2 => (fLt thr (fAbs v), atMost (fAbs v) lo)
  | _ => (fEq v thr, !fEq v thr)

/-- The numerical error of the release limit. -/
def almCondErr (cmp thr hyst : Nat) : Nat :=
  let h := if fLt hyst 0 then 0 else hyst
  if cmp = 0 ∨ cmp = 2 then errOf (fSub thr h) else if cmp = 1 then errOf (fAdd thr h) else 0

/-- One step of a definition's state under its conditions. -/
def almCount (onDur offDur : Nat) (c : Bool × Bool) (st : AlmState) : AlmState :=
  if st.act then
    let off := if c.2 then st.off + 1 else 0
    if max offDur 1 ≤ off then { st with act := false, on := 0, off := 0 } else { st with on := 0, off := off }
  else
    let on := if c.1 then st.on + 1 else 0
    if max onDur 1 ≤ on then { st with act := true, on := 0, off := 0 } else { st with on := on, off := 0 }

/-- The latch of a definition in its chain: a rise sets it while LATCH is 1 (R219, R260; DEDUCED, log 19). -/
def almLatch (latch : Bool) (old : Bool) (st : AlmState) : AlmState := { st with latch := latch && (st.latch || (st.act && !old)) }

/-- What stage 6 reads of the stages before it. -/
structure AlmIn where
  der : List (Nat × DerRes)
  wat : List (Nat × WatState)
  brms : List (Nat × List Nat)
  watMood : List (Nat × Nat)
  tp : Topo
  grp : List (Nat × GrpRes)

/-- A mode value; index 0xF takes the least damping, the largest amplitude or the lowest frequency. The class of a mode not reported is code 0
once an extraction has been made (R256, R264; DEDUCED, log 20). -/
def modeValue (src sub : Nat) (ms : List ModeRep) : Option Nat :=
  let sel (m : ModeRep) : Nat := if src = 4 then m.zeta else if src = 5 then m.amp else if src = 6 then m.f else (fOfInt (m.cls : Int)).getD 0
  if sub = 15 then
    (match ms.map sel with
      | [] => none
      | a :: rest => some (rest.foldl (fun b c => if src = 5 then (if fLt b c then c else b) else (if fLt c b then c else b)) a))
  else (nth (ms.map some) sub none).map sel

/-- 1.0 or 0.0. -/
def fBool (b : Bool) : Nat := if b then f1 else 0

/-- The source value of a definition with its mood (R256). -/
def EvCtx.almVal (x : EvCtx) (a : AlmIn) (done : List (Nat × AlmState × AlmRes)) (d : Nat) : Val :=
  let i := x.g.get (ALM_INDEX d)
  let sub := x.g.get (ALM_SUB d)
  let topoMood := if a.tp.pred then 1 else 2
  let comb (f : Bool → Bool → Bool) : Val :=
    let p := assoc done i
    let q := assoc done (x.g.get (ALM_INDEX2 d))
    let act (o : Option (AlmState × AlmRes)) : Bool := (o.map (fun z => z.1.act)).getD false
    let prov (o : Option (AlmState × AlmRes)) : Bool := (o.map (fun z => z.2.how == 2 || (z.2.how == 1 && !x.ind))).getD false
    ⟨if prov p || prov q then 1 else 2, fBool (f (act p) (act q)), 0, 1⟩
  match x.g.get (ALM_SOURCE d) with
  | 0 => derVal (assoc a.der i) 1
  | 1 => derVal (assoc a.der i) 2
  | 2 => (derVal (assoc a.der i) 0).magn
  | 3 =>
    let m := (assoc a.watMood i).getD 0
    if m = 3 then ⟨3, 0, 0, 1⟩
    else
      match assoc a.brms i with
      | some l => let v := nth l sub fMiss
                  if fBad v ∨ m = 0 then missVal 1 else ⟨m, v, 0, 1⟩
      | none => missVal 1
  | 4 => mode a 4 i sub
  | 5 => mode a 5 i sub
  | 6 => mode a 6 i sub
  | 7 => mode a 7 i sub
  | 8 => ⟨topoMood, (fOfInt (a.tp.order.length : Int)).getD 0, 0, 1⟩
  | 9 => if (assoc a.tp.lab i).isNone then missVal 1 else ⟨topoMood, fBool (a.tp.islandOf i != 0), 0, 1⟩
  | 10 => grp a i (fun r => r.split)
  | 11 => grp a i (fun r => r.sigma)
  | 12 => grp a i (fun r => fBool r.div)
  | 13 => x.pairVal i false
  | 14 => x.pairVal i true
  | 15 => (match assoc x.sl.cols i with
      | some c => ⟨2, fBool (!(c.st == 2 && !c.ue)), 0, 1⟩
      | none => ⟨3, 0, 0, 1⟩)
  | 16 => comb (fun p q => p || q)
  | 17 => comb (fun p q => p && q)
  | _ => missVal 1
where
  mode (a : AlmIn) (src i sub : Nat) : Val :=
    match assoc a.wat i with
    | none => missVal 1
    | some w =>
      match modeValue src sub w.modes with
      | some v => ⟨2, v, 0, 1⟩
      | none => if src = 7 ∧ !w.hist.isEmpty then ⟨2, 0, 0, 1⟩ else missVal 1
  grp (a : AlmIn) (i : Nat) (f : GrpRes → Nat) : Val :=
    match assoc a.grp i with
    | some r => if r.kind = 0 then ⟨3, 0, 0, 1⟩ else if r.kind = 1 ∨ fBad (f r) then missVal 1 else ⟨r.kind - 1, f r, 0, 1⟩
    | none => missVal 1

/-- One definition (R257, R258). -/
def EvCtx.almStep (x : EvCtx) (a : AlmIn) (old : List (Nat × AlmState)) (quor : Nat)
    (done : List (Nat × AlmState × AlmRes)) (d : Nat) : List (Nat × AlmState × AlmRes) :=
  let st := (assoc old d).getD ⟨false, 0, 0, false, 0⟩
  let src := x.g.get (ALM_SOURCE d)
  let mask := x.g.get (ALM_QMASK d)
  let latch := x.g.get (ALM_LATCH d) == 1
  let keep (how : Nat) : List (Nat × AlmState × AlmRes) := assocSet done d (st, ⟨st.act, how, st.val⟩)
  if !x.ind && 4 ≤ src && src ≤ 7 then keep 0
  else if (List.range 7).any (fun i => bit mask i == 1 && bit quor (i + 1) == 0) then keep 0
  else
    let v := x.almVal a done d
    if v.mood = 3 then keep 0
    else if v.mood = 0 then
      let m := x.g.get (ALM_MISS d)
      let c : Option (Bool × Bool) := if m = 1 then some (false, true) else if m = 2 then some (true, false) else none
      let st1 := match c with
        | some c => almLatch latch st.act (almCount (x.g.get (ALM_ON_DUR d)) (x.g.get (ALM_OFF_DUR d)) c st)
        | none => st
      assocSet done d ({ st1 with val := fMiss }, ⟨st1.act, 1, fMiss⟩)
    else
      let st1 := almLatch latch st.act (almCount (x.g.get (ALM_ON_DUR d)) (x.g.get (ALM_OFF_DUR d))
        (almCond (x.g.get (ALM_CMP d)) (x.g.get (ALM_THR d)) (x.g.get (ALM_HYST d)) v.re) st)
      assocSet done d ({ st1 with val := v.re }, ⟨st1.act, v.mood + 1, v.re⟩)

/-- The numerical errors of a definition's value and of its release limit. -/
def EvCtx.almErr (x : EvCtx) (a : AlmIn) (d : Nat) : Nat :=
  (if x.g.get (ALM_SOURCE d) = 2 then (derVal (assoc a.der (x.g.get (ALM_INDEX d))) 0).magnErr else 0)
    + almCondErr (x.g.get (ALM_CMP d)) (x.g.get (ALM_THR d)) (x.g.get (ALM_HYST d))

/-- A definition withheld by its QMASK (R258). -/
def almWithheld (g : RegFile) (quor d : Nat) : Bool :=
  (List.range 7).any (fun i => bit (g.get (ALM_QMASK d)) i == 1 && bit quor (i + 1) == 0)

/-! ### Changes of definition (R263) -/

/-- A field differs between two sets of values. -/
def changed (g h : RegFile) (f : Field) : Bool := g.get f != h.get f

def almChanged (g h : RegFile) (d : Nat) : Bool :=
  [ALM_SOURCE d, ALM_INDEX d, ALM_SUB d, ALM_INDEX2 d, ALM_CMP d].any (changed g h)

def derChanged (g h : RegFile) (e : Nat) : Bool :=
  changed g h (DER_KIND e) || (List.range 4).any (fun i => changed g h (DER_OP e i))

def watChanged (g h : RegFile) (w : Nat) : Bool :=
  [WAT_SRC w, WAT_INDEX w, WAT_ORDER w, WAT_ARBAND w, WAT_LAMBDA w, WAT_SCALE w].any (changed g h)

/-- A band channel changed: its number, its enable or the band's edges. -/
def bandChanged (g h : RegFile) (w i : Nat) : Bool :=
  chanBand g w i != chanBand h w i || bit (g.get (WAT_BAND_EN w)) i != bit (h.get (WAT_BAND_EN w)) i
    || changed g h (ANA_BAND_FL (chanBand g w i)) || changed g h (ANA_BAND_FH (chanBand g w i))

def nodeChanged (g h : RegFile) (n : Nat) : Bool :=
  [NOD_PH n, NOD_PH_EN n, NOD_GROUP n, NOD_GRP_EN n].any (changed g h)

def grpChanged (g h : RegFile) (k : Nat) : Bool :=
  changed g h ANA_REF_REFGROUP || groupMembers g k != groupMembers h k || (groupMembers g k).any (fun n => nodeChanged g h n)

/-- The predecessor state carried into a slot with values `g`: objects no longer enabled are dropped, changed objects
reset, and estimators reset by a changed definition are named. -/
def carryState (g : RegFile) (a : AnaState) : AnaState × List Nat :=
  let h := a.vals
  let en (f : Field) : Bool := g.get f == 1
  let pinit := g.get ANA_RLS_PINIT_PINIT
  let wat := (a.wat.filter (fun p => en (WAT_EN p.1))).map (fun p =>
    let w := { p.2 with bands := (List.range 4).map (fun i => if bandChanged g h p.1 i then ⟨0, 0, 0⟩ else nth p.2.bands i ⟨0, 0, 0⟩) }
    (p.1, if watChanged g h p.1 then w.reset (gEff g (WAT_ORDER p.1)) pinit else w))
  ({ a with der := a.der.filter (fun p => en (DER_EN p.1) && !derChanged g h p.1)
            wat := wat
            alm := a.alm.filter (fun p => en (ALM_EN p.1) && !almChanged g h p.1)
            node := a.node.filter (fun p => en (NOD_EN p.1) && !nodeChanged g h p.1)
            branch := a.branch.filter (fun p => en (BRA_EN p.1))
            grp := a.grp.filter (fun p => !grpChanged g h p.1)
            vals := g },
   (a.wat.filter (fun p => en (WAT_EN p.1) && watChanged g h p.1)).map (fun p => p.1))

/-- The reset state (R264). -/
def anaReset : AnaState := ⟨[], [], [], [], [], [], []⟩

/-! ### The whole chain (R234) -/

def resEmpty : Res := ⟨[], [], 0, [], [], [], [], [], [], [], [], 0, [], [], [], [], []⟩

/-- A list as numbers, its length first. -/
def flatList {α : Type} (f : α → List Nat) (l : List α) : List Nat := l.length :: l.flatMap f

/-- The body of a checkpoint as numbers: what R219 lists of each object (its byte form is not given; DESIGN CHOICE, log 19). -/
def AnaState.body (a : AnaState) : List Nat :=
  flatList (fun p => [p.1, p.2.ang, p.2.t, p.2.rate]) a.der
    ++ flatList (fun p => p.1 :: flatList (fun b => [b.s1, b.s2, b.e]) p.2.bands ++ flatList (fun t => [t]) p.2.theta ++ flatList (fun t => [t]) p.2.pmat
        ++ flatList (fun t => [t]) p.2.phi ++ [p.2.nupd, p.2.miss, p.2.extr]) a.wat
    ++ flatList (fun p => [p.1, b2n p.2.act, p.2.on, p.2.off, b2n p.2.latch, p.2.val]) a.alm
    ++ flatList (fun p => [p.1, p.2]) a.node ++ flatList (fun p => [p.1, b2n p.2]) a.branch
    ++ flatList (fun p => p.1 :: flatList (fun t => [t]) p.2.theta.toList ++ flatList (fun t => [t.1, t.2]) p.2.dlt.toList ++ [p.2.sigma, p.2.on, p.2.off, b2n p.2.div]) a.grp

/-- CRC-32C of the body (R219). -/
def AnaState.crc (a : AnaState) : Nat := (Config.ckptCrc a.body).toNat

/-- Stage 3 over all watch signals. -/
def EvCtx.watchStage (x : EvCtx) (der : List (Nat × DerRes)) (old : List (Nat × WatState)) : List (Nat × WatUp) :=
  ((List.range 1024).filter (fun w => x.g.get (WAT_EN w) == 1)).map (fun w =>
    (w, x.watStep der w ((assoc old w).getD (watNew (gEff x.g (WAT_ORDER w)) (x.g.get ANA_RLS_PINIT_PINIT)))))

/-- Stages 4 and 5: extraction of the signals due, then mode shape (R246–R249); last, the numerical errors met. -/
def EvCtx.modeStage (x : EvCtx) (der : List (Nat × DerRes)) (ws : List (Nat × WatState)) :
    List (Nat × WatState) × List Nat × List (Nat × Nat × ModeRep) × Nat :=
  if !x.ind then (ws, [], [], 0)
  else
    let due := (ws.filter (fun p => watReady x.g p.1 p.2 && rootDue x.g x.sl.serial p.1)).map (fun p => p.1)
    let r := ws.map (fun p => if due.contains p.1 then (p.1, x.extract p.1 (x.watIn der p.1).div p.2) else (p.1, p.2, [], 0))
    let ws := r.map (fun p => (p.1, p.2.1))
    let sh := ws.map (fun p => (p.1, if due.contains p.1 then x.modeShape ws p.1 p.2 else (p.2, 0)))
    (sh.map (fun p => (p.1, p.2.1)), due, r.flatMap (fun p => p.2.2.1), sumNat (r.map (fun p => p.2.2.2)) + sumNat (sh.map (fun p => p.2.2)))

/-- The mode reports of the newest indicative extraction, which subjunctive results carry (R234): those of the newest indicative checkpoint. -/
def EvCtx.modesHeld (x : EvCtx) : List (Nat × List ModeRep) :=
  match x.s.ccd.ckI.getLast? with
  | some c => c.st.wat.map (fun p => (p.1, p.2.modes))
  | none => []

/-- An evaluation: the state it leaves and its results. `anew` asks for cause 5 on every estimator (R264). -/
def EvCtx.evaluate (x : EvCtx) (start : AnaState) (anew : Bool) : AnaState × Res :=
  if x.g.get ANA_CFG_EN = 0 then ({ start with vals := x.g }, resEmpty)
  else
    let (st, redef) := carryState x.g start
    let d := x.derived st.der
    let tp := x.topology st.branch
    let gs := x.groups st.grp
    let nodes := x.nodes
    let rels := nodes.map (fun n => (n, x.relAng st.node n))
    let rel := rels.filterMap (fun p => p.2.1.map (fun a => (p.1, a)))
    let isl := x.islands tp
    let ups := x.watchStage d.res st.wat
    let ws := ups.map (fun p => (p.1, p.2.st))
    let readied := (ws.filter (fun p => watReady x.g p.1 p.2 &&
      !((assoc st.wat p.1).map (fun o => watReady x.g p.1 o)).getD false)).map (fun p => p.1)
    let (ws, due, classed, mErr) := x.modeStage d.res ws
    let quor := if x.ind then x.sl.quor else x.sl.specQuor
    let ain : AlmIn := ⟨d.res, ws, ups.map (fun p => (p.1, p.2.brms)), ws.map (fun p => (p.1, (x.watIn d.res p.1).mood)), tp, gs.map (fun p => (p.1, p.2.2.1))⟩
    let defs := (List.range 2048).filter (fun k => x.g.get (ALM_EN k) == 1 && !almDirect (x.g.get (ALM_SOURCE k)))
    let al := defs.foldl (fun acc k => x.almStep ain st.alm quor acc k) []
    let resets := (if anew then ws.map (fun p => (p.1, 5)) else redef.map (fun w => (w, 4)))
      ++ (ups.filter (fun p => p.2.cause != 0)).map (fun p => (p.1, p.2.cause))
    ({ der := d.st, wat := ws, alm := al.map (fun p => (p.1, p.2.1)), node := rel,
       branch := tp.branch.map (fun p => (p.1, p.2.1)), grp := gs.map (fun p => (p.1, p.2.1)), vals := x.g },
     { der := d.res, brms := ups.map (fun p => (p.1, p.2.brms)), islCnt := tp.order.length,
       isls := isl.1, nodeIsl := nodes.map (fun n => (n, tp.islandOf n)),
       nodeF := nodes.filter (fun n => (x.nodeFreq n).has), rel := rel,
       branch := tp.branch.map (fun p => (p.1, p.2.1, p.2.2.1)), grp := gs.map (fun p => (p.1, p.2.2.1)),
       alm := al.map (fun p => (p.1, p.2.2)), withheld := defs.filter (fun k => almWithheld x.g quor k),
       numerr := d.err + sumNat (rels.map (fun p => p.2.2)) + isl.2 + sumNat (gs.map (fun p => p.2.2.2)) + sumNat (ups.map (fun p => p.2.err)) + mErr
         + sumNat (defs.map (fun k => x.almErr ain k)),
       resets := resets, readied := readied, extracted := due, classed := classed,
       modes := if x.ind then ws.map (fun p => (p.1, p.2.modes)) else x.modesHeld })

/-! ### What the definitions must satisfy (R240, R241, R251, R256) -/

/-- An index in range of an operand type. -/
def opOk (e o : Nat) : Option Nat :=
  let i := opIndex o
  match opType o with
  | 0 => none
  | 1 => if i < 32768 then none else some 2
  | 2 => if i < 8192 then none else some 2
  | 3 => if i < 4096 then none else some 2
  | 4 => if i < 4096 then none else some 2
  | 5 => if 8192 ≤ i then some 2 else if e ≤ i then some 3 else none
  | 6 => if 8192 ≤ i then some 2 else if e ≤ i then some 3 else none
  | 7 => if 8192 ≤ i then some 2 else if e ≤ i then some 3 else none
  | _ => some 2

/-- The reason a derived-signal entry is refused (R240). -/
def derRefused (g : RegFile) (e : Nat) : Option Nat :=
  let kind := g.get (DER_KIND e)
  let ops := (List.range 4).map (fun i => g.get (DER_OP e i))
  let o (i : Nat) : Nat := opType (nth ops i 0)
  let cplx (i : Nat) : Bool := o i == 1 || o i == 5
  if 6 ≤ kind then some 1
  else
    let bad (r : Nat) : Bool := ops.any (fun w => opOk e w == some r)
    if bad 2 then some 2
    else if bad 3 then some 3
    else
      let ok := match kind with
        | 0 => cplx 0 && cplx 1
        | 1 => cplx 0 && cplx 1
        | 2 => true
        | 3 => o 0 != 0 && o 1 != 0
        | 4 => cplx 0
        | _ => o 0 != 0
      if ok then none else some 4

/-- The reason a watch-signal entry is refused (R241, 0x6002). -/
def watRefused (g : RegFile) (w : Nat) : Option Nat :=
  let src := g.get (WAT_SRC w)
  let i := g.get (WAT_INDEX w)
  let lim := if src ≤ 2 then 8192 else if src ≤ 4 then 4096 else if src = 5 then 8192 else 32768
  let p := g.get (WAT_ORDER w)
  if src = 7 then some 1 else if lim ≤ i then some 2 else if p < 2 ∨ 20 < p then some 3 else none

/-- The reason an alarm definition is refused (R256, R257, 0x6003). -/
def almRefused (g : RegFile) (d : Nat) : Option Nat :=
  let src := g.get (ALM_SOURCE d)
  let i := g.get (ALM_INDEX d)
  let sub := g.get (ALM_SUB d)
  let j := g.get (ALM_INDEX2 d)
  let lim : Option (Nat × Bool) :=
    if src ≤ 2 then some (8192, true)
    else if src = 3 then some (1024, decide (sub < 4))
    else if src ≤ 6 then some (1024, decide (sub < 4) || sub == 15)
    else if src = 7 then some (1024, decide (sub < 4))
    else if src = 8 then some (8192, true)
    else if src = 9 then some (4096, true)
    else if src ≤ 12 then some (32, true)
    else if src ≤ 15 then some (4096, true)
    else if src ≤ 17 then some (2048, true)
    else if src = 0x20 ∨ src = 0x21 then some (8, true)
    else if src = 0x22 then some (192, decide (sub < 4))
    else if src = 0x23 then some (64, true)
    else if src = 0x24 then some (16, true)
    else if src = 0x25 ∨ src = 0x26 then some (2048, true)
    else none
  match lim with
  | none => some 1
  | some (n, ok) =>
    if n ≤ i ∨ !ok then some 2
    else if (src = 16 ∨ src = 17 ∨ src = 0x25 ∨ src = 0x26)
        ∧ (d ≤ i ∨ d ≤ j ∨ almDirect (g.get (ALM_SOURCE i)) ≠ almDirect src ∨ almDirect (g.get (ALM_SOURCE j)) ≠ almDirect src) then some 3
    else if 4 ≤ g.get (ALM_CMP d) then some 4
    else none

/-- The reason a branch is refused (R251): 1 disabled node, 2 index out of range, 3 one node at both ends. -/
def braRefused (g : RegFile) (b : Nat) : Option Nat :=
  let a := g.get (BRA_NODE_A b)
  let c := g.get (BRA_NODE_B b)
  let da := g.get (NOD_EN a) != 1
  let dc := g.get (NOD_EN c) != 1
  if a = c then some 3
  else if g.get (BRA_SRC b) = 1 ∧ 64 ≤ g.get (BRA_SEL b) then some 2
  else if (da || dc) && !(da && dc) then some 1
  else none

end Sys2Proof.Machine
end

