-- ==== Sys2Proof/Machine/Elision.lean ====
section
/-! DEFINITION. The Elision engine: its queue of places by class, its blocks, and the decoder (R330, R331). What the spec
leaves open here: DEDUCED, log 27. -/

namespace Sys2Proof.Machine

/-- The class of a job (R330). -/
def ElsKind.cls (k : ElsKind) : Nat :=
  match k with
  | .decode => 1
  | .frame _ => 2
  | .archive _ => 3
  | .block _ => 4
  | .soft _ => 5

/-- Places of a class. -/
def elsPlaces (c : Nat) : Nat := if c = 3 ∨ c = 4 then 8 else 16

/-- ELS_STAT follows the queue. -/
def State.elsStat (s : State) : State :=
  (s.wr ELS_STAT_QUEUE s.els.length).wr ELS_STAT_BUSY (b2n (s.els.any (fun j => j.started)))

/-- The next job starts when none runs: the lowest class, in the order queued. -/
def elsStart (l : List ElsJob) : List ElsJob :=
  if l.any (fun j => j.started) then l
  else
    match [1, 2, 3, 4, 5].findSome? (fun c => l.findIdx? (fun j => j.kind.cls == c)) with
    | some i => (List.range l.length).map (fun k =>
        let j := nth l k ⟨.decode, false⟩
        if k = i then { j with started := true } else j)
    | none => l

/-- A place of the class is free and PD6 is on. -/
def State.elsRoom (s : State) (c : Nat) : Bool :=
  s.on 6 && decide ((s.els.filter (fun j => j.kind.cls == c)).length < elsPlaces c)

/-- Queues a job, which opens the engine's gate (R76). -/
def State.elsAdd (s : State) (k : ElsKind) : State :=
  let s : State := { s with els := elsStart (s.els ++ [⟨k, false⟩]) }
  (s.gateOpen 16).elsStat

/-- The job that ends next: the running one, or, when that is a software job, the first of a higher class, to which it
yields at its block boundary. -/
def State.elsCurrent (s : State) : Option ElsKind :=
  match s.els.find? (fun j => j.started && j.kind.cls != 5) with
  | some j => some j.kind
  | none =>
    match [1, 2, 3, 4].findSome? (fun c => s.els.find? (fun j => j.kind.cls == c)) with
    | some j => some j.kind
    | none => (match s.els.find? (fun j => j.started) with
      | some j => some j.kind
      | none => none)

/-- Removes the first job of a kind, and starts the next: the job is done, or has paused. -/
def State.elsLeave (s : State) (k : ElsKind) : State :=
  let rest := match s.els.findIdx? (fun j => j.kind == k) with
    | some i => s.els.take i ++ s.els.drop (i + 1)
    | none => s.els
  ({ s with els := elsStart rest } : State).elsStat

/-- A job is done. -/
def State.elsEnd (s : State) (k : ElsKind) : State := (s.elsLeave k).cnt ELS_JOBS_COUNT

/-- The counts of input and output bytes. -/
def State.elsCount (s : State) (i o : Nat) : State :=
  (s.cntPair ELS_IN_LO_COUNT ELS_IN_HI_COUNT i).cntPair ELS_OUT_LO_COUNT ELS_OUT_HI_COUNT o

/-! ### Blocks (R331) -/

/-- An Elision block of an original; `stored` forces the stored form. -/
def elsBlock (level : Nat) (stored : Bool) (bs : List Byte) : List Byte :=
  let tok := Config.elsTokens level bs
  let st := stored || decide (bs.length < tok.length)
  let pay := if st then bs else tok
  [0x45, 0x42, toByte (level % 8 + (if st then 128 else 0)), 0] ++ leBytes 4 bs.length ++ leBytes 4 pay.length
    ++ leBytes 4 (crc32c bs) ++ pay

/-- Extension bytes of a length: the value and what follows. -/
def elsExt (v : Nat) (bs : List Byte) : Option (Nat × List Byte) :=
  match bs with
  | [] => none
  | b :: rest => if b.toNat = 255 then elsExt (v + 255) rest else some (v + b.toNat, rest)

/-- A length of 15 takes extension bytes. -/
def elsLen (v : Nat) (bs : List Byte) : Option (Nat × List Byte) := if v = 15 then elsExt 15 bs else some (v, bs)

/-- Copies `n` bytes from `d` back, byte by byte; the output is held newest first. -/
def elsCopy (d n : Nat) (out : List Byte) : List Byte :=
  (List.range n).foldl (fun o _ => nth o (d - 1) 0 :: o) out

/-- The token stream; the output is held newest first. -/
def elsTokensOut (fuel olen : Nat) (src out : List Byte) : Option (List Byte) :=
  match fuel, src with
  | _, [] => none
  | 0, _ => none
  | f + 1, c :: rest =>
    match elsLen (c.toNat / 16) rest with
    | none => none
    | some (n, rest) =>
      if rest.length < n then none
      else
        let out := (rest.take n).reverse ++ out
        let rest := rest.drop n
        if olen < out.length then none
        else if rest.isEmpty then (if c.toNat % 16 = 0 then some out else none)
        else if rest.length < 2 then none
        else
          let d := leAt rest 0 2
          match elsLen (c.toNat % 16) (rest.drop 2) with
          | none => none
          | some (m, rest) =>
            if d = 0 ∨ out.length < d ∨ olen < out.length + m + 4 then none
            else elsTokensOut f olen rest (elsCopy d (m + 4) out)

/-- The block at the front of a byte string: its original and what follows, or the ERR code: 3 malformed, 4 OCRC. -/
def elsDecode (bs : List Byte) : (List Byte × List Byte) ⊕ Nat :=
  if bs.length < 16 ∨ leAt bs 0 2 ≠ 0x4245 then .inr 3
  else
    let mode := byteAt bs 2
    let olen := leAt bs 4 4
    let clen := leAt bs 8 4
    let pay := slice bs 16 clen
    if pay.length < clen ∨ 1048576 < olen then .inr 3
    else
      let out : Option (List Byte) :=
        if mode / 128 = 1 then (if clen = olen then some pay else none)
        else if olen = 0 ∧ clen = 0 then some []
        else (elsTokensOut (clen + 1) olen pay []).map (fun o => o.reverse)
      match out with
      | none => .inr 3
      | some o => if o.length ≠ olen then .inr 3 else if crc32c o ≠ leAt bs 12 4 then .inr 4 else .inl (o, bs.drop (16 + clen))

end Sys2Proof.Machine
end

