-- ==== Sys2Proof/Machine/Publication.lean ====
section
/-! DEFINITION. Publication: the frames of output streams, their order and queues, pacing, commands and sessions, and the
gate of the claim (R276–R287). What the spec leaves open here: DEDUCED, log 24. -/

namespace Sys2Proof.Machine

/-! ### Allocations (R133, R172) -/

/-- A column's phasor entries: first entry and count. -/
def State.colPh (s : State) (c : Nat) : Nat × Nat :=
  match s.homeOfCol c with
  | some h => (s.rd (HSM_PH_BASE h), s.homeNph h)
  | none =>
    match s.ctxOfCol c with
    | none => (0, 0)
    | some x =>
      let b := c - x
      let before := ((List.range b).map (fun k => s.rd (CTX_PHNMR x k))).foldl (fun a n => a + n) 0
      let rest := s.rd (CTX_PH_CNT x) - before
      (s.rd (CTX_PH_BASE x) + before, if b = s.rd (CTX_NPMU x) then rest else min rest (s.rd (CTX_PHNMR x b)))

/-- A column's analogue entries: first entry and count. -/
def State.colAn (s : State) (c : Nat) : Nat × Nat :=
  match s.homeOfCol c with
  | some h => (s.rd (HSM_AN_BASE h), s.homeNan h)
  | none =>
    match s.ctxOfCol c with
    | none => (0, 0)
    | some x =>
      let b := c - x
      let before := ((List.range b).map (fun k => s.blockAn x k)).foldl (fun a n => a + n) 0
      let rest := s.rd (CTX_AN_CNT x) - before
      (s.rd (CTX_AN_BASE x) + before, if b = s.rd (CTX_NPMU x) then rest else min rest (s.blockAn x b))

/-- What a frame shows of a column: STAT, digital word, pair, phasors, analogues, shown predicted. -/
structure ColOut where
  stat : Nat
  dig : Nat
  fq : Nat
  rc : Nat
  ph : List Cpx
  an : List Nat
  pred : Bool

def State.colOut (s : State) (v : View) (c : Nat) : ColOut :=
  let w := (assoc v.cols c).getD ⟨0, 0, false, 0, 0xC000, 0x8000, 0x8000⟩
  let (pb, pn) := s.colPh c
  let (ab, an) := s.colAn c
  ⟨w.stat, w.dig, w.fq, w.rc,
   (List.range pn).map (fun i => match assoc v.ph (pb + i) with
     | some e => (e.re, e.im)
     | none => (fMiss, fMiss)),
   (List.range an).map (fun i => match assoc v.an (ab + i) with
     | some e => e.v
     | none => fMiss),
   w.mood == 1⟩

/-! ### Entries (R276, R277) -/

/-- The definitions carried in alarm words. -/
def pubDefs (g : RegFile) : List Nat := (List.range 2048).filter (fun d => g.get (ALM_PUB d) == 1)

/-- The columns and derived signals an entry carries. -/
def ostCols (g : RegFile) (o : Nat) : List Nat := (List.range (g.get (OST_COL_CNT o))).map (fun i => g.get (OST_COL_BASE o) + i)
def ostDers (g : RegFile) (o : Nat) : List Nat := (List.range (g.get (OST_DER_CNT o))).map (fun i => g.get (OST_DER_BASE o) + i)

/-- The largest data frame of an entry (R277). -/
def State.frameSize (s : State) (g : RegFile) (o : Nat) : Nat :=
  let cols := ostCols g o
  let nd := g.get (OST_DER_CNT o)
  let nal := if g.get (OST_ALM_EN o) = 1 then (pubDefs g).length else 0
  let sum (f : Nat → Nat) : Nat := (cols.map f).foldl (fun a n => a + n) 0
  match g.get (OST_FORMAT o) with
  | 0 => 16 + sum (fun c => 2 + 8 * (s.colPh c).2 + 8 + 4 * (s.colAn c).2 + 2)
      + (if nd = 0 ∧ nal = 0 then 0 else 2 + 8 * nd + 8 + 2 * ((nal + 15) / 16))
  | 1 => Config.rsvOverhead (g.get (OST_NAME o 0) % 256) (g.get (OST_SEC o))
      + sum (fun c => 8 * (2 + 2 * (s.colPh c).2 + (s.colAn c).2 + 1))
  | _ => 52 + 4 * ((cols.length + 31) / 32) + sum (fun c => 12 + 8 * (s.colPh c).2 + 4 * (s.colAn c).2) + 8 * nd + 4 * ((nal + 31) / 32)

/-- The size limit of an entry's frames. -/
def ostLimit (g : RegFile) (o : Nat) : Nat := if g.get (OST_FORMAT o) = 2 ∧ g.get (OST_CODE_EN o) = 1 then 65536 else 9216

/-- The IDCODEs of the other enabled C37.118 streams. -/
def ostTaken (g : RegFile) (o : Nat) : List Nat :=
  ((List.range 64).filter (fun k => k != o && g.get (OST_EN k) == 1 && g.get (OST_FORMAT k) == 0)).map (fun k => g.get (OST_IDCODE k))

/-- The reason an enabled entry is refused (R277); the size of its frames is judged where `size` says so. -/
def State.ostRefused (s : State) (g : RegFile) (o : Nat) (size : Bool) : Option Nat :=
  let fmt := g.get (OST_FORMAT o)
  let mood := g.get (OST_MOOD o)
  let div := gEff g (OST_DIV o)
  if fmt = 3 ∨ mood = 3 ∨ (mood = 2 ∧ fmt ≠ 2) then some 1
  else if s.sysRate % div ≠ 0 ∨ !rateOk s.sys60 (s.sysRate / div) then some 2
  else if 4096 < g.get (OST_COL_BASE o) + g.get (OST_COL_CNT o) ∨ 8192 < g.get (OST_DER_BASE o) + g.get (OST_DER_CNT o)
      ∨ (g.get (OST_COL_CNT o) = 0 ∧ g.get (OST_DER_CNT o) = 0) then some 3
  else if fmt = 1 ∧ g.get (OST_COL_CNT o) ≠ 1 then some 4
  else if size && decide (ostLimit g o < s.frameSize g o) then some 5
  else if fmt = 0 ∧ (ostTaken g o).contains (g.get (OST_IDCODE o)) then some 6
  else if g.get (OST_PORTMASK o) = 0 then some 7
  else none

/-- TXON for a slot time (R285). -/
def State.txonAt (s : State) (o t : Nat) : Bool :=
  match ((assoc s.pub.txon o).getD []).find? (fun p => decide (p.1 < t)) with
  | some p => p.2
  | none => false

/-- TXON from a slot time on, with the register that shows it. -/
def State.setTxon (s : State) (o after : Nat) (v : Bool) : State :=
  let h := (assoc s.pub.txon o).getD []
  let s : State := { s with pub := { s.pub with txon := assocSet s.pub.txon o (((after, v) :: h).take 130) } }
  s.wr (OST_TXON o) (b2n v)

/-- The bytes of NAME (R276). -/
def ostName (g : RegFile) (o : Nat) : List Byte :=
  let n := min 129 (g.get (OST_NAME o 0) % 256)
  slice ((List.range 33).flatMap (fun i => leBytes 4 (g.get (OST_NAME o i)))) 1 n

/-! ### Frames (R278–R281) -/

/-- The result a frame carries. -/
structure PubIn where
  sl : Slot
  g : RegFile
  v : View
  res : Res
  sub : Bool
  rev : Nat

/-- A phasor as a stream sends it. -/
def phOut (polar : Bool) (z : Cpx) : List Byte :=
  let z := if !polar then z
    else if fBad z.1 || fBad z.2 then (fMiss, fMiss)
    else ((cAbs z).getD fMiss, (cArg z).getD fMiss)
  beBytes 4 z.1 ++ beBytes 4 z.2

/-- f0 + Δf as a float32 in Hz, or NaN. -/
def State.freqOut (s : State) (fq : Nat) : Nat :=
  if fq = 0x8000 then fMiss
  else ((do fAdd (← fOfInt (if s.is60 then 60 else 50)) (← fqHz fq)) : Option Nat).getD fMiss

/-- DFREQ as a float32 in Hz/s, or NaN. -/
def rocofOut (rc : Nat) : Nat := if rc = 0x8000 then fMiss else (rcHz rc).getD fMiss

/-- A derived signal's value as sent. -/
def derOut (r : Res) (e : Nat) : Cpx :=
  match assoc r.der e with
  | some d => if 2 ≤ d.kind then (d.re, d.im) else (fMiss, fMiss)
  | none => (fMiss, fMiss)

/-- The state of a definition in the frame's result; a direct one as it stands (R280). -/
def State.almOut (s : State) (r : Res) (d : Nat) : Bool :=
  match assoc r.alm d with
  | some a => a.act
  | none => ((assoc s.ana.dirs d).map (fun x => x.act)).getD false

/-- The alarm words of `w` bits each. -/
def State.almWords (s : State) (p : PubIn) (w : Nat) : List Nat :=
  let ds := pubDefs p.g
  (List.range ((ds.length + w - 1) / w)).map (fun j =>
    maskOf w (fun b => match nth (ds.map some) (w * j + b) none with
      | some d => s.almOut p.res d
      | none => false))

/-- STAT of a column in a C37.118 frame (R278). -/
def State.statOut (s : State) (p : PubIn) (o : Nat) (c : ColOut) : Nat :=
  let x := if p.sub && c.pred && bit c.stat 9 = 0 then c.stat + 512 else c.stat
  let fresh := match assoc s.pub.changedAt o with
    | some t => decide (s.mono < t + 60 * secU)
    | none => false
  if fresh && bit x 10 = 0 then x + 1024 else x

/-- A C37.118.2 data frame, the leap-second bits of its slot time above the time quality (R109); its CHK is inserted by the port (R120, R278). -/
def State.c37Frame (s : State) (p : PubIn) (o : Nat) : List Byte :=
  let polar := p.g.get (OST_POLAR o) == 1
  let cols := (ostCols p.g o).flatMap (fun c =>
    let x := s.colOut p.v c
    beBytes 2 (s.statOut p o x) ++ x.ph.flatMap (phOut polar) ++ beBytes 4 (s.freqOut x.fq) ++ beBytes 4 (rocofOut x.rc)
      ++ x.an.flatMap (fun a => beBytes 4 a) ++ beBytes 2 x.dig)
  let ders := ostDers p.g o
  let alm := if p.g.get (OST_ALM_EN o) = 1 then s.almWords p 16 else []
  let more := if ders.isEmpty && alm.isEmpty then []
    else beBytes 2 0 ++ ders.flatMap (fun e => phOut polar (derOut p.res e)) ++ beBytes 4 fMiss ++ beBytes 4 fMiss
      ++ alm.flatMap (fun w => beBytes 2 w)
  let body := cols ++ more
  beBytes 2 0xAA01 ++ beBytes 2 (16 + body.length) ++ beBytes 2 (p.g.get (OST_IDCODE o)) ++ beBytes 4 p.sl.soc
    ++ beBytes 4 (p.sl.frac + p.sl.tq * 2 ^ 24 + p.sl.leap * 2 ^ 28) ++ body ++ zeros 2

/-- The dataset of a 90-5 frame: each value and its quality, 0 good and 0x40000000 invalid for a missing one (R140). -/
def State.rsvData (s : State) (p : PubIn) (o : Nat) : List Byte :=
  let polar := p.g.get (OST_POLAR o) == 1
  let q (x : Nat) : List Byte := beBytes 4 x ++ beBytes 4 (if fBad x then 0x40000000 else 0)
  (ostCols p.g o).flatMap (fun c =>
    let x := s.colOut p.v c
    q (s.freqOut x.fq) ++ q (rocofOut x.rc)
      ++ x.ph.flatMap (fun z => let b := phOut polar z
                                q (beAt b 0 4) ++ q (beAt b 4 4))
      ++ x.an.flatMap q ++ beBytes 4 x.dig ++ beBytes 4 0)

/-- NPRES of a Lammar frame. -/
def pubNpres (sl : Slot) (cols : List Nat) : Nat :=
  (cols.filter (fun c => ((assoc sl.cols c).map (fun x => x.st == 2)).getD false)).length

/-- QBITS: classes quorate in [6:0], the slot in [7]. -/
def qbits (quor : Nat) : Nat := quor / 2 % 128 + quor % 2 * 128

/-- A Lammar frame of a kind (R279): 1 data, 2 alarm messages. -/
def State.lammarFrame (s : State) (p : PubIn) (o kind seq : Nat) (msgs : List (List Byte)) : List Byte :=
  let cols := ostCols p.g o
  let ders := if kind = 1 then ostDers p.g o else []
  let alm := if kind = 1 ∧ p.g.get (OST_ALM_EN o) = 1 then s.almWords p 32 else []
  let pred (i : Nat) : Bool := p.sub && (((assoc p.v.cols (nth cols i 4096)).map (fun w => w.mood == 1)).getD false)
  let bitmap := (List.range ((cols.length + 31) / 32)).flatMap (fun j => leBytes 4 (maskOf 32 (fun b => pred (32 * j + b))))
  let block (c : Nat) : List Byte :=
    let x := s.colOut p.v c
    [toByte x.ph.length, toByte x.an.length] ++ leBytes 2 x.stat ++ leBytes 2 x.dig ++ zeros 2 ++ leBytes 2 x.fq ++ leBytes 2 x.rc
      ++ x.ph.flatMap (fun z => leBytes 4 z.1 ++ leBytes 4 z.2) ++ x.an.flatMap (fun a => leBytes 4 a)
  let body := if kind = 1 then
      cols.flatMap block ++ ders.flatMap (fun e => let z := derOut p.res e
                                                   leBytes 4 z.1 ++ leBytes 4 z.2) ++ alm.flatMap (fun w => leBytes 4 w)
    else msgs.flatMap (fun m => m)
  let len := 48 + bitmap.length + body.length + 4
  let sec := p.sl.t / 1000000000
  let flags := b2n p.sub + b2n p.sl.irc * 4
  let fr := [0x47, 0x4B, 0x4C, 0x46] ++ leBytes 4 len ++ [0x01, toByte kind, toByte flags, toByte (p.rev % 16)] ++ leBytes 4 (p.g.get (OST_SID o))
    ++ leBytes 4 p.sl.serial ++ leBytes 6 sec ++ leBytes 2 p.sl.epoch ++ leBytes 4 (p.sl.t % 1000000000)
    ++ leBytes 2 (s.rd RED_CLAIM_INFORCE) ++ leBytes 2 (pubNpres p.sl cols) ++ leBytes 2 cols.length
    ++ [toByte (qbits (if p.sub then p.sl.specQuor else p.sl.quor)), 0]
    ++ leBytes 2 (if kind = 1 then ders.length else msgs.length) ++ leBytes 2 alm.length ++ leBytes 4 seq ++ bitmap ++ body
  fr ++ leBytes 4 (crc32c fr)

/-! ### Addressing and queues (R276, R282, R283) -/

/-- The destination MAC of an entry. -/
def ostMac (g : RegFile) (o : Nat) : Nat :=
  let ip := g.get (OST_DSTIP o)
  if g.get (OST_DMAC_AUTO o) = 1 then (if ip / 2 ^ 28 = 14 then multicastMac ip else Config.arp ip % 2 ^ 48)
  else g.get (OST_DMACHI o) * 2 ^ 32 + g.get (OST_DMACLO o)

/-- The frame of a payload for each port of the entry. -/
def State.ostFrames (s : State) (g : RegFile) (o : Nat) (pl : List Byte) : List (Nat × List Byte) :=
  (bitsSet 6 (g.get (OST_PORTMASK o))).map (fun n =>
    (n, udpFrame (ostMac g o) (if g.get (OST_VLAN_EN o) = 1 then some (g.get (OST_PCP o) * 8192 + g.get (OST_VID o)) else none)
          (g.get (OST_DSCP o)) (g.get (OST_TTL o)) (s.rd (PUB_SRCIP_IP n)) (g.get (OST_DSTIP o))
          (g.get (OST_SRCPORT o)) (g.get (OST_DSTPORT o)) pl))

def State.pubQ (s : State) (n : Nat) : List PubFrame := nth s.pub.queues n []

/-- The bytes a frame takes in a publication queue. -/
def PubFrame.size (f : PubFrame) : Nat := f.bytes.length + 4

def pubFill (q : List PubFrame) : Nat := q.foldl (fun a f => a + f.size) 0

/-- Replaces a port's queue; PUB_QLVL follows. -/
def State.setPubQ (s : State) (n : Nat) (q : List PubFrame) : State :=
  let s : State := { s with pub := { s.pub with queues := setNth s.pub.queues n q } }
  s.wr (PUB_QLVL_BYTES n) (pubFill q)

/-- Drops the oldest subjunctive frames until a new frame fits: what stays and what goes. -/
def pubMakeRoom (need : Nat) (q : List PubFrame) (fill : Nat) : List PubFrame × List PubFrame :=
  match q with
  | [] => ([], [])
  | f :: rest =>
    if fill + need ≤ 524288 then (f :: rest, [])
    else if f.kind = 0 then
      let (keep, gone) := pubMakeRoom need rest (fill - f.size)
      (keep, f :: gone)
    else
      let (keep, gone) := pubMakeRoom need rest fill
      (f :: keep, gone)

/-- A subjunctive frame is dropped for age or for room; the first of a run records event 0x2110. -/
def State.staleDrop (s : State) (n : Nat) (f : PubFrame) : State :=
  let s := s.cnt (OST_STALEDROP f.o)
  if s.pub.dropRun.contains f.o then s
  else ({ s with pub := { s.pub with dropRun := f.o :: s.pub.dropRun } }).ev 0x2110 f.o f.serial f.rev n

/-- A frame enters a port's publication queue (R282). -/
def State.pubPut (s : State) (n : Nat) (f : PubFrame) : State :=
  let q := s.pubQ n
  let (keep, gone) := pubMakeRoom f.size q (pubFill q)
  let s := s.each gone (fun s g => s.staleDrop n g)
  if pubFill keep + f.size ≤ 524288 then s.setPubQ n (keep ++ [f])
  else ((s.setPubQ n keep).cnt (OST_IDROP f.o)).ev 0x2111 f.o f.serial n 0

/-- A formed frame is handed to its ports' queues. -/
def State.pubHand (s : State) (x : PubOut) (c37 : Bool) : State :=
  s.each x.ports (fun s p => s.pubPut p.1 ⟨x.o, x.serial, x.rev, x.kind, c37, s.mono, p.2⟩)

/-- The next send time of a stream's paced frames stands in the delay list (R271, R283). -/
def State.paceArm (s : State) (o : Nat) : State :=
  match s.pub.paced.find? (fun p => p.2.o == o) with
  | some p => s.delayAdd p.1 (.send o)
  | none => s.delayDrop (.send o)

/-- A formed frame leaves the framer: an indicative one of a paced stream waits for T + PACE_US (R283). -/
def State.pubPace (s : State) (g : RegFile) (t : Nat) (x : PubOut) : State :=
  let c37 := g.get (OST_FORMAT x.o) == 0
  if x.kind = 1 ∧ g.get (OST_PACE_EN x.o) = 1 then
    let due := (t + gEff g (OST_PACE_US x.o) * 1000) * nsU
    if due < s.tai then (s.cnt (OST_PACELATE x.o)).pubHand x c37
    else if due = s.tai then s.pubHand x c37
    else
      let s : State := { s with pub := { s.pub with paced := s.pub.paced ++ [(due, x)] } }
      s.paceArm x.o
  else s.pubHand x c37

/-- A frame with another payload: lengths follow. -/
def withPayload (bs pl : List Byte) : List Byte :=
  let ip := rawIp bs
  let u := ip.o + ip.hl
  let bs := bs.take (u + 8) ++ pl
  patch (patch bs (ip.o + 2) (beBytes 2 (ip.hl + 8 + pl.length))) (u + 4) (beBytes 2 (8 + pl.length))

/-- The payload of a frame the framer built. -/
def payloadOf (bs : List Byte) : List Byte :=
  let ip := rawIp bs
  bs.drop (ip.o + ip.hl + 8)

/-- The coded form of a Lammar frame (R279). -/
def codedFrame (level : Nat) (stored : Bool) (fr : List Byte) : List Byte :=
  let blk := elsBlock level stored fr
  let hd := (fr.take 4) ++ leBytes 4 (16 + blk.length + 4) ++ slice fr 8 2 ++ [toByte (byteAt fr 10 + 2)] ++ slice fr 11 5
  let x := hd ++ blk
  x ++ leBytes 4 (crc32c x)

/-- A frame too large for its stream is not formed (R277). -/
def State.pubTooLarge (s : State) (o serial rev : Nat) (sub : Bool) : State :=
  if sub then (s.cnt (OST_STALEDROP o)).ev 0x2110 o serial rev 0 else (s.cnt (OST_IDROP o)).ev 0x2111 o serial 0 0

/-- Frames waiting for a place with the Elision engine take the places that are free, in order. -/
def State.codeFeed (s : State) : State :=
  (List.range 16).foldl (fun s _ =>
    match s.pub.codeWait with
    | [] => s
    | (_, x) :: rest =>
      if s.elsRoom 2 then ({ s with pub := { s.pub with codeWait := rest } }).elsAdd (.frame x) else s) s

/-- A formed payload goes to the ports, or first to the Elision engine when the stream is coded. -/
def State.pubForm (s : State) (p : PubIn) (o kind : Nat) (pl : List Byte) : State :=
  if ostLimit p.g o < pl.length then s.pubTooLarge o p.sl.serial p.rev (kind == 0)
  else
    let x : PubOut := ⟨o, p.sl.serial, p.rev, kind, s.ostFrames p.g o pl⟩
    if p.g.get (OST_FORMAT o) = 2 ∧ p.g.get (OST_CODE_EN o) = 1 then
      ({ s with pub := { s.pub with codeWait := s.pub.codeWait ++ [(s.mono, x)] } }).codeFeed
    else s.pubPace p.g p.sl.t x

/-- The encode of a stream's frame has ended (R279, R332). -/
def State.pubCoded (s : State) (x : PubOut) (failed : Bool) : State :=
  let g := match s.bySerial x.serial with
    | some (_, sl) => s.gen sl.gen
    | none => s.regs
  let t := match s.bySerial x.serial with
    | some (_, sl) => sl.t
    | none => 0
  match x.ports with
  | [] => s
  | (_, f0) :: _ =>
    let fr := payloadOf f0
    let cf := codedFrame (g.get (OST_CODE x.o)) failed fr
    let s := s.elsCount fr.length cf.length
    if cf.length ≤ 9216 then s.pubPace g t { x with ports := x.ports.map (fun p => (p.1, withPayload p.2 cf)) }
    else
      let s := s.cnt (OST_CODEFALL x.o)
      if fr.length ≤ 9216 then (s.ev 0x2112 x.o x.serial 1 cf.length).pubPace g t x
      else s.ev 0x2112 x.o x.serial 2 cf.length

/-- The streams that carry a result: enabled, of its mood, on the grid, and transmitting (R276, R282, R285). -/
def State.pubStreams (s : State) (p : PubIn) : List Nat :=
  if p.g.get PUB_CFG_EN = 0 then []
  else (List.range 64).filter (fun o =>
    let m := p.g.get (OST_MOOD o)
    p.g.get (OST_EN o) == 1 && (m == 2 || m == b2n p.sub) && p.sl.k % gEff p.g (OST_DIV o) == 0
      && (p.g.get (OST_FORMAT o) != 0 || s.txonAt o p.sl.t))

/-- What the result set of a subjunctive evaluation would publish (R223): for each stream of its mood the columns as it shows them with the
bitmap of predicted ones, derived signals and alarm words, and the states that the alarm engine takes of it (R259). -/
def State.pubValues (s : State) (p : PubIn) : List Nat :=
  let streams := if p.g.get PUB_CFG_EN = 0 then []
    else (List.range 64).filter (fun o => p.g.get (OST_EN o) == 1 && p.g.get (OST_MOOD o) != 0 && p.sl.k % gEff p.g (OST_DIV o) == 0)
  flatList (fun o =>
    flatList (fun c =>
      let x := s.colOut p.v c
      [x.stat, x.dig, x.fq, x.rc, b2n x.pred] ++ flatList (fun z => [z.1, z.2]) x.ph ++ flatList (fun a => [a]) x.an) (ostCols p.g o)
      ++ flatList (fun e => let z := derOut p.res e
                            [z.1, z.2]) (ostDers p.g o)
      ++ (if p.g.get (OST_ALM_EN o) = 1 then s.almWords p 32 else [])) streams
    ++ flatList (fun a => [a.1, b2n a.2.act, a.2.how]) p.res.alm

/-- One data frame of a result set. -/
def State.pubData (s : State) (p : PubIn) (o : Nat) : State :=
  let kind := if p.sub then 0 else 1
  let seq := s.rd (OST_SEQ o)
  match p.g.get (OST_FORMAT o) with
  | 0 => s.pubForm p o kind (s.c37Frame p o)
  | 1 =>
    let sec := p.g.get (OST_SEC o)
    let slot := p.g.get (OST_KEYSLOT o)
    let d := s.rsvData p o
    let form (k : List Nat) : List Byte := Config.rsvForm (ostName p.g o)
      [p.sl.t / 1000000000, p.sl.t % 1000000000, seq, sec, s.rd (KSL_KEYID slot)] k d
    if sec = 0 then (s.wr (OST_SEQ o) (seq + 1)).pubForm p o kind (form [])
    else
      (match s.keyUse slot 1 [if sec = 1 then 2 else 1] none with
        | some r => s.keyRefuse slot 1 r 2 (some o)
        | none => ((s.keyUsed slot).wr (OST_SEQ o) (seq + 1)).pubForm p o kind (form ((s.curKey slot).getD [])))
  | _ => (s.wr (OST_SEQ o) (seq + 1)).pubForm p o kind (s.lammarFrame p o 1 seq [])

/-- The framer forms the data frames of a result set, in ascending stream number (R282). -/
def State.pubResults (s : State) (p : PubIn) : State := s.each (s.pubStreams p) (fun s o => s.pubData p o)

/-- The list in pieces of at most 64. -/
def chunks64 {α : Type} (n : Nat) (l : List α) : List (List α) :=
  match n with
  | 0 => []
  | k + 1 => if l.isEmpty then [] else l.take 64 :: chunks64 k (l.drop 64)

/-- Alarm messages of a slot go out on Lammar streams with MSG_EN (R281). -/
def State.pubMsgs (s : State) (p : PubIn) (streams : List Nat) (msgs : List (List Byte)) : State :=
  if msgs.isEmpty ∨ p.g.get PUB_CFG_EN = 0 then s
  else
    s.each (streams.filter (fun o => p.g.get (OST_EN o) == 1 && p.g.get (OST_FORMAT o) == 2 && p.g.get (OST_MSG_EN o) == 1))
      (fun s o => s.each (chunks64 (msgs.length / 64 + 1) msgs) (fun s ms =>
        let seq := s.rd (OST_SEQ o)
        (s.wr (OST_SEQ o) (seq + 1)).pubForm p o 2 (s.lammarFrame p o 2 seq ms)))

/-- An alarm message (R227). -/
def almMsg (sl : Slot) (d : Nat) (retract : Bool) (first last reason seq : Nat) : List Byte :=
  leBytes 4 sl.serial ++ leBytes 4 (sl.t / 1000000000) ++ leBytes 4 (sl.t % 1000000000)
    ++ leBytes 4 (d + b2n retract * 2048 + first * 4096 + last * 65536 + sl.rev.getD 0 * 2 ^ 20 + reason * 2 ^ 24)
    ++ leBytes 4 sl.epoch ++ leBytes 4 seq

/-- Retractions and confirmations are formed: (definition, first, last revision, reason), counted and numbered (R226). -/
def State.formMsgs (s : State) (sl : Slot) (l : List (Nat × Nat × Nat × Nat)) : State × List (List Byte) :=
  l.foldl (fun a m =>
    let (s, ms) := a
    let seq := s.rd CCD_MSG_SEQ_SEQ
    let retract := m.2.2.2 != 0
    let s := s.wr CCD_MSG_SEQ_SEQ (seq + 1)
    let s := if retract then (s.cnt CCD_RETRACTS_COUNT).ev 0x5108 m.1 sl.serial m.2.2.2 m.2.2.1 else s.cnt CCD_CONFIRMS_COUNT
    (s, ms ++ [almMsg sl m.1 retract m.2.1 m.2.2.1 m.2.2.2 seq])) (s, [])

/-- Data frames of an aborted slot that still wait are dropped (R282). -/
def State.pubAbort (s : State) (serial : Nat) : State :=
  let s : State := { s with pub := { s.pub with
    codeWait := s.pub.codeWait.filter (fun x => x.2.serial != serial || x.2.kind == 2),
    paced := s.pub.paced.filter (fun x => x.2.serial != serial || x.2.kind == 2) } }
  s.each (List.range 6) (fun s n => s.setPubQ n ((s.pubQ n).filter (fun f => f.serial != serial || f.kind == 2)))

/-! ### Draining (R282, R287) -/

/-- A subjunctive frame sent marks its slot, for the retractions of an abort (R281). -/
def State.pubSent (s : State) (f : PubFrame) : State :=
  let s : State := { s with pub := { s.pub with dropRun := s.pub.dropRun.filter (fun o => o != f.o || f.kind != 0) } }
  let s := s.cnt (OST_SENT f.o)
  if f.kind ≠ 0 then s
  else
    match s.bySerial f.serial with
    | some (pos, sl) => if sl.subOuts.contains f.o then s else s.setSlot pos { sl with subOuts := f.o :: sl.subOuts }
    | none => s

/-- The age limit of subjunctive frames. -/
def State.maxAge (s : State) : Nat := s.eff PUB_MAXAGE_US * 1000 * nsU

/-- The head frame of a port's queue leaves it (R287). -/
def State.pubDrain (s : State) (n : Nat) : State :=
  match s.pubQ n with
  | [] => s
  | f :: rest =>
    if f.kind = 0 ∧ f.formedAt + s.maxAge < s.mono then (s.setPubQ n rest).staleDrop n f
    else if s.txOpen n && !s.txRoom n 2 f.bytes.length then s
    else
      let s := s.setPubQ n rest
      if !s.is RED_STAT_DRIVING then s.cnt (OST_SUPP f.o)
      else
        let open_ := s.txOpen n
        let s := s.txOffer n ⟨2, f.bytes, f.c37, false⟩
        if open_ then s.pubSent f else s

/-- PUB_QUEUE_DRAIN: a formed frame enters port `n`'s transmit buffer as room appears, if the claim lets it (R282, R287). -/
def execPubQueueDrain (n : Nat) (s : State) : Host.Outcome State Fault Refusal :=
  done s (if s.portUp n then s.pubDrain n else s)

/-- PUB_AGE_DROP: the oldest subjunctive frame of port `n`'s queue, or one that waits for the Elision engine, has waited
longer than PUB_MAXAGE and is dropped with its revision consumed (R282). -/
def execPubAgeDrop (n : Nat) (s : State) : Host.Outcome State Fault Refusal :=
  done s (if !s.portUp n then s
    else
      match (s.pubQ n).find? (fun f => f.kind == 0) with
      | some f =>
        let s := s.waitUntil (f.formedAt + s.maxAge + 1)
        (s.setPubQ n (((s.pubQ n).takeWhile (fun x => x.kind != 0)) ++ ((s.pubQ n).dropWhile (fun x => x.kind != 0)).drop 1)).staleDrop n f
      | none =>
        match s.pub.codeWait.find? (fun x => x.2.kind == 0 && x.2.ports.any (fun p => p.1 == n)) with
        | some (t, x) =>
          let s := s.waitUntil (t + s.maxAge + 1)
          let s : State := { s with pub := { s.pub with codeWait := s.pub.codeWait.filter (fun y => y != (t, x)) } }
          s.staleDrop n ⟨x.o, x.serial, x.rev, 0, false, t, []⟩
        | none => s)

/-- A stream's paced frame is released from the delay list (R283). -/
def State.paceRelease (s : State) (o : Nat) : State :=
  match s.pub.paced.find? (fun p => p.2.o == o) with
  | none => s
  | some p =>
    let s : State := { s with pub := { s.pub with paced := s.pub.paced.filter (fun q => q != p) } }
    (s.pubHand p.2 (s.rd (OST_FORMAT o) == 0)).paceArm o

/-! ### Commands and sessions (R284–R286) -/

/-- The enabled C37.118 stream of an IDCODE. -/
def State.cmdStream (s : State) (id : Nat) : Option Nat :=
  (List.range 64).find? (fun o => s.is (OST_EN o) && s.rd (OST_FORMAT o) == 0 && s.rd (OST_IDCODE o) == id)

/-- The client lies in the stream's ACL. -/
def State.aclOk (s : State) (o ip : Nat) : Bool :=
  let n := s.eff (OST_ACL_LEN o)
  ip / 2 ^ (32 - n) == s.rd (OST_ACL_NET o) / 2 ^ (32 - n)

/-- PUB_GATE.SESS follows the sessions. -/
def State.sessStat (s : State) : State := s.wr PUB_GATE_SESS s.pub.sessions.length

/-- The session of a TCP command: opened by the first command frame, if one is free, and bound to the stream it names. -/
def State.session (s : State) (c : CmdFrom) : Option Nat × State :=
  match s.pub.sessions.findIdx? (fun x => x.ip == c.ip && x.sport == c.sport) with
  | some i =>
    let x := nth s.pub.sessions i ⟨0, 0, 0, 0⟩
    (some i, { s with pub := { s.pub with sessions := setNth s.pub.sessions i { x with lastAt := s.mono } } })
  | none =>
    if s.eff PUB_TCP_MAXSESS ≤ s.pub.sessions.length then (none, s)
    else
      let o := (s.cmdStream c.idcode).getD 64
      let s : State := { s with pub := { s.pub with sessions := s.pub.sessions ++ [⟨c.ip, c.sport, o, s.mono⟩] } }
      (some (s.pub.sessions.length - 1), s.sessStat)

/-- A command is ignored: CMD_IGN of its stream and event 0x2104. -/
def State.cmdIgn (s : State) (o : Option Nat) (c : CmdFrom) (code reason : Nat) : State :=
  match o with
  | some o => (s.cnt (OST_CMD_IGN o)).ev 0x2104 o c.ip code reason
  | none => s.ev 0x2104 0xFFFF c.ip code reason

/-- A reply of the management core goes to the requester over the transport it used. -/
def State.cmdReply (s : State) (o : Nat) (c : CmdFrom) (sess : Option Nat) (pl : List Byte) : State :=
  let s := s.cnt (OST_CFGREQ o)
  if c.tcp then { s with pub := { s.pub with replies := s.pub.replies ++ [(sess.getD 0, pl)] } }
  else s.txOffer c.port ⟨3, udpFrame c.mac none 0 64 (s.rd (PUB_SRCIP_IP c.port)) c.ip (s.rd NET_C37_UDP_PORT0) c.sport pl, true, false⟩

/-- SOC and FRACSEC of now, in UTC and units of CCD_TBASE, with the leap-second bits and the time quality. -/
def State.nowSoc (s : State) : Nat × Nat :=
  let u := s.utcAt s.nowNs
  ((secOf s.tai + 2 ^ 32 - u.1 % 2 ^ 32) % 2 ^ 32, nsOf s.tai * s.ccd.tbase / 1000000000 + s.tqCode * 2 ^ 24 + u.2 * 2 ^ 28)

/-- A header frame: NAME is its text (R276). -/
def State.headerFrame (s : State) (o : Nat) : List Byte :=
  let t := ostName s.regs o
  let (soc, fr) := s.nowSoc
  beBytes 2 0xAA11 ++ beBytes 2 (16 + t.length) ++ beBytes 2 (s.rd (OST_IDCODE o)) ++ beBytes 4 soc ++ beBytes 4 fr ++ t ++ zeros 2

/-- The ASCII digits of a number, `n` of them. -/
def digits (n v : Nat) : List Byte := (List.range n).map (fun i => toByte (48 + v / 10 ^ (n - 1 - i) % 10))

/-- The ASCII digits of a number without leading zeros. -/
def decimal (v : Nat) : List Byte := if v < 10 then digits 1 v else if v < 100 then digits 2 v else if v < 1000 then digits 3 v else digits 4 v

/-- The channel names of a stream (R278): "CnnnnPi", "CnnnnAj", "Dk". -/
def State.chanNames (s : State) (o : Nat) : List (List Byte) :=
  (ostCols s.regs o).flatMap (fun c =>
    (List.range (s.colPh c).2).map (fun i => [0x43] ++ digits 4 c ++ [0x50] ++ decimal i)
      ++ (List.range (s.colAn c).2).map (fun i => [0x43] ++ digits 4 c ++ [0x41] ++ decimal i))
    ++ (ostDers s.regs o).map (fun e => [0x44] ++ decimal e)

/-- A CFG-1, CFG-2 or CFG-3 frame. -/
def State.cfgFrame (s : State) (o typ : Nat) : List Byte :=
  let (soc, fr) := s.nowSoc
  let nal := if s.is (OST_ALM_EN o) then (pubDefs s.regs).length else 0
  let more := if s.rd (OST_DER_CNT o) = 0 ∧ nal = 0 then [] else [[s.rd (OST_DER_CNT o), 0, (nal + 15) / 16]]
  Config.cfgForm [typ, s.rd (OST_IDCODE o), soc, fr, s.ccd.tbase, s.rate / s.eff (OST_DIV o), s.rd (OST_CFGCNT o),
      if s.is (OST_POLAR o) then 0x000F else 0x000E, if s.is60 then 0 else 1, 0, 0]
    ((ostCols s.regs o).map (fun c => [(s.colPh c).2, (s.colAn c).2, 1]) ++ more) (ostName s.regs o :: s.chanNames o)

/-- A command in a session bound to another stream than the one it names (R284; DEDUCED, log 24). -/
def State.boundElsewhere (s : State) (sess : Option Nat) (o : Nat) : Bool :=
  match sess with
  | some i => let b := (nth s.pub.sessions i ⟨0, 0, 64, 0⟩).o
              b != 64 && b != o
  | none => false

/-- A C37.118 command frame reaches publication: `stamp` is its arrival stamp in 1/16 ns (R284, R285). -/
def State.command (s : State) (c : CmdFrom) (code stamp : Nat) : State :=
  let (sess, s) := if c.tcp then s.session c else (none, s)
  if c.tcp && sess.isNone then s
  else
    match s.cmdStream c.idcode with
    | none => s.cmdIgn none c code 1
    | some o =>
      if s.boundElsewhere sess o then s.cmdIgn (some o) c code 1
      else if !s.aclOk o c.ip then s.cmdIgn (some o) c code 2
      else
        match code with
        | 1 => ({ s with pub := { s.pub with cmds := s.pub.cmds ++ [(⟨o, stamp, false, c.ip⟩ : PubCmd)] } }).cnt (OST_CMD_OFF o)
        | 2 => ({ s with pub := { s.pub with cmds := s.pub.cmds ++ [(⟨o, stamp, true, c.ip⟩ : PubCmd)] } }).cnt (OST_CMD_ON o)
        | 3 => s.cmdReply o c sess (s.headerFrame o)
        | 4 => s.cmdReply o c sess (s.cfgFrame o 1)
        | 5 => s.cmdReply o c sess (s.cfgFrame o 2)
        | 6 => s.cmdReply o c sess (s.cfgFrame o 3)
        | _ => s.cmdIgn (some o) c code 3

/-- A command frame delivered now. -/
def State.commandNow (s : State) (c : CmdFrom) (code : Nat) : State :=
  if s.up && s.on 2 then s.command c code (stampOf s.tai) else s

/-- CMD_TRANSMISSION_OFF: command 0x0001 is collected for the stream's reporting period (R285). -/
def execCmdTransmissionOff (c : CmdFrom) (s : State) : Host.Outcome State Fault Refusal := done s (s.commandNow c 1)

/-- CMD_TRANSMISSION_ON: command 0x0002 is collected for the stream's reporting period (R285). -/
def execCmdTransmissionOn (c : CmdFrom) (s : State) : Host.Outcome State Fault Refusal := done s (s.commandNow c 2)

/-- CMD_SEND_HEADER: command 0x0003 returns a header frame (R284). -/
def execCmdSendHeader (c : CmdFrom) (s : State) : Host.Outcome State Fault Refusal := done s (s.commandNow c 3)

/-- CMD_SEND_CFG1: command 0x0004 returns CFG-1 (R284). -/
def execCmdSendCfg1 (c : CmdFrom) (s : State) : Host.Outcome State Fault Refusal := done s (s.commandNow c 4)

/-- CMD_SEND_CFG2: command 0x0005 returns CFG-2 (R284). -/
def execCmdSendCfg2 (c : CmdFrom) (s : State) : Host.Outcome State Fault Refusal := done s (s.commandNow c 5)

/-- CMD_SEND_CFG3: command 0x0006 returns CFG-3 (R284). -/
def execCmdSendCfg3 (c : CmdFrom) (s : State) : Host.Outcome State Fault Refusal := done s (s.commandNow c 6)

/-- CMD_EXTENDED_FRAME: command 0x0008 is ignored and counted in CMD_IGN (R284). -/
def execCmdExtendedFrame (c : CmdFrom) (s : State) : Host.Outcome State Fault Refusal := done s (s.commandNow c 8)

/-- The first grid point of DIV at or after a grid point. -/
def gridUp (f div : Nat) (g : Nat × Nat) : Nat × Nat := gridStep f g ((div - g.2 % div) % div)

/-- The reporting instant that ends the period of a command: its grid point (R285). -/
def State.periodOf (s : State) (c : PubCmd) : Nat × Nat :=
  let f := s.rate
  let div := max 1 (s.eff (OST_DIV c.o))
  let g := gridOf f (c.stamp / 16)
  gridUp f div (if c.stamp ≤ 16 * gridNs f g then g else gridStep f g 1)

/-- The period that resolves next: its end and stream. -/
def State.nextPeriod (s : State) : Option (Nat × Nat × (Nat × Nat)) :=
  s.pub.cmds.foldl (fun a c =>
    let g := s.periodOf c
    let t := gridNs s.rate g
    match a with
    | none => some (t, c.o, g)
    | some b => if t < b.1 ∨ (t = b.1 ∧ c.o < b.2.1) then some (t, c.o, g) else some b) none

/-- The last of some commands by their arrival stamps. -/
def lastCmd (cs : List PubCmd) : Option PubCmd :=
  cs.foldl (fun a c => match a with
    | none => some c
    | some b => if b.stamp ≤ c.stamp then some c else some b) none

/-- The commands of a stream's period are resolved (R286): the result and the rule, 0 for the last command received. -/
def State.resolve (s : State) (o : Nat) (cs : List PubCmd) : Bool × Nat :=
  let own := cs.filter (fun c => s.is (OST_OWNER_EN o) && c.ip == s.rd (OST_OWNER_IP o))
  match lastCmd own with
  | some c => (c.on, 1)
  | none =>
    if cs.any (fun c => c.on) && cs.any (fun c => !c.on) then (false, 2)
    else (((lastCmd cs).map (fun c => c.on)).getD false, 0)

/-- The number of different clients. -/
def clientsOf (cs : List PubCmd) : Nat :=
  (cs.foldl (fun (l : List Nat) c => if l.contains c.ip then l else c.ip :: l) []).length

/-- The period's result takes effect for later slots. -/
def State.resolvePeriod (s : State) (o t : Nat) (g : Nat × Nat) : State :=
  let mine := s.pub.cmds.filter (fun c => c.o == o && s.periodOf c == g)
  let (on, rule) := s.resolve o mine
  let s : State := { s with pub := { s.pub with cmds := s.pub.cmds.filter (fun c => !(c.o == o && s.periodOf c == g)) } }
  let s := if rule = 0 then s else (s.cnt (OST_CONFLICT o)).ev 0x2103 o (b2n on) rule (clientsOf mine)
  if b2n on = s.rd (OST_TXON o) then s
  else
    let first := gridNs s.rate (gridStep s.rate g (max 1 (s.eff (OST_DIV o))))
    (s.setTxon o t on).ev 0x2102 o (b2n on) (first / 1000000000) (first % 1000000000)

/-- COMMAND_PERIOD_RESOLVE: the reporting period that ends first is resolved once its end has come and no frame stamped at
or before it waits unread (R285, R286). -/
def execCommandPeriodResolve (s : State) : Host.Outcome State Fault Refusal :=
  done s (if !(s.up && s.on 2) || s.rate == 0 then s
    else
      match s.nextPeriod with
      | none => s
      | some (t, o, g) =>
        let s := s.advanceTo (t * nsU)
        if s.backlogClear (16 * t) then s.resolvePeriod o t g else s)

/-- TCP_SESSION_IDLE: session `k`, idle for PUB_TCP.IDLE s, is closed (R284). -/
def execTcpSessionIdle (k : Nat) (s : State) : Host.Outcome State Fault Refusal :=
  done s (if !(s.up && s.on 2) || s.rd PUB_TCP_IDLE == 0 then s
    else
      match nth (s.pub.sessions.map some) k none with
      | none => s
      | some x =>
        let s := s.waitUntil (x.lastAt + s.rd PUB_TCP_IDLE * secU)
        let s : State := { s with pub := { s.pub with sessions := s.pub.sessions.take k ++ s.pub.sessions.drop (k + 1) } }
        s.sessStat)

end Sys2Proof.Machine
end

