-- ==== Sys2Proof/Machine/Capture.lean ====
section
/-! DEFINITION. Capture, the slot archive and the software jobs of the Elision engine (R317–R332). What the spec leaves
open here: DEDUCED, log 26, log 27. -/

namespace Sys2Proof.Machine

/-! ### Partitions (R317) -/

/-- The ten partition sizes in the registers, in MiB: capture, archive, work areas 0–7. -/
def partFields : List Field := CAP_PART_CAP_MIB :: CAP_PART_ARC_MIB :: (List.range 8).map (fun w => CAP_PART_WA_MIB w)

/-- Sizes in force of partition `p` as HST_DP_SEL numbers it, in bytes. -/
def State.partSize (s : State) (p : Nat) : Nat := nth s.cap.parts p 0 * 1048576

/-- First DRAM byte of partition `p`. -/
def State.partBase (s : State) (p : Nat) : Nat :=
  0x20000000 + ((List.range p).map (fun i => s.partSize i)).foldl (fun a b => a + b) 0

/-- Writes a byte string into a ring partition, round its end; a request opens the gate of the DRAM PHY (R76). -/
def State.ringWrite (s : State) (p off : Nat) (bs : List Byte) : State :=
  let s := s.gateOpen 17
  let n := s.partSize p
  let first := bs.take (n - off)
  (s.dramWrite (s.partBase p + off) first).dramWrite (s.partBase p) (bs.drop first.length)

/-- CAP_PART_WRITE: a partition size takes effect at the next reset; a set of sizes above 7,680 MiB is refused (R317). -/
def execCapPartWrite (m : Master) (addr v : Nat) (s : State) : Host.Outcome State Fault Refusal :=
  done s (match partFields.find? (fun f => f.addr == addr) with
    | none => s
    | some f => s.accessW m addr v (fun s =>
        let new := s.wr f v
        let sum := (partFields.map (fun g => new.rd g)).foldl (fun a b => a + b) 0
        if 7680 < sum then s.ev 0x9040 addr v sum (mNum m) else new))

/-! ### The capture ring (R318–R328) -/

/-- CAP_CFG.MODE in force while PD6 is on; 0 otherwise. -/
def State.capMode (s : State) : Nat := if s.on 6 then s.rd CAP_CFG_MODE else 0

/-- Output instants per second (R155). -/
def State.acqRate (s : State) : Nat := if s.is ACQ_CFG_RATE then 24000 else 12000

/-- The channels stored. -/
def State.capChans (s : State) : List Nat := (List.range 192).filter (fun c => bit (s.rd (CAP_CHMASK_MASK (c / 32))) (c % 32) == 1)

/-- CAP_STAT follows the captures. -/
def State.capStat (s : State) : State :=
  let used := s.cap.capts.filter (fun c => c.state != 0)
  let s := s.wr CAP_STAT_FILLING (b2n (used.any (fun c => c.state == 1)))
  let s := s.wr CAP_STAT_CAPTS used.length
  let s := s.wr CAP_STAT_RUN (b2n (s.capMode != 0 && s.cap.deadFrom.isNone))
  s.each (List.range 64) (fun s i =>
    let c := nth s.cap.capts i ⟨0, false, false, 0, 0, 0, 0, 0, 0, 0, 0, none⟩
    let s := ((s.wr (CAP_CAPT_W0_STATE i) c.state).wr (CAP_CAPT_W0_SHORTPRE i) (b2n c.short)).wr (CAP_CAPT_W0_TRUNC i) (b2n c.trunc)
    (((s.wr (CAP_CAPT_W0_TRIG i) c.trig).wr (CAP_CAPT_W1_START i) (c.start / 8)).wr (CAP_CAPT_W2_MARK i) (c.mark / 8)).wr
      (CAP_CAPT_W3_END i) (if c.state = 2 then c.fin / 8 else 0))

def State.capt (s : State) (i : Nat) : CaptureDesc := nth s.cap.capts i ⟨0, false, false, 0, 0, 0, 0, 0, 0, 0, 0, none⟩

def State.setCapt (s : State) (i : Nat) (c : CaptureDesc) : State := { s with cap := { s.cap with capts := setNth s.cap.capts i c } }

/-- A descriptor is freed (R324). -/
def State.captFree (s : State) (i : Nat) : State := s.setCapt i ⟨0, false, false, 0, 0, 0, 0, 0, 0, 0, 0, none⟩

/-- The capture that a record belongs to. -/
def State.captOf (s : State) (r : CapRec) : Option Nat :=
  (List.range 64).find? (fun i =>
    let c := s.capt i
    c.state != 0 && !laterSerial c.startSeq r.bseq && (c.state == 1 || laterSerial c.finSeq r.bseq))

/-- The flags of event 0x9002: bit 0 SHORTPRE, bit 1 TRUNC. -/
def CaptureDesc.flags (c : CaptureDesc) : Nat := b2n c.short + 2 * b2n c.trunc

/-- A filling capture completes at the current write position (R322); a release that waits for it takes effect. -/
def State.captDone (s : State) (i : Nat) (trunc : Bool) : State :=
  let c := s.capt i
  let c := { c with state := 2, fin := s.cap.wp, finSeq := s.rd CAP_BSEQ_SEQ, trunc := c.trunc || trunc }
  let s := (s.setCapt i c).ev 0x9002 i (c.start / 8) (c.fin / 8) c.flags
  match c.relWait with
  | none => s.capStat
  | some m => ((s.captFree i).ev 0x9004 i m 0 0).capStat

/-- What makes room for a record: the records dropped, captures freed by overrun, a filling capture truncated, or the
writer blocked; `none` when the ring is blocked (R324). -/
def State.capRoom (fuel need : Nat) (s : State) : Option (State × List CapRec) :=
  match fuel with
  | 0 => none
  | f + 1 =>
    let used := s.cap.recs.foldl (fun a r => a + r.len) 0
    if used + need ≤ s.partSize 0 then some (s, [])
    else
      match s.cap.recs with
      | [] => none
      | r :: rest =>
        let drop (s : State) : Option (State × List CapRec) :=
          let s : State := { s with cap := { s.cap with recs := rest } }
          (State.capRoom f need s).map (fun p => (p.1, r :: p.2))
        if s.capMode ≠ 1 then drop s
        else
          match s.captOf r with
          | none => drop s
          | some i =>
            if (s.capt i).state = 1 then State.capRoom f need (s.captDone i true)
            else if s.is CAP_CFG_OVERRUN then
              let c := s.capt i
              State.capRoom f need ((s.captFree i).ev 0x9006 i (c.start / 8) (c.fin / 8) 0).capStat
            else none

/-- The bytes of a record. -/
def capBytes (bseq typ flags epoch sec ns : Nat) (body : List Byte) : List Byte :=
  let n := 24 + body.length
  let len := (n + 7) / 8 * 8
  leBytes 4 bseq ++ [toByte typ, toByte flags] ++ leBytes 2 epoch ++ leBytes 4 len ++ leBytes 6 sec ++ zeros 2 ++ leBytes 4 ns
    ++ body ++ zeros (len - n)

/-- This instant, for a record that carries it later. -/
def State.deadHere (s : State) : DeadTime := ⟨s.tai, s.epoch, s.mono⟩

/-- `n` records are lost, the first with BSEQ `first`: a loss record is to name them (R318 type 0x06, R326, R328). -/
def State.capLose (s : State) (n first : Nat) : State :=
  let none0 := s.cap.lostN == 0
  { s with cap := { s.cap with lostN := s.cap.lostN + n, lostFirst := if none0 then first else s.cap.lostFirst, lostAt := if none0 then some s.deadHere else s.cap.lostAt } }

/-- A record goes out in a datagram of its own in MODE 0b11 (R327). -/
def State.capDatagram (s : State) (bs : List Byte) : State :=
  if s.capMode ≠ 3 then s
  else
    let n := s.rd CAP_NET_PORT
    let pl := [0x47, 0x4B, 0x43, 0x53] ++ leBytes 8 s.serialNo ++ bs
    let ip := s.rd CAP_NET_IP_IP
    let mac := if ip / 2 ^ 28 = 14 then multicastMac ip else Config.arp ip % 2 ^ 48
    let fr := udpFrame mac none 0 64 (s.rd (PUB_SRCIP_IP n)) ip (s.rd CAP_NET_UDP_SRC) (s.rd CAP_NET_UDP_DST) pl
    if s.on 2 && s.txOpen n && s.txRoom n 3 fr.length then s.txOffer n ⟨3, fr, false, false⟩
    else
      let s := s.cnt CAP_NETDROP_COUNT
      (s.ev 0x9012 1 (leAt bs 0 4) 2 0).capLose 1 (leAt bs 0 4)

/-- The mark that opened a filling capture has been written at `off`: its descriptor takes the place (R322). -/
def State.markPlaced (s : State) (typ off : Nat) (body : List Byte) : State :=
  let i := byteAt body 2
  if typ ≠ 3 ∨ 64 ≤ i ∨ byteAt body 3 % 4 ≠ 0 then s
  else if (s.capt i).state = 1 then s.setCapt i { s.capt i with mark := off } else s

/-- Writes a record whose place is free. -/
def State.capAppend (s : State) (typ codedFlag epoch sec ns : Nat) (body : List Byte) (blk : Option (Nat × Nat × Nat)) : State :=
  let seq := s.rd CAP_BSEQ_SEQ
  let bs := capBytes seq typ (codedFlag + 2 * b2n s.cap.restart) epoch sec ns body
  let off := s.cap.wp
  let p := s.partSize 0
  let s := s.ringWrite 0 off bs
  let (bsec, first, count) := blk.getD (sec, 0, 0)
  let wp := if p = 0 then 0 else (off + bs.length) % p
  let s : State := { s with cap := { s.cap with wp := wp, restart := false, recs := s.cap.recs ++ [⟨off, bs.length, seq, typ, bsec, first, count⟩] } }
  (((s.wr CAP_BSEQ_SEQ (seq + 1)).wr CAP_WRPTR_LO_OFS (wp / 8)).markPlaced typ off body).capDatagram bs

/-- In MODE 0b10 unread records passed over move the read pointer and are counted (R326). -/
def State.capLost (s : State) (gone : List CapRec) : State :=
  let rp := s.rd CAP_RDPTR_LO_OFS * 8
  -- the unread records are those from the read pointer on
  let unread := gone.dropWhile (fun r => r.off != rp)
  match unread with
  | [] => s
  | r :: _ =>
    let next := match s.cap.recs with
      | x :: _ => x.off
      | [] => s.cap.wp
    let s := (s.wr CAP_RDPTR_LO_OFS (next / 8)).cntN CAP_LOSTREC_COUNT unread.length
    (s.ev 0x9012 unread.length r.bseq 1 0).capLose unread.length r.bseq

/-- Dead time begins (R328). -/
def State.deadBegin (s : State) (cause : Nat) : State :=
  if s.cap.deadFrom.isSome then s
  else
    let s : State := { s with cap := { s.cap with deadFrom := some s.deadHere, deadCause := cause, deadInst := 0 } }
    let s := if cause = 1 then s.wr CAP_STAT_BLOCKED 1 else s
    (s.ev 0x9010 cause 0 0 0).capStat

/-- Bytes a staged record takes. -/
def CapPend.size (p : CapPend) : Nat := 32 + p.body.length

/-- The staging SRAM has room for a record. -/
def State.stageRoom (s : State) (p : CapPend) : Bool := decide ((s.cap.staged.foldl (fun a x => a + x.size) 0) + p.size ≤ 524288)

def State.stagePut (s : State) (p : CapPend) : State := { s with cap := { s.cap with staged := s.cap.staged ++ [p] } }

/-- A record kept in the staging SRAM while nothing can be written; lost when the SRAM is full (R328). -/
def State.capStage (s : State) (p : CapPend) : State :=
  if s.stageRoom p then s.stagePut p else (s.cnt CAP_LOSTREC_COUNT).capLose 1 (s.rd CAP_BSEQ_SEQ)

/-- Writes one record, or finds the ring blocked. -/
def State.capTry (s : State) (typ coded epoch sec ns : Nat) (body : List Byte) (blk : Option (Nat × Nat × Nat)) : Option State :=
  let need := (24 + body.length + 7) / 8 * 8
  match State.capRoom (s.cap.recs.length + 200) need s with
  | none => none
  | some (s, gone) =>
    let s := s.capAppend typ coded epoch sec ns body blk
    some (if s.capMode = 2 then s.capLost gone else s)

/-- The loss record that follows a loss (R318 type 0x06). -/
def State.capLossRecord (s : State) : State :=
  if s.cap.lostN = 0 then s
  else
    let body := leBytes 4 s.cap.lostN ++ leBytes 4 s.cap.lostFirst
    let t := s.cap.lostAt.getD s.deadHere
    let clean : State := { s with cap := { s.cap with lostN := 0, lostFirst := 0, lostAt := none } }
    match clean.capTry 6 0 t.epoch (secOf t.tai) (nsOf t.tai) body none with
    | some s' => s'
    | none => s

/-- A filling capture whose last instant lies in a written block completes (R322). -/
def State.captCheck (s : State) (sec first count : Nat) : State :=
  s.each (List.range 64) (fun s i =>
    let c := s.capt i
    if c.state = 1 ∧ (c.lastSec < sec ∨ (c.lastSec = sec ∧ c.lastN < first + count)) then s.captDone i false else s)

/-- A record has been written: of a sample block, captures follow; and a loss record where records were lost. -/
def State.capWritten (s : State) (p : CapPend) : State :=
  let s := match p.blk with
    | some (sec, first, count) => s.captCheck sec first count
    | none => s
  s.capLossRecord

/-- A record that is not to be written now: a sample block in dead time adds to the instants lost, any other record is staged. -/
def State.capMissed (s : State) (p : CapPend) : State :=
  match p.blk with
  | some (_, _, count) => { s with cap := { s.cap with deadInst := s.cap.deadInst + count } }
  | none => s.capStage p

/-- A record of the capture ring is written; in dead time it is staged, or lost as a block. While the DRAM is in self-refresh it waits in
the staging SRAM, whose filling by a sample block is dead time of cause 2 (R71, R320, R321, R328; DEDUCED, log 26). -/
def State.capPut (s : State) (p : CapPend) : State :=
  if s.capMode = 0 then s
  else if s.cap.deadFrom.isSome then s.capMissed p
  else if s.rd CLK_STAT_STATE = 1 then
    if s.stageRoom p then s.stagePut p else if p.blk.isSome then (s.deadBegin 2).capMissed p else s.capStage p
  else
    match s.capTry p.typ p.coded p.epoch p.sec p.ns p.body p.blk with
    | some s => s.capWritten p
    | none => (s.deadBegin 1).capMissed p

/-- A record other than a sample block (R320, R321). -/
def State.capRecord (s : State) (typ epoch sec ns : Nat) (body : List Byte) : State := s.capPut ⟨typ, 0, epoch, sec, ns, body, none⟩

/-- What was staged is written. -/
def State.capUnstage (s : State) : State :=
  let staged := s.cap.staged
  ({ s with cap := { s.cap with staged := [] } } : State).each staged (fun s p => s.capPut p)

/-- Dead time ends: its record, then what was staged (R328). -/
def State.deadEnd (s : State) : State :=
  match s.cap.deadFrom with
  | none => s
  | some t =>
    if s.rd CLK_STAT_STATE = 1 then s
    else
      let us := (s.mono - t.mono) / (1000 * nsU)
      let body := [toByte s.cap.deadCause] ++ zeros 3 ++ leBytes 4 us ++ leBytes 4 s.cap.deadInst
      match s.capTry 5 0 t.epoch (secOf t.tai) (nsOf t.tai) body none with
      | none => s
      | some s =>
        let s := (s.cntN CAP_DEADTIME_US us).ev 0x9011 s.cap.deadCause us s.cap.deadInst 0
        let s : State := { s with cap := { s.cap with deadFrom := none } }
        ((s.wr CAP_STAT_BLOCKED 0).capStat).capUnstage

/-- Dead time ends because nothing belongs in the ring any more (MODE 0): it is counted and reported, and no record is written. -/
def State.deadDrop (s : State) : State :=
  match s.cap.deadFrom with
  | none => s
  | some t =>
    let us := (s.mono - t.mono) / (1000 * nsU)
    let s := (s.cntN CAP_DEADTIME_US us).ev 0x9011 s.cap.deadCause us s.cap.deadInst 0
    let s : State := { s with cap := { s.cap with deadFrom := none, staged := [] } }
    s.wr CAP_STAT_BLOCKED 0

/-! ### Sample blocks (R319) -/

/-- Instants of a block in force. -/
def State.blkInst (s : State) : Nat :=
  let n := s.eff CAP_CFG_BLK_INST
  if s.capMode = 3 then max 1 (min n (8000 / (4 * s.capChans.length + 2))) else n

/-- The body of a sample block before its data. -/
def State.blockHead (s : State) (b : CapBlock) : List Byte :=
  leBytes 4 b.first ++ leBytes 2 b.insts.length ++ [toByte s.capChans.length, 0]
    ++ (List.range 6).flatMap (fun i => leBytes 4 (s.rd (CAP_CHMASK_MASK i))) ++ b.insts.flatMap (fun x => leBytes 2 x.1)

/-- The sample words of a block. -/
def blockData (b : CapBlock) : List Byte := b.insts.flatMap (fun x => x.2.flatMap (fun w => leBytes 4 w))

/-- A sample block is written whole (R319). -/
def State.blockWrite (s : State) (b : CapBlock) (coded : Option (List Byte)) : State :=
  s.capPut ⟨1, b2n coded.isSome, b.epoch, b.sec, 0, s.blockHead b ++ coded.getD (blockData b), some (b.sec, b.first, b.insts.length)⟩

/-- The block being gathered ends: it goes to the Elision engine, or is written as it is (R319, R330). -/
def State.blockEnd (s : State) : State :=
  match s.cap.block with
  | none => s
  | some b =>
    let s : State := { s with cap := { s.cap with block := none } }
    if b.insts.isEmpty then s
    else if s.is CAP_CFG_CODE_EN then
      if s.elsRoom 4 then s.elsAdd (.block b)
      else ((s.cnt ELS_BYPASS_COUNT).ev 0x9032 4 (s.rd CAP_BSEQ_SEQ) 0 0).blockWrite b none
    else s.blockWrite b none

/-- An output instant is delivered: its number in its second, its 2-byte word, and the samples of all channels (R319). -/
def State.capSample (s : State) (sec n word : Nat) (samples : List Nat) : State :=
  if s.capMode = 0 then s
  else if s.cap.deadFrom.isSome then { s with cap := { s.cap with deadInst := s.cap.deadInst + 1 } }
  else
    let s := match s.cap.block with
      | some b => if b.sec = sec ∧ b.first / s.blkInst = n / s.blkInst then s else s.blockEnd
      | none => s
    let b := s.cap.block.getD ⟨sec, n, s.epoch, []⟩
    let b := { b with insts := b.insts ++ [(word, s.capChans.map (fun c => nth samples c 0))] }
    let s : State := { s with cap := { s.cap with block := some b } }
    if (n + 1) % s.blkInst = 0 ∨ n + 1 = s.acqRate then s.blockEnd else s

/-! ### Triggers (R321–R323) -/

/-- An instant `d` later. -/
def instAdd (rate : Nat) (p : Nat × Nat) (d : Int) : Nat × Nat :=
  let a : Int := (p.1 * rate + p.2 : Nat) + d
  let a := a.toNat
  if rate = 0 then p else (a / rate, a % rate)

/-- The order of instants. -/
def instLe (a b : Nat × Nat) : Bool := a.1 < b.1 || (a.1 == b.1 && decide (a.2 ≤ b.2))

/-- The capacity in instants (R325). -/
def State.capacity (s : State) : Nat :=
  let nch := s.capChans.length
  let b := s.blkInst
  let l := (24 + 32 + 2 * b + 4 * nch * b + 7) / 8 * 8
  let p := s.partSize 0
  b * ((p - p / 64) / l - 1)

def State.preEff (s : State) : Nat := min (s.rd CAP_PRE_PRE) s.capacity
def State.postEff (s : State) : Nat := min (s.rd CAP_POST_POST) (s.capacity - s.preEff)

/-- What a firing brings: kind 1 definition, 2 own direct source, 3 manual; definition; trigger time in ns and its epoch; instant and
fraction. -/
structure Firing where
  kind : Nat
  dfn : Nat
  t : Nat
  ep : Nat
  n0 : Nat × Nat
  frac : Nat

/-- The body of a trigger mark. -/
def markBody (t : Nat) (f : Firing) (capt mflags : Nat) : List Byte :=
  [toByte t, toByte f.kind, toByte capt, toByte mflags] ++ leBytes 2 f.dfn ++ [toByte f.frac, 0] ++ leBytes 4 f.n0.2 ++ leBytes 4 f.n0.1

/-- Writes a mark (R321). -/
def State.markWrite (s : State) (t : Nat) (f : Firing) (capt mflags : Nat) : State :=
  (s.capRecord 3 f.ep (f.t / 1000000000) (f.t % 1000000000) (markBody t f capt mflags)).cnt CAP_TRIGS_COUNT

/-- Trigger `t` fires (R321–R323). -/
def State.fire (s : State) (t : Nat) (f : Firing) : State :=
  if s.capMode = 0 ∨ !s.is (CAP_TRIG_CFG_EN t) then s
  else
    let filling := (List.range 64).find? (fun i => (s.capt i).state == 1)
    if s.capMode ≠ 1 then s.markWrite t f 0xFF 2
    else
      match filling with
      | some i =>
        if (List.range 64).any (fun k => (s.capt k).state == 0) then s.markWrite t f i 1
        else ((s.markWrite t f i 3).cnt CAP_MISSED_COUNT).ev 0x9003 t 2 f.n0.1 f.n0.2
      | none =>
        match (List.range 64).find? (fun i => (s.capt i).state == 0) with
        | none => ((s.markWrite t f 0xFF 2).cnt CAP_MISSED_COUNT).ev 0x9003 t 1 f.n0.1 f.n0.2
        | some i =>
          let r := s.acqRate
          let a := instAdd r f.n0 (-(s.preEff : Int))
          let z := instAdd r f.n0 ((s.postEff : Int) - 1)
          let blocks := s.cap.recs.filter (fun x => x.typ == 1)
          let hit := blocks.find? (fun x => decide (a.1 < x.sec) || (a.1 == x.sec && decide (a.2 < x.first + x.count)))
          let older := match blocks, s.cap.block with
            | x :: _, _ => !instLe (x.sec, x.first) a
            | [], some b => !instLe (b.sec, b.first) a
            | [], none => true
          let (st, sq) := match hit with
            | some x => (x.off, x.bseq)
            | none => (s.cap.wp, s.rd CAP_BSEQ_SEQ)
          let c : CaptureDesc := ⟨1, older, false, t, st, sq, s.cap.wp, 0, 0, z.1, z.2, none⟩
          let s := (s.setCapt i c).ev 0x9001 i t f.n0.1 f.n0.2
          let s := s.markWrite t f i (if older then 4 else 0)
          (match blocks.getLast? with
            | some x => s.captCheck x.sec x.first x.count
            | none => s).capStat

/-- The first instant at or after a TAI time in ns (R321). -/
def State.instAfter (s : State) (ns : Nat) : Nat × Nat :=
  let r := s.acqRate
  let n := (ns % 1000000000 * r + 999999999) / 1000000000
  if n < r then (ns / 1000000000, n) else (ns / 1000000000 + 1, 0)

/-- The last instant at or before a TAI time in ns. -/
def State.instBefore (s : State) (ns : Nat) : Nat × Nat := (ns / 1000000000, ns % 1000000000 * s.acqRate / 1000000000)

/-- MANUAL_TRIGGER: the triggers named in a write of CAP_TRIG_MAN fire, in ascending number (R321). -/
def execManualTrigger (m : Master) (mask : Nat) (s : State) : Host.Outcome State Fault Refusal :=
  done s (s.accessW m CAP_TRIG_MAN_FIRE.addr mask (fun s =>
    s.each (bitsSet 16 mask) (fun s t => s.fire t ⟨3, 0xFFFF, s.tai / nsU, s.epoch, s.instBefore (s.tai / nsU), 0⟩)))

/-- One capture is released, now or when it completes (R324). -/
def State.captRelease (s : State) (m : Master) (i : Nat) : State :=
  let c := s.capt i
  if c.state = 2 then ((s.captFree i).ev 0x9004 i (mNum m) 0 0).capStat
  else if c.state = 1 then s.setCapt i { c with relWait := some (mNum m) }
  else s

/-- CAPTURE_RELEASE: a write of CAP_REL frees a descriptor, or with 0x7F every COMPLETE one; freed space ends dead time of
cause 1 (R324). -/
def execCaptureRelease (m : Master) (c : Nat) (s : State) : Host.Outcome State Fault Refusal :=
  done s (s.accessW m CAP_REL_CAPT.addr c (fun s =>
    let c := c % 128
    let s := if c < 64 then s.captRelease m c
      else if c = 127 then s.each (List.range 64) (fun s i => if (s.capt i).state = 2 then s.captRelease m i else s) else s
    if s.cap.deadFrom.isSome && s.cap.deadCause == 1 then s.deadEnd else s))

/-- Clamps POST to the capacity (R325): `req` is the value asked for. -/
def State.postClamp (s : State) (req : Nat) : State :=
  let pre := min (s.rdBuf CAP_PRE_PRE) s.capacity
  if pre + req ≤ s.capacity then s.wrBuf CAP_POST_POST req
  else
    let v := s.capacity - pre
    ((s.wrBuf CAP_POST_POST v).wr CAP_STAT_CLAMPED 1).ev 0x9005 req v s.capacity 0

/-- CAP_POST_WRITE: a write to CAP_POST is clamped to the capacity less PRE; CLAMPED clears when no clamp is needed (R325). -/
def execCapPostWrite (m : Master) (v : Nat) (s : State) : Host.Outcome State Fault Refusal :=
  done s (s.accessW m CAP_POST_POST.addr v (fun s => (s.wr CAP_STAT_CLAMPED 0).postClamp (v % 2 ^ 32)))

/-- The read pointer takes a value that is the start of a record or the write position (R326). -/
def State.rdptrWrite (s : State) (m : Master) (a v : Nat) : State :=
  let off := v * 8
  if off = s.cap.wp ∨ s.cap.recs.any (fun r => r.off == off) then
    (s.wr CAP_RDPTR_LO_OFS (v % 2 ^ 32)).wr CAP_RDPTR_HI_OFS (v / 2 ^ 32)
  else
    let (k, s) := s.draw
    s.errResp m true 4 a (k % 16)

/-- CAP_RDPTR_WRITE: the host advances the read pointer, or the write is refused with an error response (R326). -/
def execCapRdptrWrite (m : Master) (lo hi : Option Nat) (s : State) : Host.Outcome State Fault Refusal :=
  done s (
    let s := match lo with
      | none => s
      | some v => s.accessW m CAP_RDPTR_LO_OFS.addr v (fun s => s.rdptrWrite m CAP_RDPTR_LO_OFS.addr (v % 2 ^ 32 + s.rd CAP_RDPTR_HI_OFS * 2 ^ 32))
    match hi with
    | none => s
    | some v => s.accessW m CAP_RDPTR_HI_OFS.addr v (fun s => s.rdptrWrite m CAP_RDPTR_HI_OFS.addr (s.rd CAP_RDPTR_LO_OFS + v % 2 ^ 32 * 2 ^ 32)))

/-- An uncorrectable error in the staging SRAM drops the block being gathered: dead time of cause 3 (R328). -/
def State.stagingUe (s : State) : State :=
  match s.cap.block with
  | none => s
  | some b =>
    let s : State := { s with cap := { s.cap with block := none } }
    let s := s.deadBegin 3
    let s : State := { s with cap := { s.cap with deadInst := s.cap.deadInst + b.insts.length } }
    s.deadEnd

/-! ### The archive (R329) -/

/-- The archive writes. -/
def State.arcOn (s : State) : Bool := s.on 6 && s.is ARC_CFG_EN

/-- Drops the oldest entries until an entry fits. -/
def arcRoom (need size : Nat) (l : List ArcEnt) : List ArcEnt :=
  match l with
  | [] => []
  | e :: rest => if (e.len + rest.foldl (fun a x => a + x.len) 0) + need ≤ size then e :: rest else arcRoom need size rest

/-- Writes one entry into the ring (R329). -/
def State.arcPut (s : State) (typ coded epoch serial sec ns : Nat) (body : List Byte) : State :=
  let size := s.partSize 1
  let len := (32 + body.length + 8 + 63) / 64 * 64
  if size < len then s
  else
    let kept := arcRoom len size s.cap.ents
    let prev := match s.cap.ents.getLast? with
      | some e => e.off / 8
      | none => 0xFFFFFFFF
    let a := s.cap.aseq
    let fr := leBytes 4 a ++ [toByte typ, toByte (coded + 2 * b2n s.cap.arestart)] ++ leBytes 2 epoch ++ leBytes 4 len ++ leBytes 4 prev
      ++ leBytes 4 serial ++ leBytes 6 sec ++ zeros 2 ++ leBytes 4 ns ++ body ++ zeros (len - 8 - 32 - body.length) ++ leBytes 4 a
    let fr := fr ++ leBytes 4 (crc32c fr)
    let off := s.cap.awp
    let s := s.ringWrite 1 off fr
    let ents := kept ++ [⟨off, len, a, typ, serial⟩]
    let s : State := { s with cap := { s.cap with ents := ents, awp := (off + len) % size, aseq := (a + 1) % 2 ^ 32, arestart := false } }
    let s := (s.wr ARC_NEWEST_OFS (off / 8)).wr ARC_NEWSEQ_ASEQ a
    let s := match ents with
      | e :: _ => s.wr ARC_OLDEST_OFS (e.off / 8)
      | [] => s
    (s.cnt ARC_WRITTEN_COUNT).cntPair ARC_BYTES_LO_COUNT ARC_BYTES_HI_COUNT len

/-- One entry is written; while the DRAM is in self-refresh it waits (R71, R329; DEDUCED, log 27). -/
def State.arcWrite (s : State) (typ coded epoch serial sec ns : Nat) (body : List Byte) : State :=
  if s.rd CLK_STAT_STATE = 1 then
    { s with cap := { s.cap with arcHeld := s.cap.arcHeld ++ [⟨typ, coded, epoch, serial, sec, ns, body⟩] } }
  else s.arcPut typ coded epoch serial sec ns body

/-- The DRAM has left self-refresh: what waited for it is written (R72, R73). -/
def State.dramBack (s : State) : State :=
  if !s.on 6 then s
  else
    let held := s.cap.arcHeld
    let s : State := { s with cap := { s.cap with arcHeld := [] } }
    let s := s.each held (fun s e => s.arcPut e.typ e.coded e.epoch e.serial e.sec e.ns e.body)
    if s.cap.deadFrom.isNone then s.capUnstage else if s.cap.deadCause = 1 then s else s.deadEnd

/-- The 327,680 bytes of a slot as every reader sees them (R186, R187). -/
def Slot.storeBytes (sl : Slot) : List Byte :=
  (List.range 32768).flatMap (fun p => leBytes 4 (sl.phAt p).1 ++ leBytes 4 (sl.phAt p).2)
    ++ (List.range 8192).flatMap (fun p => leBytes 4 (sl.anAt p))
    ++ (List.range 4096).flatMap (fun c => leBytes 2 (sl.colAt c).1)
    ++ (List.range 4096).flatMap (fun c => leBytes 2 (sl.colAt c).2.1)
    ++ (List.range 4096).flatMap (fun c => leBytes 2 (sl.colAt c).2.2.1 ++ leBytes 2 (sl.colAt c).2.2.2)

/-- The body of a slot entry: record, directory, store. -/
def Slot.arcBody (sl : Slot) : List Byte :=
  (List.range 20).flatMap (fun i => leBytes 4 (sl.word i)) ++ (List.range 4096).flatMap (fun c => leBytes 2 (sl.dirEntry c)) ++ sl.storeBytes

/-- The archive outlet's entry of a slot; a coded body goes through the Elision engine first. -/
def State.arcSlot (s : State) (sl : Slot) : State :=
  if !s.arcOn then (s.cnt ARC_SKIPPED_COUNT).ev 0x9020 sl.serial (if s.on 6 then 2 else 1) 0 0
  else if s.is ARC_CFG_CODE_EN then { s with cap := { s.cap with arcWait := some sl.serial } }
  else s.arcWrite 1 0 sl.epoch sl.serial (sl.t / 1000000000) (sl.t % 1000000000) sl.arcBody

/-- The waiting archive entry takes a place with the Elision engine when one is free. -/
def State.arcFeed (s : State) : State :=
  match s.cap.arcWait with
  | none => s
  | some n => if s.els.any (fun j => j.kind == .archive n) || !s.elsRoom 3 then s else s.elsAdd (.archive n)

/-- Late frames and discontinuities on their way to the archive are written (R200, R329); `port` received the frame. -/
def State.arcFlush (s : State) (port : Nat) : State :=
  let late := s.ccd.lateQ
  let disc := s.ccd.discQ
  let s : State := { s with ccd := { s.ccd with lateQ := [], discQ := [] } }
  if !s.arcOn then s
  else
    let s := s.each disc (fun s d => s.arcWrite 4 0 d.2.1 d.2.2.2.2 (d.1 / 1000000000) (d.1 % 1000000000)
      (leBytes 4 d.2.2.1 ++ [toByte d.2.2.2.1] ++ zeros 3))
    if !s.is ARC_CFG_LATE_EN then s
    else s.each late (fun s l =>
      let p := l.1
      let ns := p.stamp / 16
      s.arcWrite 2 0 p.epoch l.2.1 (ns / 1000000000) (ns % 1000000000)
        (leBytes 2 p.ctx ++ leBytes 2 p.col ++ [toByte port, toByte p.ph.length, toByte p.an.length, 0] ++ leBytes 4 l.2.2
          ++ leBytes 2 p.stat ++ leBytes 2 p.dig ++ leBytes 2 p.fq ++ leBytes 2 p.rc
          ++ p.ph.flatMap (fun e => leBytes 4 e.2.re ++ leBytes 4 e.2.im) ++ p.an.flatMap (fun e => leBytes 4 e.2.v)))

/-- ARCHIVE_FIND: a write of ARC_FIND starts a search for a serial (R329). -/
def execArchiveFind (m : Master) (serial : Nat) (s : State) : Host.Outcome State Fault Refusal :=
  done s (s.accessW m ARC_FIND_SERIAL.addr serial (fun s =>
    let s : State := { s with cap := { s.cap with find := some (serial % 2 ^ 32, s.mono + 200000 * nsU) } }
    (s.wr ARC_FIND_STAT_BUSY 1).wr ARC_FIND_STAT_FOUND 0))

/-- ARCHIVE_FIND_DONE: the search completes, and FOUND and the offset are set (R329). -/
def execArchiveFindDone (s : State) : Host.Outcome State Fault Refusal :=
  done s (match s.cap.find with
    | none => s
    | some (serial, due) =>
      if !s.on 6 then s
      else
        let s := s.waitUntil due
        let s := ({ s with cap := { s.cap with find := none } } : State).wr ARC_FIND_STAT_BUSY 0
        match s.cap.ents.find? (fun e => e.typ == 1 && e.serial == serial) with
        | some e => (s.wr ARC_FIND_STAT_FOUND 1).wr ARC_FIND_OFS_OFS (e.off / 8)
        | none => s.wr ARC_FIND_STAT_FOUND 0)

/-! ### Software jobs (R330, R332) -/

/-- The result fields of job block `k`. -/
def State.jobStat (s : State) (k busy dn paused err : Nat) : State :=
  (((s.wr (ELS_J_STAT_BUSY k) busy).wr (ELS_J_STAT_DONE k) dn).wr (ELS_J_STAT_PAUSED k) paused).wr (ELS_J_STAT_ERR k) err

/-- A software job takes a place, or is refused with ERR 9. -/
def State.jobQueue (s : State) (k : Nat) : State :=
  if s.elsRoom 5 then (s.jobStat k 1 0 0 0).elsAdd (.soft k) else s.jobStat k 0 0 0 9

def State.jobSrc (s : State) (k : Nat) : Nat := s.rd (ELS_J_SRC_LO_OFS k) + s.rd (ELS_J_SRC_HI_OFS k) * 2 ^ 32
def State.jobDst (s : State) (k : Nat) : Nat := s.rd (ELS_J_DST_LO_OFS k) + s.rd (ELS_J_DST_HI_OFS k) * 2 ^ 32

/-- A job block's command address. -/
def jobAddr (m : Master) : Nat := (ELS_J_CMD_CMD (mNum m)).addr

/-- ELS_JOB_START: a compress or decompress job is queued, one of length 0 completes at once; ignored while BUSY or
PAUSED (R332). -/
def execElsJobStart (m : Master) (s : State) : Host.Outcome State Fault Refusal :=
  let k := mNum m
  done s (s.accessW m (jobAddr m) 1 (fun s =>
    if s.is (ELS_J_STAT_BUSY k) || s.is (ELS_J_STAT_PAUSED k) then s
    else
      let op := s.rd (ELS_J_OP_OP k)
      let s := ((s.wr (ELS_J_INDONE k) 0).wr (ELS_J_OUTLEN k) 0).wr (ELS_J_CRC k) 0
      if op ≠ 1 ∧ op ≠ 2 then s.jobStat k 0 0 0 8
      else if s.rd (ELS_J_OP_DST_PART k) < 2 then s.jobStat k 0 0 0 2
      else if s.rd (ELS_J_LEN_LEN k) = 0 then (s.jobStat k 0 1 0 0).cnt ELS_JOBS_COUNT
      else s.jobQueue k))

/-- ELS_JOB_RESUME: a paused job is queued again from its boundary (R332). -/
def execElsJobResume (m : Master) (s : State) : Host.Outcome State Fault Refusal :=
  let k := mNum m
  done s (s.accessW m (jobAddr m) 2 (fun s => if s.is (ELS_J_STAT_PAUSED k) then s.jobQueue k else s))

/-- ELS_JOB_CANCEL: a queued, running or paused job ends with ERR 7 (R332). -/
def execElsJobCancel (m : Master) (s : State) : Host.Outcome State Fault Refusal :=
  let k := mNum m
  done s (s.accessW m (jobAddr m) 3 (fun s =>
    if s.is (ELS_J_STAT_BUSY k) || s.is (ELS_J_STAT_PAUSED k) then
      let s : State := { s with els := elsStart (s.els.filter (fun j => j.kind != .soft k)) }
      (s.jobStat k 0 1 0 7).elsStat
    else s))

/-- The blocks of a software job from its boundary: how it ends, 0 complete, 10 paused, else its ERR, with input and output
done. -/
def State.jobRun (fuel k : Nat) (inD outD : Nat) (s : State) : State × Nat × Nat × Nat :=
  match fuel with
  | 0 => (s, 0, inD, outD)
  | f + 1 =>
    let len := s.rd (ELS_J_LEN_LEN k)
    if len ≤ inD then (s, 0, inD, outD)
    else
      let sp := s.rd (ELS_J_OP_SRC_PART k)
      let dp := s.rd (ELS_J_OP_DST_PART k)
      let src := s.dramRead (s.partBase sp + s.jobSrc k + inD) (min (len - inD) (if s.rd (ELS_J_OP_OP k) = 1 then 1048576 else len - inD))
      let r : (List Byte × Nat) ⊕ Nat :=
        if s.rd (ELS_J_OP_OP k) = 1 then .inl (elsBlock (s.rd (ELS_J_OP_LEVEL k)) false src, src.length)
        else
          match elsDecode src with
          | .inl (o, rest) => .inl (o, src.length - rest.length)
          | .inr e => .inr e
      match r with
      | .inr e => (s, e, inD, outD)
      | .inl (out, used) =>
        if s.rd (ELS_J_DSTCAP_CAP k) < outD + out.length then (s, 10, inD, outD)
        else if s.partSize dp < s.jobDst k + outD + out.length then (s, 1, inD, outD)
        else State.jobRun f k (inD + used) (outD + out.length) (s.dramWrite (s.partBase dp + s.jobDst k + outD) out)

/-- The destination bytes that a failed job wrote are undefined (R332): free values. -/
def State.jobScrap (s : State) (a n : Nat) : State :=
  let bs := (List.range n).map (fun i => toByte (Config.freeValue (s.free + i)).toNat)
  ({ s with free := s.free + n } : State).dramWrite a bs

/-- A software job runs to its end (R332). -/
def State.jobEnd (s : State) (k : Nat) (ue : Bool) : State :=
  let s := s.elsLeave (.soft k)
  let sp := s.rd (ELS_J_OP_SRC_PART k)
  let len := s.rd (ELS_J_LEN_LEN k)
  let i0 := s.rd (ELS_J_INDONE k)
  let o0 := s.rd (ELS_J_OUTLEN k)
  let (s, how, i, o) :=
    if ue then (s, 6, i0, o0)
    else if s.partSize sp < s.jobSrc k + len then (s, 1, i0, o0)
    else State.jobRun (len + 1) k i0 o0 (s.gateOpen 17)
  let s := (if how = 10 then s else s.cnt ELS_JOBS_COUNT).elsCount (i - i0) (o - o0)
  if how = 0 then
    let s := (s.wr (ELS_J_INDONE k) i).wr (ELS_J_OUTLEN k) o
    let s := s.jobStat k 0 1 0 0
    if len = 0 then s.wr (ELS_J_CRC k) 0
    else if s.rd (ELS_J_OP_OP k) = 2 then
      s.wr (ELS_J_CRC k) (crc32c (s.dramRead (s.partBase (s.rd (ELS_J_OP_DST_PART k)) + s.jobDst k) o))
    else
      let (v, s) := s.draw
      s.wr (ELS_J_CRC k) (v % 2 ^ 32)
  else if how = 10 then
    (((s.wr (ELS_J_INDONE k) i).wr (ELS_J_OUTLEN k) o).jobStat k 0 0 1 0).ev 0x9031 k i o 0
  else
    let s := s.jobScrap (s.partBase (s.rd (ELS_J_OP_DST_PART k)) + s.jobDst k) o
    ((((s.wr (ELS_J_INDONE k) i).wr (ELS_J_OUTLEN k) 0).jobStat k 0 1 0 how).cnt ELS_FAIL_COUNT).ev 0x9030 5 how ((s.jobSrc k + i) % 2 ^ 32) k

/-- The archive entry of a slot comes back from the Elision engine. -/
def State.arcCoded (s : State) (serial : Nat) (ue : Bool) : State :=
  match s.bySerial serial with
  | none => { s with cap := { s.cap with arcWait := none } }
  | some (_, sl) =>
    let blk := elsBlock (s.rd ARC_CFG_LEVEL) ue sl.arcBody
    let s := s.elsCount sl.arcBody.length blk.length
    let s := if s.arcOn then s.arcWrite 1 1 sl.epoch sl.serial (sl.t / 1000000000) (sl.t % 1000000000) blk
      else (s.cnt ARC_SKIPPED_COUNT).ev 0x9020 serial (if s.on 6 then 2 else 1) 0 0
    { s with cap := { s.cap with arcWait := none } }

/-- ELISION_JOB_END: a job that needs the DRAM waits while it is in self-refresh (R71). The job that is due ends: an encode for publication, archive or capture hands its block on, stored when
its input met an uncorrectable error; a software job completes, pauses or fails (R332). -/
def execElisionJobEnd (ue : Bool) (s : State) : Host.Outcome State Fault Refusal :=
  done s (if !s.on 6 then s
    else
      match s.elsCurrent with
      | none => s
      | some .decode => s
      | some (.frame x) =>
        let s := s.elsEnd (.frame x)
        let s := if ue then s.ev 0x9030 2 6 0 0xFF else s
        (s.pubCoded x ue).codeFeed
      | some (.archive n) =>
        if s.rd CLK_STAT_STATE = 1 then s else
        let s := s.elsEnd (.archive n)
        let s := if ue then s.ev 0x9030 3 6 0 0xFF else s
        s.arcCoded n ue
      | some (.block b) =>
        let s := s.elsEnd (.block b)
        let s := if ue then s.ev 0x9030 4 6 0 0xFF else s
        let blk := elsBlock (s.rd CAP_CFG_LEVEL) ue (blockData b)
        (s.elsCount (blockData b).length blk.length).blockWrite b (some blk)
      | some (.soft k) => if s.rd CLK_STAT_STATE = 1 then s else s.jobEnd k ue)

end Sys2Proof.Machine
end

