-- ==== Sys2Proof/Machine/Pair.lean ====
section
/-! DEFINITION. The Zorper link, the exchange of claims and the health reports of the audit (R349–R355, R359). What the
spec leaves open here: DEDUCED, log 30. -/

namespace Sys2Proof.Machine

/-- RED_SETCRC: of the CCD, ANA and PUB values in force and the column words (R350). -/
def State.setCrc (s : State) : Nat := (Config.setCrc (genSnap s.regs)).toNat

/-- The link is enabled and its units are powered (PD2). -/
def State.zlOn (s : State) : Bool := s.up && s.on 2 && s.pairEn

/-! ### The link (R350) -/

/-- The link comes up after 64 good cells of a partner. -/
def State.zlUp (s : State) (c : ZlCell) : State :=
  let s := s.wr RED_STAT_ONE_LANE (b2n (s.red.laneBad != 0))
  let s := (((s.wr RED_STAT_LINK 1).wr RED_PSN_LO_SERIAL c.serial).wr RED_PSN_HI_SERIAL (c.serial / 2 ^ 32)).wr RED_PARTNER_CLAIM c.claim
  let s : State := { s with red := { s.red with lastCellAt := s.mono, partnerCrc := c.setcrc % 2 ^ 32 }, ing := { s.ing with decided := [] } }
  let s := s.ev 0xB001 c.serial c.claim (2 - popCount 2 s.red.laneBad) 0
  let own := s.setCrc
  let s := s.wr RED_STAT_SETDIFF (b2n (own != s.red.partnerCrc))
  let s := if own = s.red.partnerCrc then s else s.ev 0xB004 own s.red.partnerCrc 0 0
  s.driveCompare.sendDecisions

/-- The link goes down: reason 1 timeout, 2 both lanes failed. -/
def State.zlDown (s : State) (reason : Nat) : State :=
  if !s.is RED_STAT_LINK then s
  else
    let s := ((s.wr RED_STAT_LINK 0).wr RED_STAT_ONE_LANE 0).wr RED_PARTNER_CLAIM 0
    let s : State := { s with red := { s.red with goodCells := 0, laneBad := 0, ackOut := none, decOut := [] } }
    (s.ev 0xB002 reason 0 0 0).driveCompare

/-- A good cell while the link is up: claim, acknowledgement and comparison (R353, R354). -/
def State.zlCell (s : State) (c : ZlCell) : State :=
  let s : State := { s with red := { s.red with lastCellAt := s.mono, ackOut := some (c.claim % 65536) } }
  let s := s.wr RED_PARTNER_CLAIM c.claim
  let s := if s.is RED_STAT_ACKWAIT && c.ack == some (s.rd RED_CLAIM_ANNOUNCED) then s.claimInForce (s.rd RED_CLAIM_ANNOUNCED) 1 else s
  s.driveCompare

/-- ZL_CONTROL_CELL: a control cell of the partner arrives (R349, R350, R353, R354). -/
def execZlControlCell (c : ZlCell) (s : State) : Host.Outcome State Fault Refusal :=
  done s (if !s.zlOn then s
    else if !c.crcOk then
      let s := s.cnt RED_ZL_CRCERR_COUNT
      if s.is RED_STAT_LINK then s else { s with red := { s.red with goodCells := 0 } }
    else if s.is RED_STAT_LINK then s.zlCell c
    else if c.serial % 2 ^ 64 = s.serialNo then { s with red := { s.red with goodCells := 0 } }
    else
      let n := s.red.goodCells + 1
      let s : State := { s with red := { s.red with goodCells := n, lastCellAt := s.mono, ackOut := some (c.claim % 65536) } }
      if n < 64 then s else s.zlUp c)

/-- CLAIM_CELL_SEND: the unit sends a control cell with its announced claim and serial number, the acknowledgement it owes
and the next pair decision (R7, R349, R353). -/
def execClaimCellSend (s : State) : Host.Outcome State Fault Refusal :=
  done s (if !s.zlOn then s
    else
      let dec := match s.red.decOut with
        | d :: _ => [d.1, d.2]
        | [] => []
      let ack := match s.red.ackOut with
        | some a => [a]
        | none => []
      { s with red := { s.red with cellOut := [s.serialNo, s.rd RED_CLAIM_ANNOUNCED] ++ ack ++ dec, ackOut := none, decOut := s.red.decOut.drop 1 } })

/-- ZL_LINK_TIMEOUT: no good cell has arrived for 4 µs (R350). -/
def execZlLinkTimeout (s : State) : Host.Outcome State Fault Refusal :=
  done s (if s.up && s.is RED_STAT_LINK then (s.waitUntil (s.red.lastCellAt + 4000 * nsU)).zlDown 1 else s)

/-- ZL_LANE_FAIL: one lane of the link fails; the link goes on with the other, or down without one (R350). -/
def execZlLaneFail (lane : Nat) (s : State) : Host.Outcome State Fault Refusal :=
  done s (
    let k := lane % 2
    if !s.up || bit s.red.laneBad k == 1 then s
    else
      let bad := s.red.laneBad + 2 ^ k
      let s : State := { s with red := { s.red with laneBad := bad } }
      if !s.is RED_STAT_LINK then s
      else if bad = 3 then s.zlDown 2
      else (s.wr RED_STAT_ONE_LANE 1).ev 0xB003 k 0 0 0)

/-! ### Timers of the claim (R352, R353) -/

/-- HEALTH_HOLDOFF_EXPIRY: the score has stayed unchanged for the hold-off, and the rise is announced (R352). -/
def execHealthHoldoffExpiry (s : State) : Host.Outcome State Fault Refusal :=
  done s (if !s.up then s
    else
      match s.red.holdAt with
      | none => s
      | some t =>
        let s := s.waitUntil t
        let s : State := { s with red := { s.red with holdAt := none } }
        (s.wr RED_STAT_HOLDOFF 0).announce (s.rd RED_HEALTH_SCORE))

/-- CLAIM_ACK_TIMEOUT: a lower claim takes effect without acknowledgement after ACK_TMO (R353). -/
def execClaimAckTimeout (s : State) : Host.Outcome State Fault Refusal :=
  done s (if !s.up then s
    else
      match s.red.ackAt with
      | none => s
      | some t => (s.waitUntil t).claimInForce (s.rd RED_CLAIM_ANNOUNCED) 2)

/-- HEALTH_CONDITION_EXPIRY: 60 s have passed since condition 5, 9 or 10 last arose, and it ends (R351). -/
def execHealthConditionExpiry (c : Nat) (s : State) : Host.Outcome State Fault Refusal :=
  done s (if !s.up then s
    else
      match (if c = 5 then s.red.ueAt else if c = 9 then s.red.suspSbyAt else if c = 10 then s.red.suspActAt else none) with
      | none => s
      | some t =>
        let s := s.waitUntil (t + 60 * secU)
        let r := s.red
        let r := if c = 5 then { r with ueAt := none } else if c = 9 then { r with suspSbyAt := none } else { r with suspActAt := none }
        ({ s with red := r } : State).health)

/-! ### Health reports (R359) -/

/-- A report is kept in RED_AUD_W0–W7, recorded and counted. -/
def State.audKeep (s : State) (r : AuditReport) : State :=
  let ws := [r.serial, r.sec, r.ns % 2 ^ 30, r.result % 8 + r.skip % 8 * 8 + b2n r.alignDiff * 64 + r.health % 256 * 256 + r.claim % 65536 * 65536,
    r.lanes % 65536 + r.laneCount % 65536 * 65536, r.seq, leAt (beBytes 8 (r.digest % 2 ^ 64)) 0 4, leAt (beBytes 8 (r.digest % 2 ^ 64)) 4 4]
  let s := s.each (List.range 8) (fun s i => s.wr (RED_AUD_W i) (nth ws i 0))
  if r.result = 6 then (s.cnt RED_AUD_SKIP_COUNT).ev 0xB021 r.serial r.skip 0 0
  else (s.cnt (if r.result = 0 then RED_AUD_OK_COUNT else RED_AUD_MIS_COUNT)).ev 0xB020 r.serial r.result r.health r.seq

/-- An audit ends at the standby with a result: the report is formed, sent and kept; `digest` is the first 8 bytes of its
digest as one number, a free value where none was formed. -/
def State.audReport (s : State) (serial sec ns result skip : Nat) (align : Bool) (lanes : Nat) (digest : Option Nat) : State :=
  let (d, s) := match digest with
    | some d => (d, s)
    | none => s.draw
  let n := s.red.auditSeq
  let s : State := { s with red := { s.red with auditSeq := (n + 1) % 2 ^ 32 } }
  let s := s.audKeep ⟨serial, sec, ns, result, skip, align, s.rd RED_HEALTH_SCORE, s.rd RED_CLAIM_INFORCE, lanes, s.rd CCD_LANES_COUNT, n, d⟩
  if result = 3 then ({ s with red := { s.red with suspSbyAt := some s.mono } } : State).health else s

/-- An audit skipped at the active unit: what only the standby knows is a free value (R356, R359). -/
def State.audSkipHere (s : State) (sl : Slot) (reason : Nat) : State :=
  let (h, s) := s.draw
  let (l, s) := s.draw
  let (d, s) := s.draw
  let n := s.red.auditSeq
  let s : State := { s with red := { s.red with auditSeq := (n + 1) % 2 ^ 32, audSlots := s.red.audSlots.filter (fun k => k != sl.serial) } }
  s.audKeep ⟨sl.serial, sl.t / 1000000000, sl.t % 1000000000, 6, reason, false, h, s.rd RED_PARTNER_CLAIM, l, l / 65536, n, d⟩

/-- HEALTH_REPORT_RECEIVED: the standby's report arrives; result 4 makes this unit suspect as active (R351, R358, R359). -/
def execHealthReportReceived (r : AuditReport) (s : State) : Host.Outcome State Fault Refusal :=
  done s (if !s.zlOn || !s.is RED_STAT_LINK then s
    else
      let s := s.audKeep { r with result := min (r.result % 8) 6 }
      if r.result % 8 = 4 then ({ s with red := { s.red with suspActAt := some s.mono } } : State).health else s)

end Sys2Proof.Machine
end

