-- ==== Sys2Proof/Machine/Ingest.lean ====
section
/-! DEFINITION. The Parse unit: identification, length and format rules, conversion, configuration frames, 90-5 and Lammar
frames, stream pairs, and placement by time (R131–R149, R401). What the spec leaves open here: DEDUCED, log 15. -/

namespace Sys2Proof.Machine

/-! ### Descriptors (R131, R132, R138) -/

/-- Blocks of a context. -/
def State.ctxBlocks (s : State) (c : Nat) : Nat := s.rd (CTX_NPMU c) + 1

/-- Bytes of a C37.118 block with the given FMT and counts. -/
def c37BlockSize (fmt ph an dg : Nat) : Nat :=
  2 + ph * (if bit fmt 1 = 1 then 8 else 4) + (if bit fmt 3 = 1 then 8 else 4) + an * (if bit fmt 2 = 1 then 4 else 2) + dg * 2

/-- The data-frame size a context's descriptor gives (R132, R135): of a C37.118 frame, else of a 90-5 dataset. -/
def State.ctxSize (s : State) (c : Nat) : Nat :=
  let bs := List.range (s.ctxBlocks c)
  if s.rd (CTX_FORMAT c) ≤ 1 then
    16 + bs.foldl (fun a b => a + c37BlockSize (s.rd (CTX_FMT c b)) (s.rd (CTX_PHNMR c b)) (s.rd (CTX_ANNMR c b)) (s.rd (CTX_DGNMR c b))) 0
  else if s.rd (CTX_FORMAT c) = 2 then 16 + 12 * s.rd (CTX_PHNMR c 0) + 8 * s.rd (CTX_ANNMR c 0) + 8 * s.rd (CTX_DGNMR c 0)
  else 0

/-- DVALID as R132 gives it; an integer stream that relies on a CFG-3 has no usable descriptor while PD6 is off (R139). -/
def State.ctxUsable (s : State) (c : Nat) : Bool :=
  let learnt := s.is (CTX_LEARNT c) && (assoc s.ing.lastCfg c != some 3 || s.on 6)
  decide (s.ctxSize c ≤ 9216) && (decide (1 < s.rd (CTX_FORMAT c)) || (s.is (CTX_TIME_BASE c)
    && (learnt || (List.range (s.ctxBlocks c)).all (fun b => s.rd (CTX_FMT c b) / 2 == 7))))

/-- DVALID and EXPSIZE follow the descriptor. -/
def State.ctxDescriptor (s : State) (c : Nat) : State :=
  (s.wr (CTX_DVALID c) (b2n (s.ctxUsable c))).wr (CTX_EXPSIZE c) (s.ctxSize c)

/-- Scale and angle of a phasor entry: 1 and 0 until a descriptor is learnt. -/
def State.convPh (s : State) (p : Nat) : Nat × Nat := (assoc s.ing.conv p).getD (f1, 0)

/-- Scale and offset of an analogue entry. -/
def State.convAn (s : State) (p : Nat) : Nat × Nat := (assoc s.ing.aconv p).getD (f1, 0)

/-! ### Conversion (R138) -/

/-- One block of a data frame, converted; `pred` marks values that their source predicted (R142, R401). -/
structure Blk where
  pred : Bool
  stat : Nat
  dig : Nat
  fq : Nat
  rc : Nat
  ph : List Cpx
  an : List Nat
  deriving DecidableEq, Repr

/-- A missing phasor. -/
def cMiss : Cpx := (fMiss, fMiss)

/-- A phasor scaled and turned; a value that cannot be formed is missing. -/
def convCpx (sc : Nat × Nat) (z : Cpx) : Cpx :=
  if fBad z.1 || fBad z.2 then cMiss
  else
    let turn (z : Cpx) : Option Cpx := if sc.2 = 0 then some z else do
      let c ← fCos sc.2
      let n ← fSin sc.2
      cMul z (c, n)
    let size (z : Cpx) : Option Cpx := if sc.1 = f1 then some z else cScale sc.1 z
    (((turn z).bind size)).getD cMiss

/-- A polar phasor in rectangular form with its angle adjusted. -/
def convPolar (sc : Nat × Nat) (m th : Option Nat) : Cpx :=
  match (do
    let m ← m
    let t ← th
    let t ← if sc.2 = 0 then some t else fAdd t sc.2
    let m ← if sc.1 = f1 then some m else fMul sc.1 m
    return (← fMul m (← fCos t), ← fMul m (← fSin t))) with
  | some z => z
  | none => cMiss

/-- A float word that is no NaN and no infinity. -/
def fGood (w : Nat) : Option Nat := if fBad w then none else some w

/-- The phasor at offset `o` of a frame. -/
def readPh (fmt : Nat) (sc : Nat × Nat) (bs : List Byte) (o : Nat) : Cpx :=
  if bit fmt 1 = 1 then
    if bit fmt 0 = 1 then convPolar sc (fGood (beAt bs o 4)) (fGood (beAt bs (o + 4) 4))
    else convCpx sc (beAt bs o 4, beAt bs (o + 4) 4)
  else if bit fmt 0 = 1 then convPolar sc (fOfInt (beAt bs o 2)) (fOfRat (sint 16 (beAt bs (o + 2) 2)) 10000)
  else
    match fOfInt (sint 16 (beAt bs o 2)), fOfInt (sint 16 (beAt bs (o + 2) 2)) with
    | some x, some y => convCpx sc (x, y)
    | _, _ => cMiss

/-- An analogue value under its scale and offset. -/
def convAnalog (sc : Nat × Nat) (v : Option Nat) : Nat :=
  match (do
    let v ← v
    let v ← if sc.1 = f1 then some v else fMul v sc.1
    if sc.2 = 0 then some v else fAdd v sc.2) with
  | some w => w
  | none => fMiss

/-- A float word saturated into a half of the pair, `n` units to one, less an offset; NaN is the missing half. -/
def floatHalf (w n : Nat) (off : Int) : Nat :=
  if bits w 23 8 = 255 then (if bits w 0 23 ≠ 0 then 0x8000 else if fNegB w then halfWord (-40000) else halfWord 40000)
  else halfWord (fToInt w n - off)

/-- A frequency in mHz from the system nominal. -/
def State.freqHalf (s : State) (float fnom60 : Bool) (bs : List Byte) (o : Nat) : Nat :=
  let sys : Int := if s.is60 then 60000 else 50000
  let own : Int := if fnom60 then 60000 else 50000
  if float then floatHalf (beAt bs o 4) 1000 sys else halfWord (sint 16 (beAt bs o 2) + own - sys)

/-- A ROCOF in 0.01 Hz/s. -/
def rocofHalf (float : Bool) (bs : List Byte) (o : Nat) : Nat :=
  if float then floatHalf (beAt bs o 4) 100 0 else halfWord (sint 16 (beAt bs o 2))

/-- Block `b` of a C37.118 data frame at offset `o`; `pi` and `ai` are the entries of its first phasor and analogue. -/
def State.c37Block (s : State) (c b : Nat) (bs : List Byte) (o pi ai : Nat) : Blk × Nat :=
  let fmt := s.rd (CTX_FMT c b)
  let np := s.rd (CTX_PHNMR c b)
  let na := s.rd (CTX_ANNMR c b)
  let nd := s.rd (CTX_DGNMR c b)
  let pw := if bit fmt 1 = 1 then 8 else 4
  let fw := if bit fmt 3 = 1 then 4 else 2
  let aw := if bit fmt 2 = 1 then 4 else 2
  let of := o + 2 + np * pw
  let oa := of + 2 * fw
  let od := oa + na * aw
  let ph := (List.range np).map (fun i => readPh fmt (s.convPh (pi + i)) bs (o + 2 + i * pw))
  let an := (List.range na).map (fun i => convAnalog (s.convAn (ai + i))
    (if aw = 4 then fGood (beAt bs (oa + 4 * i) 4) else fOfInt (sint 16 (beAt bs (oa + 2 * i) 2))))
  let dg := (List.range nd).map (fun i => beAt bs (od + 2 * i) 2)
  (⟨false, beAt bs o 2, nth dg 0 0, s.freqHalf (fw == 4) (s.is (CTX_FNOM60 c b)) bs of, rocofHalf (fw == 4) bs (of + fw), ph, an ++ dg.drop 1⟩, od + 2 * nd)

/-- The blocks of a C37.118 data frame. -/
def State.c37Blocks (s : State) (c : Nat) (bs : List Byte) : List Blk :=
  ((List.range (s.ctxBlocks c)).foldl (fun (a : List Blk × Nat × Nat × Nat) b =>
    let (blk, o) := s.c37Block c b bs a.2.1 a.2.2.1 a.2.2.2
    (a.1 ++ [blk], o, a.2.2.1 + blk.ph.length, a.2.2.2 + blk.an.length))
    ([], 14, s.rd (CTX_PH_BASE c), s.rd (CTX_AN_BASE c))).1

/-! ### What leaves the Parse unit -/

/-- A frame is passed to the management core. -/
def State.toMgmt (s : State) (n : Nat) (bs : List Byte) : State :=
  ({ s with ing := { s.ing with mgmt := s.ing.mgmt ++ [(n, bs)] } } : State).cnt (ING_P_MGMT_COUNT n)

/-- A frame of no context is dropped (R134). -/
def State.unknown (s : State) (n src port ident : Nat) : State := (s.cnt (ING_P_UNKNOWN_COUNT n)).ev 0x3001 n src port ident

/-- A length rule failed (R135). -/
def State.lenErr (s : State) (c : Option Nat) (n declared got : Nat) : State :=
  match c with
  | some c => (s.cnt (CTX_LENERR c)).ev 0x3002 c n declared got
  | none => (s.cnt (ING_P_LENERR_COUNT n)).ev 0x3002 0xFFFF n declared got

/-- A format error with its reason (R136). -/
def State.fmtErr (s : State) (c expected got reason : Nat) : State := (s.cnt (CTX_FMTERR c)).ev 0x3003 c expected got reason

/-- The enabled context of a key (R133, R134). -/
def State.findCtx (s : State) (cls n src port : Nat) (ident : Nat → Bool) : Option Nat :=
  (List.range 4096).find? (fun c => s.is (CTX_EN c) && s.rd (CTX_FORMAT c) == cls && ident c && bit (s.rd (CTX_PORTMASK c)) n == 1
    && (s.is (CTX_IPANY c) || s.rd (CTX_SRCIP c) == src) && (s.is (CTX_PORTANY c) || s.rd (CTX_UDPPORT c) == port))

/-- A C37.118 command frame of code `code` for a source's IDCODE, with the time of now, its CRC left to the port (R120). -/
def State.c37Command (s : State) (id code : Nat) : List Byte :=
  let soc := (secOf s.tai + 2 ^ 32 - s.rd TNS_UTC_OFS % 2 ^ 32) % 2 ^ 32
  let frac := nsOf s.tai * s.rd CCD_TBASE_TBASE / 1000000000
  beBytes 2 0xAA41 ++ beBytes 2 18 ++ beBytes 2 id ++ beBytes 4 soc ++ beBytes 4 frac ++ beBytes 2 code ++ zeros 2

/-- The management core asks a context's source for CFG-2 or CFG-3, as the last one learnt (R139): over UDP by a command frame to the
address `ip`, or to SRCIP, from the lowest port of PORTMASK. Its UDP ports and the form of the frame are PRESUMED (log 15); over TCP
the bytes belong to the session that the management core holds. -/
def State.requestCfg (s : State) (c : Nat) (ip : Option Nat) : State :=
  if !s.is ING_CFG_REQCFG then s
  else
    let typ := (assoc s.ing.lastCfg c).getD 2
    let s : State := { s with ing := { s.ing with reqs := assocSet s.ing.reqs c typ } }
    let dest := match ip with
      | some a => some a
      | none => if s.is (CTX_IPANY c) then none else some (s.rd (CTX_SRCIP c))
    match dest, (bitsSet 6 (s.rd (CTX_PORTMASK c))).head? with
    | some a, some n =>
      if s.rd (CTX_FORMAT c) ≠ 0 ∨ !s.on 2 then s
      else
        let p := s.rd NET_C37_UDP_PORT0
        s.txOffer n ⟨3, udpFrame (Config.arp a % 2 ^ 48) none 0 64 (s.rd (PUB_SRCIP_IP n)) a p p (s.c37Command (s.rd (CTX_IDCODE c)) (if typ = 3 then 6 else 5)), true, false⟩
    | _, _ => s

/-! ### Stream pairs (R144) -/

/-- A pair's accepting member, with its event when it changes, sent to the partner by the driving unit. -/
def State.pairSet (s : State) (lo hi m : Nat) : State :=
  let was := assoc s.ing.accept lo
  let s : State := { s with ing := { s.ing with accept := assocSet s.ing.accept lo m } }
  if was = some m then s
  else
    let s := if was.isSome then s.ev 0x3040 lo m (s.claimNow m) (s.claimNow (if m = lo then hi else lo)) else s
    if s.is RED_STAT_DRIVING && s.is RED_STAT_LINK then { s with red := { s.red with decOut := s.red.decOut ++ [(lo, m)] } } else s

/-- The received decision that governs a frame with a stamp, if one does. -/
def State.pairTold (s : State) (lo stamp : Nat) : Option Nat :=
  if !s.is RED_STAT_LINK || s.is RED_STAT_DRIVING then none
  else (s.ing.decided.find? (fun d => d.pair == lo)).map (fun d => if d.since ≤ stamp then d.member else d.old)

/-- A frame of context `c` has come with a claim. -/
def State.pairHeard (s : State) (c claim : Nat) : State :=
  { s with ing := { s.ing with claims := assocSet s.ing.claims c claim, heardAt := assocSet s.ing.heardAt c s.mono } }

/-- The pair of context `c` decides on its claims as they stand, or as the partner told for the stamp; whether a frame of `c` is accepted. -/
def State.pairDecide (s : State) (c stamp : Nat) : Bool × State :=
  match s.pairOf c with
  | none => (true, s)
  | some p =>
    let lo := min c p
    let hi := max c p
    match s.pairTold lo stamp with
    | some m => (m == c, s)
    | none =>
      let m := s.pairOwn lo hi
      (m == c, s.pairSet lo hi m)

/-- A measurement frame of context `c` has come with a claim: whether it is accepted, counted in PAIRREJ when it is not. -/
def State.pairJudge (s : State) (c claim stamp : Nat) : Bool × State :=
  let (ok, s) := (s.pairHeard c claim).pairDecide c stamp
  if ok then (true, s) else (false, s.cnt (CTX_PAIRREJ c))

/-- PAIR_CLAIM_TIMEOUT: no frame of context `ctx` has come within ING_PAIR.TMO, and its claim falls to 0 (R144). -/
def execPairClaimTimeout (ctx : Nat) (s : State) : Host.Outcome State Fault Refusal :=
  done s (if !s.up || !s.on 2 || s.rate == 0 then s
    else
      match s.pairOf ctx, assoc s.ing.heardAt ctx with
      | some p, some t =>
        let s := s.waitUntil (t + s.eff ING_PAIR_TMO * (secU / s.rate) + 1)
        let lo := min ctx p
        let hi := max ctx p
        if (s.pairTold lo (stampOf s.tai)).isSome then s else s.pairSet lo hi (s.pairOwn lo hi)
      | _, _ => s)

/-- PAIR_DECISION_RECEIVED: the partner's decision for a pair applies to frames stamped from now on (R144). -/
def execPairDecisionReceived (ctx : Nat) (accept : Bool) (s : State) : Host.Outcome State Fault Refusal :=
  done s (if !s.zlOn || !s.is RED_STAT_LINK || s.is RED_STAT_DRIVING then s
    else
      match s.pairOf ctx with
      | none => s
      | some p =>
        let lo := min ctx p
        let hi := max ctx p
        let m := if accept then ctx else p
        let old := (assoc s.ing.accept lo).getD (s.pairOwn lo hi)
        let s : State := { s with ing := { s.ing with decided := ⟨lo, m, stampOf s.tai, old⟩ :: s.ing.decided.filter (fun d => d.pair != lo) } }
        s.pairSet lo hi m)

/-! ### Placement by time (R137, R145, R146) -/

/-- A frame time: TAI second and a fraction num/den of a second. -/
structure FTime where
  sec : Nat
  num : Nat
  den : Nat
  deriving DecidableEq, Repr

/-- The frame time in whole ns, truncated. -/
def FTime.ns (t : FTime) : Nat := t.sec * 1000000000 + t.num * 1000000000 / t.den

/-- The grid point of a stream with DIV nearest to a frame time, midway taking the later (R145). -/
def FTime.slot (f div : Nat) (t : FTime) : Nat × Nat :=
  let own := f / div
  let j := (2 * t.num * own + t.den) / (2 * t.den)
  if own ≤ j then (t.sec + 1, 0) else (t.sec, j * div)

/-- The frame time lies within TOL ns of a slot time in ns. -/
def FTime.within (t : FTime) (slot tol : Nat) : Bool :=
  let a := (t.sec * t.den + t.num) * 1000000000
  let b := slot * t.den
  decide ((if a < b then b - a else a - b) ≤ tol * t.den)

/-- The offset that converts a SOC, with the frame's leap-second-occurred bit (R137). -/
def State.socOffset (s : State) (occurred : Bool) : Int :=
  let near := match s.ing.lastLeap with
    | some t => decide (s.mono ≤ t + 2 * secU)
    | none => false
  sint 16 (if near && occurred != s.is TNS_UTC_LSOCC then s.ing.oldOfs else s.rd TNS_UTC_OFS)

/-- TAI seconds of a UTC second. -/
def taiOf (soc : Nat) (ofs : Int) : Nat := ((soc : Int) + ofs).toNat

/-- What the blocks of a frame fill: phasors and analogues of all blocks go in block order into the allocation, what does
not fit is dropped, which counts once the frame is placed (R133, R140, R401). The frame is counted by what becomes of its first block
(DEDUCED, log 15). -/
def State.ctxPlace (s : State) (c : Nat) (e : RxEntry) (slot : Nat) (rev : Nat) (bs : List Blk) : State :=
  let o := s.placeCtx c
  let pc := s.rd (CTX_PH_CNT o)
  let ac := s.rd (CTX_AN_CNT o)
  let np := bs.foldl (fun a b => a + b.ph.length) 0
  let na := bs.foldl (fun a b => a + b.an.length) 0
  (bs.foldl (fun (a : State × Nat × Nat × Nat) b =>
    let col := o + a.2.1
    let ph := ((b.ph.zipIdx a.2.2.1).filter (fun x => decide (x.2 < pc))).map (fun x => (s.rd (CTX_PH_BASE o) + x.2, (⟨col, x.1.1, x.1.2⟩ : PhEnt)))
    let an := ((b.an.zipIdx a.2.2.2).filter (fun x => decide (x.2 < ac))).map (fun x => (s.rd (CTX_AN_BASE o) + x.2, (⟨col, x.1⟩ : AnEnt)))
    let kind := if b.pred then 1 else if b.stat / 2 ^ 14 = 3 then 2 else 0
    (a.1.place ⟨col, c, false, kind, rev, slot, e.stamp, e.epoch, e.irc, false, b.dig, b.stat, b.fq, b.rc, ph, an, a.2.1 == 0, np - pc, na - ac, e.qual⟩,
      a.2.1 + 1, a.2.2.1 + b.ph.length, a.2.2.2 + b.an.length)) (s, 0, 0, 0)).1

/-- A measurement frame before service: it is discarded and counted in EARLY, with an O of 0; its slot time is one of the rate that is
set (R146). -/
def State.ctxEarly (s : State) (c : Nat) (t : FTime) : State :=
  (s.cnt (CTX_EARLY c)).ev 0x3010 c (gridNs s.sysRate (t.slot s.sysRate (s.ctxDiv c)) % 1000000000) 0 0

/-- A measurement frame with its time: off the grid it is discarded; else it is placed (R145). -/
def State.ctxTimed (s : State) (c : Nat) (e : RxEntry) (t : FTime) (rev : Nat) (bs : List Blk) : State :=
  let slot := gridNs s.rate (t.slot s.rate (s.ctxDiv c))
  if t.within slot (s.rd ING_GRID_TOL) then s.ctxPlace c e slot rev bs
  else (s.cnt (CTX_OFFGRID c)).ev 0x3012 c (t.ns % 1000000000) 0 0

/-! ### C37.118 configuration frames (R139) -/

/-- A block of a received configuration: FMT, 60 Hz, counts, phasor and analogue scales, and CFGCNT. -/
structure CfgBlk where
  fmt : Nat
  fnom60 : Bool
  np : Nat
  na : Nat
  nd : Nat
  ph : List (Nat × Nat)
  an : List (Nat × Nat)
  cnt : Nat

/-- A block of a CFG-2 at an offset, and where the next begins. -/
def cfg2Block (bs : List Byte) (o : Nat) : CfgBlk × Nat :=
  let fmt := beAt bs (o + 18) 2 % 16
  let np := beAt bs (o + 20) 2
  let na := beAt bs (o + 22) 2
  let nd := beAt bs (o + 24) 2
  let u := o + 26 + 16 * (np + na + 16 * nd)
  let ph := (List.range np).map (fun i => (if bit fmt 1 = 1 then f1 else (fOfRat ((beAt bs (u + 4 * i) 4 % 2 ^ 24 : Nat) : Int) 100000).getD f1, 0))
  let an := (List.range na).map (fun i => (if bit fmt 2 = 1 then f1 else (fOfInt (sint 24 (beAt bs (u + 4 * np + 4 * i) 4 % 2 ^ 24))).getD f1, 0))
  let e := u + 4 * (np + na + nd)
  (⟨fmt, bit (beAt bs e 2) 0 == 0, np, na, nd, ph, an, beAt bs (e + 2) 2⟩, e + 4)

/-- Skips `n` names of a CFG-3, each a length byte and its characters. -/
def skipNames (bs : List Byte) (n o : Nat) : Nat := (List.range n).foldl (fun o _ => o + 1 + byteAt bs o) o

/-- A block of a CFG-3. -/
def cfg3Block (bs : List Byte) (o : Nat) : CfgBlk × Nat :=
  let o := skipNames bs 1 o + 2 + 16
  let fmt := beAt bs o 2 % 16
  let np := beAt bs (o + 2) 2
  let na := beAt bs (o + 4) 2
  let nd := beAt bs (o + 6) 2
  let u := skipNames bs (np + na + 16 * nd) (o + 8)
  let ph := (List.range np).map (fun i => (beAt bs (u + 12 * i + 4) 4, beAt bs (u + 12 * i + 8) 4))
  let an := (List.range na).map (fun i => (beAt bs (u + 12 * np + 8 * i) 4, beAt bs (u + 12 * np + 8 * i + 4) 4))
  let e := u + 12 * np + 8 * na + 4 * nd + 21
  (⟨fmt, bit (beAt bs e 2) 0 == 0, np, na, nd, ph, an, beAt bs (e + 2) 2⟩, e + 4)

/-- The blocks of a configuration. -/
def cfgBlocks (three : Bool) (bs : List Byte) (n o : Nat) : List CfgBlk :=
  ((List.range n).foldl (fun (a : List CfgBlk × Nat) _ =>
    let (b, o) := if three then cfg3Block bs a.2 else cfg2Block bs a.2
    (a.1 ++ [b], o)) ([], o)).1

/-- A matching configuration becomes the descriptor of context `c` where it learns; one that disagrees is a format error (R132, R136, R139). -/
def State.learn (s : State) (c typ tbase npmu got : Nat) (bs : List CfgBlk) : State :=
  let np := bs.foldl (fun a b => a + b.np) 0
  let na := bs.foldl (fun a b => a + b.na + (b.nd - 1)) 0
  if npmu ≠ s.ctxBlocks c ∨ s.rd (CTX_PH_CNT c) < np ∨ s.rd (CTX_AN_CNT c) < na ∨ bs.any (fun b => decide (255 < b.nd)) then
    s.fmtErr c (s.rd (CTX_EXPSIZE c)) got 4
  else if !s.is (CTX_CFGLEARN c) then s
  else
    let s := s.each (bs.zipIdx) (fun s x =>
      let b := x.1
      ((((s.wrBoth (CTX_FMT c x.2) b.fmt).wrBoth (CTX_FNOM60 c x.2) (b2n b.fnom60)).wrBoth (CTX_PHNMR c x.2) b.np).wrBoth
        (CTX_ANNMR c x.2) b.na).wrBoth (CTX_DGNMR c x.2) b.nd)
    let s := (s.wrBoth (CTX_TIME_BASE c) (tbase % 2 ^ 24)).wr (CTX_LEARNT c) 1
    let cnt := ((bs.map (fun b => b.cnt)).head?).getD 0
    let s : State := { s with ing := { s.ing with lastCfg := assocSet s.ing.lastCfg c typ } }
    let s := (s.wr (CTX_CFGCNT c) cnt).ctxDescriptor c
    let conv := ((bs.flatMap (fun b => b.ph)).zipIdx (s.rd (CTX_PH_BASE c))).foldl (fun l x => assocSet l x.2 x.1) s.ing.conv
    let rows := bs.flatMap (fun b => b.an ++ List.replicate (b.nd - 1) (f1, 0))
    let aconv := (rows.zipIdx (s.rd (CTX_AN_BASE c))).foldl (fun l x => assocSet l x.2 x.1) s.ing.aconv
    let s : State := { s with ing := { s.ing with conv := conv, aconv := aconv, cfgChg := s.ing.cfgChg.filter (fun k => k != c) } }
    s.ev 0x3020 c typ cnt 0

/-- A CFG-2 frame, or the joined body of a CFG-3. -/
def State.cfgLearn (s : State) (c typ got : Nat) (bs : List Byte) : State :=
  if typ = 2 then
    let n := beAt bs 18 2
    s.learn c 2 (beAt bs 14 4) n got (if n ≤ 8 then cfgBlocks false bs n 20 else [])
  else
    let n := beAt bs 4 2
    s.learn c 3 (beAt bs 0 4) n got (if n ≤ 8 then cfgBlocks true bs n 6 else [])

/-- A reassembly is abandoned; the numbers of its reasons are open (R139). -/
def State.reasmDrop (s : State) (c held idx : Nat) : State :=
  let (r, s) := s.draw
  let s : State := { s with ing := { s.ing with reasm := assocDel s.ing.reasm c } }
  (s.cnt ING_CFGFRAG_COUNT).ev 0x3022 c r held idx

/-- A CFG-3 frame or fragment (R135, R139). -/
def State.cfg3Frame (s : State) (c n fs : Nat) (bs : List Byte) : State :=
  let idx := beAt bs 14 2
  let body := slice bs 16 (fs - 18)
  let soc := beAt bs 6 4
  let frac := beAt bs 10 4
  if idx = 0 then s.cfgLearn c 3 fs body
  else if !s.on 6 then s.reasmDrop c 0 idx
  else
    let start : State := { s with ing := { s.ing with reasm := assocSet s.ing.reasm c ⟨body, 2, soc, frac, s.mono⟩ } }
    match assoc s.ing.reasm c with
    | none => if idx = 1 then start else s.reasmDrop c 0 idx
    | some r =>
      if idx = 1 then start
      else
        let total := r.bytes.length + 18 * (r.next - 1) + fs
        if 65536 < total then (s.reasmDrop c r.bytes.length idx).lenErr (some c) n total (r.bytes.length + fs)
        else if (idx ≠ r.next ∧ idx ≠ 0xFFFF) ∨ soc ≠ r.soc ∨ frac ≠ r.frac ∨ r.lastAt + secU < s.mono then s.reasmDrop c r.bytes.length idx
        else if idx = 0xFFFF then
          ({ s with ing := { s.ing with reasm := assocDel s.ing.reasm c } } : State).cfgLearn c 3 total (r.bytes ++ body)
        else { s with ing := { s.ing with reasm := assocSet s.ing.reasm c { r with bytes := r.bytes ++ body, next := r.next + 1, lastAt := s.mono } } }

/-! ### C37.118 frames (R135–R137, R139) -/

/-- Minimum size of a C37.118 type. -/
def c37Min (typ : Nat) : Nat := if typ = 0 then 22 else if typ = 1 then 16 else if typ = 2 ∨ typ = 3 then 54 else 18

/-- The source address of a received frame. -/
def RxEntry.srcIp (e : RxEntry) : Option Nat := (parseIp e.bytes).map (fun ip => ip.src)

/-- SYNC, version and type are acceptable (R136). -/
def c37SyncOk (bs : List Byte) : Bool :=
  let ver := byteAt bs 1 % 16
  let typ := byteAt bs 1 / 16 % 8
  byteAt bs 0 == 0xAA && (ver == 2 || (ver == 1 && typ != 5)) && decide (typ ≤ 5)

/-- A data frame of a context. -/
def State.c37Data (s : State) (c fs : Nat) (bs : List Byte) (e : RxEntry) : State :=
  if !s.is (CTX_DVALID c) then s.fmtErr c (s.rd (CTX_EXPSIZE c)) fs 6
  else if fs ≠ s.rd (CTX_EXPSIZE c) then s.fmtErr c (s.rd (CTX_EXPSIZE c)) fs 2
  else
    let blks := s.c37Blocks c bs
    let chg := blks.any (fun b => bit b.stat 10 == 1)
    let s := if chg && !s.ing.cfgChg.contains c then
        (({ s with ing := { s.ing with cfgChg := c :: s.ing.cfgChg } } : State).ev 0x3021 c (s.rd (CTX_CFGCNT c)) 0 0).requestCfg c e.srcIp
      else if chg then s else { s with ing := { s.ing with cfgChg := s.ing.cfgChg.filter (fun k => k != c) } }
    let frac := beAt bs 10 4
    let tb := s.rd (CTX_TIME_BASE c)
    let t : FTime := ⟨taiOf (beAt bs 6 4) (s.socOffset (bit frac 29 == 1)), frac % 2 ^ 24, tb⟩
    if s.ccd.o.isNone then s.ctxEarly c t
    else
      let (ok, s) := s.pairJudge c (s.rd (CTX_CLAIM c)) e.stamp
      if !ok then s
      else if tb ≤ frac % 2 ^ 24 then s.cnt (CTX_OFFGRID c)
      else s.ctxTimed c e t 0 blks

/-- A C37.118 frame of a known context whose length rules have passed. -/
def State.c37Known (s : State) (c n fs : Nat) (bs : List Byte) (e : RxEntry) : State :=
  if !c37SyncOk bs then s.fmtErr c (s.rd (CTX_EXPSIZE c)) fs 1
  else
    let s := s.pairHeard c (s.rd (CTX_CLAIM c))
    match byteAt bs 1 / 16 % 8 with
    | 0 => s.c37Data c fs bs e
    | 1 => s.toMgmt n bs
    | 2 => s.toMgmt n bs
    | 3 => (s.toMgmt n bs).cfgLearn c 2 fs bs
    | 4 => { s with ing := { s.ing with cmds := s.ing.cmds ++ [(n, bs)] } }
    | _ => (s.toMgmt n bs).cfg3Frame c n fs bs

/-- A C37.118 payload over UDP. -/
def State.c37Udp (s : State) (n : Nat) (ip : Ip) (u : Udp) (e : RxEntry) : State :=
  let bs := u.payload
  let fs := beAt bs 2 2
  let id := beAt bs 4 2
  let typ := byteAt bs 1 / 16 % 8
  let c := s.findCtx 0 n ip.src u.dport (fun c => s.rd (CTX_IDCODE c) == id)
  let names := u.dport != 0 && (s.rd NET_C37_UDP_PORT0 == u.dport || s.rd NET_C37_UDP_PORT1 == u.dport)
  if bs.length < fs ∨ 9216 < fs ∨ fs < c37Min typ then s.lenErr c n fs bs.length
  else if e.unchecked && crcCcitt (bs.take (fs - 2)) != beAt bs (fs - 2) 2 then s.cnt (NET_P_CRCERR_COUNT n)
  else if typ = 4 && names && c37SyncOk bs then { s with ing := { s.ing with cmds := s.ing.cmds ++ [(n, bs.take fs)] } }
  else
    match c with
    | none => s.unknown n ip.src u.dport id
    | some c => s.c37Known c n fs (bs.take fs) e

/-- The frames of a bound TCP stream, one after the other: framing is lost where SYNC does not begin with 0xAA or a length rule fails (R136, R139). -/
def State.tcpFrames (fuel : Nat) (c n : Nat) (e : RxEntry) (buf : List Byte) (s : State) : State × Option (List Byte) :=
  match fuel with
  | 0 => (s, some buf)
  | k + 1 =>
    if buf.length < 4 then (s, some buf)
    else
      let fs := beAt buf 2 2
      let typ := byteAt buf 1 / 16 % 8
      if byteAt buf 0 ≠ 0xAA then ((s.fmtErr c (s.rd (CTX_EXPSIZE c)) fs 1).ev 0x3060 c n 0 0, none)
      else if 9216 < fs ∨ fs < c37Min typ then
        ((s.lenErr (some c) n fs buf.length).ev 0x3060 c n 0 0, none)
      else if buf.length < fs then (s, some buf)
      else
        let bs := buf.take fs
        let s := if crcCcitt (bs.take (fs - 2)) ≠ beAt bs (fs - 2) 2 then s.cnt (NET_P_CRCERR_COUNT n) else s.c37Known c n fs bs e
        State.tcpFrames k c n e (buf.drop fs) s

/-- FIN or RST of a segment: the connection ends, and with it its binding (PRESUMED from TCP, log 15). -/
def tcpEnds (bs : List Byte) (ip : Ip) : Bool :=
  let f := byteAt bs (ip.o + ip.hl + 13)
  bit f 0 == 1 || bit f 2 == 1

/-- A TCP segment: of a connection bound to a context, of one that the management core binds now, or another (R134, R139). -/
def State.tcpSegment (s : State) (n : Nat) (ip : Ip) (u : Udp) (e : RxEntry) : State :=
  let mine (t : TcpIn) : Bool := t.src == ip.src && t.sport == u.sport && t.dport == u.dport
  let bind : Option TcpIn := match s.ing.tcp.find? mine with
    | some t => if s.is (CTX_EN t.ctx) && s.rd (CTX_FORMAT t.ctx) == 1 && bit (s.rd (CTX_PORTMASK t.ctx)) n == 1 then some t else none
    | none => (s.findCtx 1 n ip.src u.sport (fun c => !s.ing.tcp.any (fun t => t.ctx == c))).map (fun c => ⟨c, ip.src, u.sport, u.dport, []⟩)
  match bind with
  | none => s.toMgmt n e.bytes
  | some t =>
    let (s, rest) := State.tcpFrames 4097 t.ctx n e (t.buf ++ u.payload) s
    let others := s.ing.tcp.filter (fun x => !mine x)
    match rest with
    | some b => { s with ing := { s.ing with tcp := others ++ (if tcpEnds e.bytes ip then [] else [{ t with buf := b }]) } }
    | none => { s with ing := { s.ing with tcp := others } }

/-! ### 90-5 frames (R140, R141) -/

/-- A 32-bit quality marks its value invalid. -/
def qInvalid (q : Nat) : Bool := q / 2 ^ 30 == 1

/-- A float with its quality at an offset; missing when invalid. -/
def rsvFloat (bs : List Byte) (o : Nat) : Nat := if qInvalid (beAt bs (o + 4) 4) then fMiss else beAt bs o 4

/-- The dataset of an ASDU as a block. -/
def State.rsvBlock (s : State) (c : Nat) (bs : List Byte) : Blk :=
  let np := s.rd (CTX_PHNMR c 0)
  let na := s.rd (CTX_ANNMR c 0)
  let nd := s.rd (CTX_DGNMR c 0)
  let ph := (List.range np).map (fun i =>
    let o := 16 + 12 * i
    if qInvalid (beAt bs (o + 8) 4) then cMiss else readPh (2 + bit (s.rd (CTX_FMT c 0)) 0) (f1, 0) bs o)
  let an := (List.range na).map (fun i => convAnalog (f1, 0) (fGood (rsvFloat bs (16 + 12 * np + 8 * i))))
  let dg := (List.range nd).map (fun i =>
    let o := 16 + 12 * np + 8 * na + 8 * i
    (beAt bs o 4 % 65536, qInvalid (beAt bs (o + 4) 4)))
  let sys : Int := if s.is60 then 60000 else 50000
  ⟨false, 0, match dg with
      | (v, bad) :: _ => if bad then 0 else v
      | [] => 0,
    floatHalf (rsvFloat bs 0) 1000 sys, floatHalf (rsvFloat bs 8) 100 0, ph, an ++ (dg.drop 1).map (fun d => if d.2 then fMiss else d.1)⟩

/-- The key of a 90-5 context that a key identifier names: current, or previous in overlap. -/
def State.rsvKey (s : State) (slot id : Nat) : Option (List Nat) :=
  let ks := s.verifyKeys slot
  if s.rd (KSL_KEYID slot) = id then ks.head?
  else if s.rd (KSL_STATE slot) = 2 ∧ s.rd (KSL_PKEYID slot) = id then (ks.drop 1).head? else none

/-- The SPDU number is later than the last accepted one of the context (R141). -/
def State.spduOk (s : State) (c n : Nat) : Bool :=
  match assoc s.ing.spdu c with
  | some l => laterSerial n l
  | none => true

/-- The ASDUs of an authenticated frame are placed, each counted as a frame of its own slot (DEDUCED, log 15). -/
def State.rsvPlace (s : State) (c : Nat) (e : RxEntry) (asdus : List (List Nat × List Byte)) : State :=
  let time (s : State) (a : List Nat × List Byte) : FTime :=
    ⟨taiOf (nth a.1 0 0) (s.socOffset (s.is TNS_UTC_LSOCC)), nth a.1 1 0 % 2 ^ 24, 2 ^ 24⟩
  if s.ccd.o.isNone then s.each asdus (fun s a => s.ctxEarly c (time s a))
  else
    let (ok, s) := s.pairJudge c (s.rd (CTX_CLAIM c)) e.stamp
    if !ok then s else s.each asdus (fun s a => s.ctxTimed c e (time s a) 0 [s.rsvBlock c a.2])

/-- A 90-5 frame: lengths, identification, authentication, replay (R134, R135, R141). -/
def State.rsvFrame (s : State) (n : Nat) (ip : Ip) (u : Udp) (e : RxEntry) (h : List Nat) : State :=
  let spdu := nth h 1 0 % 2 ^ 32
  let kid := nth h 2 0 % 2 ^ 32
  let len := nth h 3 0
  let crc := nth h 4 0 % 2 ^ 32
  match s.findCtx 2 n ip.src u.dport (fun c => s.rd (CTX_SVID_LEN c) == len && s.rd (CTX_SID c) == crc) with
  | none => if nth h 0 0 = 0 then s.lenErr none n u.payload.length u.payload.length else s.unknown n ip.src u.dport crc
  | some c =>
    if nth h 0 0 = 0 then s.lenErr (some c) n u.payload.length u.payload.length
    else if nth h 5 0 = 0 then
      let (r, s) := s.draw
      s.fmtErr c (s.rd (CTX_EXPSIZE c)) u.payload.length r
    else if !s.is (CTX_DVALID c) then s.fmtErr c (s.rd (CTX_EXPSIZE c)) u.payload.length 6
    else
      let sec := s.eff (CTX_SEC c)
      let slot := s.rd (CTX_KEYSLOT c)
      let accept (s : State) (as : List (List Nat × List Byte)) : State :=
        if sec ≠ 0 ∧ !s.spduOk c spdu then (s.cnt (CTX_REPLAY c)).ev 0x3031 c spdu ((assoc s.ing.spdu c).getD 0) 0
        else
          let s : State := if sec = 0 then s else { s with ing := { s.ing with spdu := assocSet s.ing.spdu c spdu } }
          s.rsvPlace c e as
      if sec = 0 then
        match Config.rsvBody [] 0 u.payload with
        | some as => accept s as
        | none => s.lenErr (some c) n u.payload.length u.payload.length
      else
        match s.keyUse slot 1 [if sec = 1 then 2 else 1] none with
        | some r => (s.keyRefuse slot 1 r 1 (some c)).cnt (CTX_AUTHERR c)
        | none =>
          let s := s.keyUsed slot
          let bad (s : State) : State := (s.cnt (CTX_AUTHERR c)).ev 0x3030 c slot kid 0
          match s.rsvKey slot kid with
          | none => bad s
          | some k =>
            match Config.rsvBody k sec u.payload with
            | some as => accept s as
            | none => bad s

/-! ### Lammar frames (R142, R143, R401) -/

/-- The blocks of a KIND 0x01 frame from an offset, with the offset after them; none when they run past the end. -/
def lamBlocks (n : Nat) (bs : List Byte) (o : Nat) : Option (List Blk × Nat) :=
  match n with
  | 0 => some ([], o)
  | k + 1 =>
    if bs.length < o + 12 then none
    else
      let np := byteAt bs o
      let na := byteAt bs (o + 1)
      let q := o + 12
      let e := q + 8 * np + 4 * na
      if bs.length < e then none
      else
        let ph := (List.range np).map (fun i => convCpx (f1, 0) (leAt bs (q + 8 * i) 4, leAt bs (q + 8 * i + 4) 4))
        let an := (List.range na).map (fun i => leAt bs (q + 8 * np + 4 * i) 4)
        (lamBlocks k bs e).map (fun r => (⟨false, leAt bs (o + 2) 2, leAt bs (o + 4) 2, leAt bs (o + 8) 2, leAt bs (o + 10) 2, ph, an⟩ :: r.1, r.2))

/-- A Lammar frame of a context that has passed length and CRC: form, mood, pair and placement. A column is predicted by its source in a
subjunctive frame, and where its bit of PRED is set (DEDUCED, log 15). A KIND 0x02 frame goes on as `raw`. -/
def State.lamFrame (s : State) (c n : Nat) (bs raw : List Byte) (e : RxEntry) : State :=
  let len := bs.length
  let kind := byteAt bs 9
  let ncol := leAt bs 36 2
  let bad (s : State) : State := s.fmtErr c (s.rd (CTX_EXPSIZE c)) len 5
  let claim := leAt bs 32 2
  if byteAt bs 8 ≠ 1 ∨ (kind ≠ 1 ∧ kind ≠ 2) ∨ len < 52 then bad s
  else
    let o := 48 + 4 * ((ncol + 31) / 32)
    if kind = 2 then
      if o + 24 * leAt bs 40 2 + 4 ≠ len ∨ leAt bs 42 2 ≠ 0 then bad s
      else ((s.pairHeard c claim).pairDecide c e.stamp).2.toMgmt n raw
    else if ncol ≠ s.ctxBlocks c then bad s
    else
      match lamBlocks ncol (bs.take (len - 4)) o with
      | none => bad s
      | some (blks, q) =>
        if q + 8 * leAt bs 40 2 + 4 * leAt bs 42 2 + 4 ≠ len then bad s
        else if !s.is (CTX_DVALID c) then s.fmtErr c (s.rd (CTX_EXPSIZE c)) len 6
        else
          let sub := bit (byteAt bs 10) 0 == 1
          let blks := blks.zipIdx.map (fun x => { x.1 with pred := sub || bit (byteAt bs (48 + x.2 / 8)) (x.2 % 8) == 1 })
          let t : FTime := ⟨leAt bs 20 6, leAt bs 28 4, 1000000000⟩
          if sub && !s.is (CTX_SUBJ_OK c) then ((s.pairHeard c claim).pairDecide c e.stamp).2
          else if s.ccd.o.isNone then (s.pairHeard c claim).ctxEarly c t
          else
            let (ok, s) := s.pairJudge c claim e.stamp
            if !ok then s
            else s.ctxTimed c e t (byteAt bs 11 % 16) blks

/-- A coded frame is dropped (R143). -/
def State.codedDrop (s : State) (c reason : Nat) : State := (s.cnt ING_ELSDROP_COUNT).ev 0x3050 c reason 0 0

/-- The fields of a context's entry that a frame is parsed against (R133). -/
def ctxFields (c : Nat) : List Field := (List.range 18).flatMap (fun w => tblFields 5 0 c w)

/-- The configuration fields of a context's entry take the given values. -/
def State.putEntry (s : State) (c : Nat) (vs : List Nat) : State := ((ctxFields c).zip vs).foldl (fun s x => s.wr x.1 x.2) s

/-- Runs `f` with the entry of context `c` as it stood, then lets the entry stand as it is. -/
def State.withEntry (s : State) (c : Nat) (was : List Nat) (f : State → State) : State :=
  (f (s.putEntry c was)).putEntry c ((ctxFields c).map s.rd)

/-- A Lammar payload over UDP (R134, R135, R143). -/
def State.lamUdp (s : State) (n : Nat) (ip : Ip) (u : Udp) (e : RxEntry) : State :=
  let bs := u.payload
  let len := leAt bs 4 4
  let sid := leAt bs 12 4
  let c := s.findCtx 3 n ip.src u.dport (fun c => s.rd (CTX_SID c) == sid)
  if bs.length < len ∨ 9216 < len ∨ len < (if bit (byteAt bs 10) 1 = 1 then 20 else 48) then s.lenErr c n len bs.length
  else
    match c with
    | none => s.unknown n ip.src u.dport sid
    | some c =>
      let bs := bs.take len
      if crc32c (bs.take (len - 4)) ≠ leAt bs (len - 4) 4 then s.fmtErr c (s.rd (CTX_EXPSIZE c)) len 3
      else if bit (byteAt bs 10) 1 = 0 then s.lamFrame c n bs e.bytes e
      else
        let s : State := { s with ing := { s.ing with codedAt := some s.mono } }
        if !s.is ING_CFG_ELSD_EN then
          let (r, s) := s.draw
          s.codedDrop c r
        else if !s.on 6 then s.codedDrop c 1
        else if !s.elsRoom 1 then s.codedDrop c 2
        else ({ s with ing := { s.ing with coded := s.ing.coded ++ [⟨c, e, n, bs, (ctxFields c).map s.rd⟩] } } : State).elsAdd .decode

/-- CODED_FRAME_DECODED: the decompression of the oldest waiting coded frame ends, and its frame is parsed with the stamp of
the coded one (R143, R332). -/
def execCodedFrameDecoded (ue : Bool) (s : State) : Host.Outcome State Fault Refusal :=
  done s (if !s.up || !s.on 2 || !s.on 6 then s
    else
      match s.elsCurrent, s.ing.coded with
      | some .decode, w :: rest =>
        let s := ({ s with ing := { s.ing with coded := rest } } : State).elsEnd .decode
        let fail (s : State) (err reason : Nat) : State := (s.ev 0x9030 1 err 0 0xFF).codedDrop w.ctx reason
        let blk := slice w.block 16 (w.block.length - 20)
        if ue then fail s 6 3
        else
          match elsDecode blk with
          | .inr err => fail s err 3
          | .inl (inner, _) =>
            let s := s.elsCount blk.length inner.length
            if inner.length ≠ leAt inner 4 4 ∨ inner.length < 52 ∨ 65536 < inner.length then (s.cnt (CTX_LENERR w.ctx)).ev 0x3050 w.ctx 4 0 0
            else if crc32c (inner.take (inner.length - 4)) ≠ leAt inner (inner.length - 4) 4 then
              s.fmtErr w.ctx (s.rd (CTX_EXPSIZE w.ctx)) inner.length 3
            else (s.withEntry w.ctx w.cfg (fun s => s.lamFrame w.ctx w.port inner inner w.entry)).arcFlush w.port
      | _, _ => s)

/-! ### Reading a frame (R134) -/

/-- A UDP datagram goes to its destination in the order of R134's table. -/
def State.parseUdpFrame (s : State) (n : Nat) (ip : Ip) (e : RxEntry) : State :=
  let u := parseUdp e.bytes ip
  let c37 := byteAt u.payload 0 == 0xAA && !u.payload.isEmpty &&
    ((u.dport != 0 && (s.rd NET_C37_UDP_PORT0 == u.dport || s.rd NET_C37_UDP_PORT1 == u.dport))
      || (List.range 4096).any (fun c => s.is (CTX_EN c) && s.rd (CTX_FORMAT c) == 0 && s.rd (CTX_UDPPORT c) == u.dport))
  if c37 then s.c37Udp n ip u e
  else
    match (if u.dport = 102 then Config.rsvHead u.payload else none) with
    | some h => s.rsvFrame n ip u e h
    | none =>
      if u.payload.take 4 = [0x47, 0x4B, 0x4C, 0x46] then s.lamUdp n ip u e
      else if s.is ING_FLOW_UDP_PORT && s.rd ING_FLOW_UDP_PORT == u.dport && decide (4 ≤ n) then
        { s with ing := { s.ing with flow := s.ing.flow ++ [(n, e)] } }
      else s.toMgmt n e.bytes

/-- A frame read from a FIFO; a PTP message on its way to the management core reaches the time-transmitter engine of its domain (R102). -/
def State.parseEntry (s : State) (n : Nat) (e : RxEntry) : State :=
  if etherType e.bytes ≠ 0x0800 then (s.toMgmt n e.bytes).ptpAnswer n e
  else
    match parseIp e.bytes with
    | none => s.toMgmt n e.bytes
    | some ip =>
      if ip.proto = 17 then s.parseUdpFrame n ip e
      else if ip.proto = 6 then s.tcpSegment n ip (parseTcp e.bytes ip) e
      else s.toMgmt n e.bytes

/-- The port whose turn it is: the first from the turn on whose FIFO holds a frame. -/
def State.turnPort (s : State) : Option Nat :=
  ((List.range 6).map (fun i => (s.ing.turn + i) % 6)).find? (fun n => s.portUp n && !(s.port n).fifo.isEmpty)

/-- PARSE_FRAME: the Parse unit reads the oldest frame of port `n`'s FIFO whole and deals with it (R134). The six FIFOs are read in turn,
one frame at a time (R124): the command acts for the port whose turn it is. -/
def execParseFrame (n : Nat) (s : State) : Host.Outcome State Fault Refusal :=
  done s (if s.turnPort ≠ some n then s
    else
      match (s.port n).fifo with
      | [] => s
      | e :: rest =>
        let s : State := { s with ing := { s.ing with mgmt := [], cmds := [], turn := (n + 1) % 6 } }
        let s := (s.setPort n { s.port n with fifo := rest }).fifoLevel n
        let s : State := if e.epoch = s.epoch then { s with ccd := { s.ccd with stamps := setNth s.ccd.stamps n (max (nth s.ccd.stamps n 0) e.stamp) } } else s
        (s.parseEntry n e).arcFlush n)

end Sys2Proof.Machine
end

