-- ==== Sys2Proof/Machine/Alarms.lean ====
section
/-! DEFINITION. The alarm engine: DRIVE, latches, events, pins, direct definitions and the triggers' own sources, and the
result registers of the indicative chain (R257–R263, R321). What the spec leaves open here: DEDUCED, log 21. -/

namespace Sys2Proof.Machine

/-! ### Trigger times (R321) -/

/-- What a firing from a crossing at a time in 1/16 ns carries; a status input's stamp takes the last instant, fraction 0. A fraction that
rounds up to a whole period is the next instant, and a time that the counter has not reached lies in the epoch before (DEDUCED, log 26). -/
def State.firingAt (s : State) (kind dfn t16 : Nat) (sti : Bool) : Firing :=
  let ep := if stampOf s.tai < t16 then s.epoch - 1 else s.epoch
  if sti then ⟨kind, dfn, t16 / 16, ep, s.instBefore (t16 / 16), 0⟩
  else
    let r := s.acqRate
    let q := (t16 % 16000000000 * r * 256 + 8000000000) / 16000000000
    ⟨kind, dfn, t16 / 16, ep, if q / 256 < r then (t16 / 16000000000, q / 256) else (t16 / 16000000000 + 1, 0), q % 256⟩

/-- What a firing from a slot source carries. -/
def State.firingSlot (s : State) (dfn t ep : Nat) : Firing := ⟨1, dfn, t, ep, s.instAfter t, 0⟩

/-! ### DRIVE and latches (R259–R262) -/

/-- Bit `d` of the DRIVE and LATCHED words follows the entry. -/
def State.almBits (s : State) (d : Nat) : State :=
  let j := d / 32
  let b := d % 32
  (s.wr (ANA_ALM_ACT_DRIVE j) (setBits (s.rd (ANA_ALM_ACT_DRIVE j)) b 1 (s.rd (ALM_DRIVE d)))).wr
    (ANA_ALM_LAT_LATCHED j) (setBits (s.rd (ANA_ALM_LAT_LATCHED j)) b 1 (s.rd (ALM_LATCHED d)))

/-- Clears a latch. -/
def State.latchClear (s : State) (d : Nat) : State :=
  let s : State := { s with ana := { s.ana with latchBy := assocDel s.ana.latchBy d } }
  (s.wr (ALM_LATCHED d) 0).almBits d

/-- A rise sets the latch of a latching definition, with how it came (R260). -/
def State.latchSet (s : State) (d : Nat) (by_ : Option Nat) : State :=
  if !s.is (ALM_LATCH d) then s
  else
    let keep := s.is (ALM_LATCHED d) && by_.isSome && (match assoc s.ana.latchBy d with
      | some none => true
      | _ => false)
    let s : State := if keep then s else { s with ana := { s.ana with latchBy := assocSet s.ana.latchBy d by_ } }
    s.wr (ALM_LATCHED d) 1

/-- DRIVE of definition `d` takes a value: latch, event, count and capture trigger (R259–R262); mood 0 subjunctive,
1 indicative, 2 direct. -/
def State.setDrive (s : State) (d : Nat) (v : Bool) (mood serial value : Nat) (f : Firing) : State :=
  if b2n v = s.rd (ALM_DRIVE d) then s
  else
    let s := s.wr (ALM_DRIVE d) (b2n v)
    let s := if v then s.latchSet d (if mood = 0 then some serial else none) else s
    let s := s.almBits d
    let s := if s.is (ALM_EV d) then
        (s.cnt (if v then ANA_RISES_COUNT else ANA_FALLS_COUNT)).ev (if v then 0x6030 else 0x6031) d mood serial value
      else s
    if v && s.rd (ALM_CAP d) < 16 then s.fire (s.rd (ALM_CAP d)) f else s

/-- The MOOD that acts (R256, R259). -/
def State.moodOf (s : State) (d : Nat) : Nat :=
  let src := s.rd (ALM_SOURCE d)
  let m := s.rd (ALM_MOOD d)
  if (4 ≤ src ∧ src ≤ 7) ∨ m = 3 then 1 else m

/-- A published result of slot `serial` reaches definition `d` (R259). -/
def State.almResult (s : State) (serial t ep : Nat) (ind : Bool) (p : Nat × AlmRes) : State :=
  let d := p.1
  let r := p.2
  let s := if ind then (s.wr (ALM_ACT_I d) (b2n r.act)).wr (ALM_VALUE d) r.val
    else if laterSerial s.ana.newest serial then s else s.wr (ALM_ACT_S d) (b2n r.act)
  let qualifies := match s.moodOf d with
    | 0 => true
    | 1 => ind
    | _ => r.how == 3 || (r.how == 1 && ind)
  let older := match assoc s.ana.drvSerial d with
    | some n => laterSerial n serial
    | none => false
  if !qualifies || older then s
  else
    let s : State := { s with ana := { s.ana with drvSerial := assocSet s.ana.drvSerial d serial } }
    s.setDrive d r.act (b2n ind) serial r.val (s.firingSlot d t ep)

/-- The results of a published evaluation reach the alarm engine, and the pins follow (R259, R261). -/
def State.almPublish (s : State) (sl : Slot) (ind : Bool) (res : Res) : State :=
  let s := s.each res.alm (fun s p => s.almResult sl.serial sl.t sl.epoch ind p)
  let s : State := if ind || laterSerial s.ana.newest sl.serial then s else { s with ana := { s.ana with newest := sl.serial } }
  s.almPins

/-- The first evaluation under a new generation clears the latches of the definitions it changed (R263). -/
def State.almRedefine (s : State) (gen : Nat) (g : RegFile) (start : AnaState) (serial : Nat) : State :=
  let fresh := match s.ana.lastGen with
    | none => true
    | some n => laterSerial gen n
  if !fresh then s
  else
    let old := s.ana.lastVals
    let first := s.ana.lastGen.isNone
    let s : State := { s with ana := { s.ana with lastGen := some gen, lastVals := g } }
    if first then s
    else
      let ds := (List.range 2048).filter (fun d => !almDirect (g.get (ALM_SOURCE d)) && almChanged g old d && old.get (ALM_EN d) == 1)
      s.each ds (fun s d =>
        let s := s.latchClear d
        if ((assoc start.alm d).map (fun a => a.act)).getD false then s.ev 0x6033 d serial 0 0 else s)

/-- ALARM_ACK: a write of a definition's number to ANA_ALM_ACK clears its latch (R260). -/
def execAlarmAck (m : Master) (d : Nat) (s : State) : Host.Outcome State Fault Refusal :=
  done s (s.accessW m ANA_ALM_ACK_DEF.addr d (fun s =>
    let d := d % 2048
    if s.is (ALM_LATCHED d) then ((s.latchClear d).ev 0x6032 d (mNum m) 0 0).almPins else s))

/-- ALM_HOLD_EXPIRY: the hold of pin `p` ends at its time, and the pin follows (R261). -/
def execAlmHoldExpiry (p : Nat) (s : State) : Host.Outcome State Fault Refusal :=
  done s (if !s.up then s
    else
      match s.sch.dly.find? (fun e => e.what == .pin p) with
      | none => s
      | some e =>
        let s := s.advanceTo e.due
        (s.delayDrop (.pin p)).almPins)

/-! ### Direct definitions (R256, R257) -/

def State.dir (s : State) (d : Nat) : DirDef := (assoc s.ana.dirs d).getD ⟨false, none, false⟩

def State.setDir (s : State) (d : Nat) (x : DirDef) : State := { s with ana := { s.ana with dirs := assocSet s.ana.dirs d x } }

/-- The on and release conditions of a flag (R257). -/
def State.flagCond (s : State) (d : Nat) (flag : Bool) : Bool × Bool :=
  match s.rd (ALM_CMP d) with
  | 0 => (flag, !flag)
  | 1 => (!flag, flag)
  | c => almCond c (s.rd (ALM_THR d)) (s.rd (ALM_HYST d)) (fBool flag)

/-- A direct definition's state changes, dated by the crossing in 1/16 ns. -/
def State.dirChange (s : State) (d : Nat) (act : Bool) (t16 : Nat) : State :=
  let s := s.setDir d ⟨act, none, act⟩
  let s := (s.wr (ALM_ACT_I d) (b2n act)).wr (ALM_VALUE d) (fBool act)
  s.setDrive d act 2 0 (fBool act) (s.firingAt 1 d t16 (s.rd (ALM_SOURCE d) == 0x23))

/-- A flag as a direct definition sees it, dated by its crossing: the duration runs from the crossing on the counter, and
each timer restarts whenever its condition fails (R257, R271). -/
def State.dirFlag (s : State) (d : Nat) (flag : Bool) (t16 : Nat) : State :=
  let x := s.dir d
  let c := s.flagCond d flag
  let moves := if x.act then c.2 else c.1
  if !moves then (s.delayDrop (.timer d)).setDir d { x with since := none }
  else if x.since.isSome then s
  else
    let dur := s.rd (if x.act then ALM_OFF_DUR d else ALM_ON_DUR d)
    let due := t16 * 2 ^ 28 + dur * 100000 * nsU
    if dur = 0 ∨ due ≤ s.tai then s.dirChange d (!x.act) t16
    else (s.setDir d { x with since := some t16, wantOn := !x.act }).delayAdd due (.timer d)

/-- Combinations of direct definitions follow, in ascending number. -/
def State.dirCombine (s : State) (t16 : Nat) : State :=
  s.each ((List.range 2048).filter (fun d => s.is (ALM_EN d) && (s.rd (ALM_SOURCE d) == 0x25 || s.rd (ALM_SOURCE d) == 0x26))) (fun s d =>
    let a := (s.dir (s.rd (ALM_INDEX d))).act
    let b := (s.dir (s.rd (ALM_INDEX2 d))).act
    s.dirFlag d (if s.rd (ALM_SOURCE d) = 0x25 then a || b else a && b) t16)

/-- The source has a SUB operand. -/
def subMatters (src : Nat) : Bool := src == 0x22

/-- A flag or level of a direct source changes: the triggers' own sources fire, and direct definitions evaluate it (R257,
R321). -/
def State.flagArrives (s : State) (src idx sub : Nat) (flag : Bool) (t16 : Nat) : State :=
  let hit (a b c : Nat) : Bool := a == src && b == idx && (!subMatters src || c == sub)
  let ts := (List.range 16).filter (fun t => hit (s.rd (CAP_TRIG_CFG_SRC t)) (s.rd (CAP_TRIG_CFG_INDEX t)) (s.rd (CAP_TRIG_CFG_SUB t))
    && (flag || s.is (CAP_TRIG_CFG_EDGE t)))
  let s := s.each ts (fun s t => s.fire t (s.firingAt 2 0xFFFF t16 (src == 0x23)))
  if !s.on 4 ∨ !s.is ANA_CFG_EN then s
  else
    let ds := (List.range 2048).filter (fun d => s.is (ALM_EN d) && hit (s.rd (ALM_SOURCE d)) (s.rd (ALM_INDEX d)) (s.rd (ALM_SUB d)))
    let s := s.each ds (fun s d => s.dirFlag d flag t16)
    (s.dirCombine t16).almPins

/-- A direct timer falls due (R257, R271). -/
def State.dirTimer (s : State) (d : Nat) : State :=
  let x := s.dir d
  let s := s.delayDrop (.timer d)
  match x.since with
  | none => s
  | some t16 => ((s.dirChange d x.wantOn t16).dirCombine (stampOf s.tai)).almPins

/-- DIRECT_ALARM_TIMER: the ON or OFF duration of direct definition `d` ends (R257). -/
def execDirectAlarmTimer (d : Nat) (s : State) : Host.Outcome State Fault Refusal :=
  done s (if !s.up then s
    else
      match s.sch.dly.find? (fun e => e.what == .timer d) with
      | none => s
      | some e => (s.advanceTo e.due).dirTimer d)

/-! ### Result registers of the indicative chain (R234, R253, R254) -/

/-- Derived entries show the result; a missing or unexpected one leaves the words (R238). -/
def State.showDer (s : State) (p : Nat × DerRes) : State :=
  if p.2.kind = 0 then s
  else if p.2.kind = 1 then s.wr (DER_MISS p.1) 1
  else ((s.wr (DER_MISS p.1) 0).wr (DER_RE p.1) p.2.re).wr (DER_IM p.1) p.2.im

/-- A watch entry shows its state (R241). -/
def State.showWat (s : State) (g : RegFile) (brms : List (Nat × List Nat)) (p : Nat × WatState) : State :=
  let w := p.1
  let x := p.2
  let s := s.wr (WAT_READY w) (b2n (watReady g w x))
  let s := s.wr (WAT_NMODE w) x.modes.length
  let s := s.wr (WAT_CLASS w) ((List.range 4).foldl (fun a i => a + ((nth (x.modes.map some) i none).map (fun m => m.cls)).getD 0 * 4 ^ i) 0)
  let s := s.wr (WAT_NUPD w) x.nupd
  let b := (assoc brms w).getD []
  let s := s.each (List.range 4) (fun s i => s.wr (WAT_BRMS w i) (nth b i 0))
  let s := s.each (List.range 4) (fun s i =>
    match nth (x.modes.map some) i none with
    | some m => (((s.wr (WAT_MODE w (4 * i)) m.f).wr (WAT_MODE w (4 * i + 1)) m.zeta).wr (WAT_MODE w (4 * i + 2)) m.amp).wr (WAT_MODE w (4 * i + 3)) m.phase
    | none => s.each (List.range 4) (fun s j => s.wr (WAT_MODE w (4 * i + j)) 0))
  ((s.wr (WAT_MSMAG w) x.msMag).wr (WAT_MSPH w) x.msPh).wr (WAT_EXTR w) x.extr

/-- Island registers and their events (R253). -/
def State.showIslands (s : State) (serial : Nat) (res : Res) : State :=
  let old := s.rd ANA_ISL_CNT_COUNT
  let s := s.wr ANA_ISL_CNT_COUNT res.islCnt
  let isOver := decide (64 < res.islCnt)
  let s := s.wr ANA_ISL_CNT_OVF (b2n isOver)
  let s := if isOver && !s.ana.ovf then s.ev 0x6021 res.islCnt serial 0 0 else s
  let s : State := { s with ana := { s.ana with ovf := isOver } }
  let s := if res.islCnt = old then s else s.ev 0x6020 res.islCnt old serial 0
  let s := s.each (List.range 64) (fun s i =>
    let r := nth res.isls i ⟨0, 0, 0, 0, 0⟩
    let s := ((s.wr (ANA_ISL_W0_LOW i) r.low).wr (ANA_ISL_W0_NODES i) r.nodes).wr (ANA_ISL_W1_FNODES i) r.fnodes
    ((s.wr (ANA_ISL_W1_DEAD i) (b2n (decide (i < res.isls.length) && r.fnodes == 0))).wr (ANA_ISL_W2_MEAN i) r.mean).wr (ANA_ISL_W3_SPLIT i) r.split)
  let in0 := (res.nodeIsl.filter (fun p => p.2 == 0)).map (fun p => p.1)
  let nodes := res.nodeIsl.map (fun p => p.1)
  let was := s.ana.isl0
  let s := s.each nodes (fun s n =>
    let s := (s.wr (NOD_ISLAND n) ((assoc res.nodeIsl n).getD 0xFF)).wr (NOD_FPRES n) (b2n (res.nodeF.contains n))
    let s := match assoc res.rel n with
      | some a => s.wr (NOD_RELANG n) a
      | none => s
    if was.contains n = in0.contains n then s else s.ev 0x6022 n (b2n (!in0.contains n)) serial 0)
  let gone := (List.range 4096).filter (fun n => s.rd (NOD_ISLAND n) != 0xFF && !nodes.contains n)
  let s := s.each gone (fun s n =>
    let s := (s.wr (NOD_ISLAND n) 0xFF).wr (NOD_FPRES n) 0
    if was.contains n then s.ev 0x6022 n 1 serial 0 else s)
  { s with ana := { s.ana with isl0 := in0 } }

/-- Group registers and their events (R254). -/
def State.showGroup (s : State) (p : Nat × GrpRes) : State :=
  let k := p.1
  let r := p.2
  if r.kind = 0 then s
  else
    let was := s.is (ANA_GRP_STAT_DIV k)
    let s := ((s.wr (ANA_GRP_F k) r.f).wr (ANA_GRP_SPLIT k) r.split).wr (ANA_GRP_SLIPR k) r.sigma
    let s := ((s.wr (ANA_GRP_STAT_DIV k) (b2n r.div)).wr (ANA_GRP_STAT_MISSING k) (b2n r.missing)).wr (ANA_GRP_STAT_PRESENT k) r.present
    if was = r.div then s else s.ev 0x6023 k (b2n r.div) (i32 (fToInt r.split 1000)) (i32 (fToInt r.sigma 1000))

/-- Everything an indicative evaluation shows, with the events of its estimators (R234, R245, R248). -/
def State.showResults (s : State) (g : RegFile) (serial : Nat) (st : AnaState) (res : Res) : State :=
  let s := s.each res.der (fun s p => s.showDer p)
  let s := s.each st.wat (fun s p => s.showWat g res.brms p)
  let s := s.each res.branch (fun s p => (s.wr (BRA_CLOSED p.1) (b2n p.2.1)).wr (BRA_UNKNOWN p.1) (b2n p.2.2))
  let s := if g.get ANA_CFG_EN = 0 then s else s.showIslands serial res
  let s := s.each res.grp (fun s p => s.showGroup p)
  let s := s.each res.resets (fun s p => (s.cnt ANA_RESETS_COUNT).ev 0x6010 p.1 p.2 serial 0)
  let s := s.each res.readied (fun s w => s.ev 0x6011 w serial 0 0)
  s.each res.classed (fun s p => s.ev (if p.2.2.cls = 2 then 0x6013 else 0x6014) p.1 p.2.1 (i32 (fToInt p.2.2.f 1000)) (i32 (fToInt p.2.2.zeta 10000)))

end Sys2Proof.Machine
end

