-- ==== Sys2Proof/Machine/Scheduler.lean ====
section
/-! DEFINITION. The hardware scheduler: work items and their handles, lane jobs, the selection rule, shedding, lost lanes
and held dispatch, the delay list (R266–R275, R360, R361). What the spec leaves open here: DEDUCED, log 23. -/

namespace Sys2Proof.Machine

/-! ### Lanes -/

/-- Lane `l` is in service. -/
def State.laneIn (s : State) (l : Nat) : Bool := decide (l < 16) && bit (s.rd CCD_LANES_FENCED) l == 0

/-- The job on lane `l`. -/
def State.laneJob (s : State) (l : Nat) : Option LaneJob := nth s.sch.lanes l none

/-- Puts a job on a lane or takes it off. -/
def State.setLane (s : State) (l : Nat) (j : Option LaneJob) : State :=
  let ls := setNth s.sch.lanes l j
  let s : State := { s with sch := { s.sch with lanes := ls } }
  s.wr SCH_STAT_BUSY (ls.filter (fun x => x.isSome)).length

/-- Lane `l` is the only one in service. -/
def State.laneSole (s : State) (l : Nat) : Bool := (List.range 16).all (fun k => k == l || !s.laneIn k)

/-! ### Items (R266, R267, R270) -/

/-- Jobs of the item's current stage. -/
def Item.count (it : Item) : Nat := nth it.stages it.stage 0

/-- The number of job `j` of the current stage among all jobs of the item. -/
def Item.jobNo (it : Item) (j : Nat) : Nat := (it.stages.take it.stage).foldl (fun a b => a + b) 0 + j

/-- The slot serial an event names for an item, or 0. -/
def Item.evSerial (it : Item) : Nat := if it.typ = 1 ∨ it.typ = 2 ∨ it.typ = 3 then it.serial else 0

/-- A delay-list entry holds the item of a handle. -/
def Dly.handle (e : Dly) : Option (Nat × Nat) :=
  match e.what with
  | .fw it => some (it.handle, it.gen)
  | _ => none

/-- An item of a handle and generation is held, unfinished. -/
def State.itemHeld (s : State) (h g : Nat) : Bool :=
  s.sch.items.any (fun it => it.handle == h && it.gen == g) || s.sch.dly.any (fun e => e.handle == some (h, g))

/-- A handle is in use. -/
def State.handleUsed (s : State) (h : Nat) : Bool :=
  s.sch.items.any (fun it => it.handle == h) || s.sch.dly.any (fun e => (e.handle.map (fun p => p.1)) == some h)

/-- The lowest free handle of a range. -/
def State.freeHandle (s : State) (lo n : Nat) : Option Nat := ((List.range n).map (fun i => lo + i)).find? (fun h => !s.handleUsed h)

/-- The generation a handle gets when it is used next. -/
def State.nextGen (s : State) (h : Nat) : Nat :=
  match assoc s.sch.gens h with
  | some g => (g + 1) % 16
  | none => 0

/-- The item a lane job belongs to, if it is still held. -/
def State.jobItem (s : State) (j : LaneJob) : Option Item := s.sch.items.find? (fun it => it.handle == j.handle && it.gen == j.gen)

/-- The item held under a handle. -/
def State.item (s : State) (h : Nat) : Option Item := s.sch.items.find? (fun it => it.handle == h)

/-- Replaces the item of the same handle. -/
def State.setItem (s : State) (it : Item) : State :=
  { s with sch := { s.sch with items := s.sch.items.map (fun x => if x.handle = it.handle then it else x) } }

/-- The items that no earlier item of their key and no after-item holds back (R270). -/
def State.readyItems (s : State) : List Item :=
  (s.sch.items.foldl (fun (a : List Nat × List Item) it =>
    let blocked := it.key != 0 && a.1.contains it.key
    let waits := match it.after with
      | some (h, g) => s.itemHeld h g
      | none => false
    (it.key :: a.1, if blocked || waits then a.2 else a.2 ++ [it])) ([], [])).2

/-- A job of the item waits to be dispatched. -/
def Item.hasJob (it : Item) : Bool := !it.put.isEmpty || decide (it.next < it.count)

/-- Group `g` is shed. -/
def State.isShed (s : State) (g : Nat) : Bool := bit (s.rd SCH_STAT_SHED) g == 1

/-- The ready items of a group with a job to dispatch; firmware items of a shed group wait (R273). -/
def State.groupItems (s : State) (g : Nat) : List Item :=
  s.readyItems.filter (fun it => it.grp == g && it.typ != 3 && it.hasJob && !(it.typ == 7 && s.isShed g))

/-! ### The selection rule (R269) -/

/-- The weight in force; 0 acts as 1. -/
def State.weight (s : State) (g : Nat) : Nat := max 1 (s.rd (SCH_GRPW_W g))

/-- The pass of a group. -/
def State.pass (s : State) (g : Nat) : Nat := nth s.sch.pass g 0

def State.setPass (s : State) (g v : Nat) : State := { s with sch := { s.sch with pass := setNth s.sch.pass g v } }

/-- The least pass among groups. -/
def State.leastPass (s : State) (gs : List Nat) : Nat :=
  match gs with
  | [] => 0
  | g :: rest => rest.foldl (fun a k => min a (s.pass k)) (s.pass g)

/-- Groups that became ready take the least pass of the groups already ready. -/
def State.schSync (s : State) : State :=
  let now := (List.range 8).filter (fun g => !(s.groupItems g).isEmpty)
  let old := now.filter (fun g => bit s.sch.wasReady g == 1)
  let fresh := now.filter (fun g => bit s.sch.wasReady g == 0)
  let s := (fresh.foldl (fun (a : State × List Nat) g =>
    (if a.2.isEmpty then a.1 else a.1.setPass g (max (a.1.pass g) (a.1.leastPass a.2)), a.2 ++ [g])) (s, old)).1
  { s with sch := { s.sch with wasReady := maskOf 8 (fun g => now.contains g) } }

/-- The pass after a dispatch, brought down for all groups when the least ready one reaches 2^31. -/
def State.passStep (s : State) (g : Nat) : State :=
  let s := s.setPass g (s.pass g + 65536 / s.weight g)
  let least := s.leastPass ((List.range 8).filter (fun k => bit s.sch.wasReady k == 1))
  if least < 2 ^ 31 then s
  else { s with sch := { s.sch with pass := s.sch.pass.map (fun p => p - least) } }

/-- The job of an item for lane `l`: first the jobs put back, then the next one; a barred lane is taken only when no
other is in service (R274, R358, R361). -/
def State.pick (s : State) (it : Item) (l : Nat) : Option (Nat × Item) :=
  let sole := s.laneSole l
  if it.typ = 5 ∧ it.serial ≠ l then none
  else
    match it.put.find? (fun p => p.2 != some l || sole) with
    | some p => some (p.1, { it with put := it.put.filter (fun q => q != p), out := it.out + 1 })
    | none =>
      if it.next < it.count ∧ (sole ∨ !it.bars.contains (it.stage, it.next, l)) then
        some (it.next, { it with next := it.next + 1, out := it.out + 1 })
      else none

/-- Groups that hold evaluations. -/
def State.chainGroups (s : State) : List Nat := (List.range 8).filter (fun g => s.sch.items.any (fun it => it.grp == g && (it.typ == 1 || it.typ == 2)))

/-- What is dispatched next: the lowest free lane with a job, the group of the rule, its oldest ready item; in catch-up
the groups with evaluations come first (R269, R273). -/
def State.choose (s : State) : Option (Nat × Nat × Item) :=
  ((List.range 16).filter (fun l => s.laneIn l && (s.laneJob l).isNone)).findSome? (fun l =>
    let cand := (List.range 8).filterMap (fun g =>
      match (s.groupItems g).find? (fun it => (s.pick it l).isSome) with
      | some it => some (g, it)
      | none => none)
    let first := cand.filter (fun c => s.chainGroups.contains c.1)
    let cand := if s.is CCD_SPECSTAT_CATCHUP && !first.isEmpty then first else cand
    match cand with
    | [] => none
    | c :: rest =>
      let b := rest.foldl (fun a x => if s.pass x.1 < s.pass a.1 then x else a) c
      some (l, b.1, b.2))

/-- Puts the chosen job on its lane (R268, R269). -/
def State.dispatch (s : State) (l : Nat) (it : Item) : State :=
  match s.pick it l with
  | none => s
  | some (j, x) =>
    let x : Item := { x with began := some (x.began.getD s.mono), ran := if x.typ = 4 then x.ran ++ [(x.stage, j, l)] else x.ran }
    let s := ((s.setItem x).setLane l (some ⟨x.handle, x.gen, x.stage, j⟩)).gateOpen l
    ((s.cnt (SCH_DISP_COUNT it.grp)).passStep it.grp).schSync

/-! ### Queuing -/

/-- The stages of an item: one with no object at all still makes one job, which starts and ends it (DESIGN CHOICE, log 19). -/
def orOneJob (stages : List Nat) : List Nat := if stages.all (fun n => n == 0) then [1] else stages

/-- A new item of a hardware type takes the lowest free handle of 0–319 and joins the group of its type (R266, R267). -/
def State.newItem (s : State) (typ key serial : Nat) (after : Option (Nat × Nat)) (stages : List Nat) : Item :=
  let h := (s.freeHandle 0 320).getD 319
  ⟨h, s.nextGen h, typ, s.rd (SCH_MAP_GRP typ), key, serial, after, orOneJob stages, 0, 0, 0, [], none, [], []⟩

/-- The stage an item begins with: the first that has a job. -/
def Item.firstStage (it : Item) : Item := { it with stage := (it.stages.takeWhile (fun n => n == 0)).length }

/-- The item joins its group. -/
def State.queueItem (s : State) (it : Item) : State :=
  ({ s with sch := { s.sch with items := s.sch.items ++ [it.firstStage], gens := assocSet s.sch.gens it.handle it.gen } }).schSync

/-- Jobs of at most 64 consecutive objects (R268). -/
def jobsOf (n : Nat) : Nat := (n + 63) / 64

/-! ### Shedding (R273) -/

/-- The groups that may be shed, in the order of shedding: ascending weight, then the higher number. -/
def State.shedOrder (s : State) : List Nat :=
  let ok := (List.range 8).filter (fun g => bit (s.rd SCH_SHEDOK_OK) g == 1
    && [1, 2, 3, 4, 5, 7].any (fun t => s.rd (SCH_MAP_GRP t) == g) && [1, 2, 3].all (fun t => s.rd (SCH_MAP_GRP t) != g))
  ok.foldl (fun l g => l.takeWhile (fun k => decide (s.weight k < s.weight g)) ++ [g] ++ l.dropWhile (fun k => decide (s.weight k < s.weight g))) []

/-- The shed level rises to `n` on account of the evaluation of slot `serial`. -/
def State.shedTo (s : State) (n serial : Nat) : State :=
  let order := s.shedOrder
  let n := min n order.length
  let new := (order.take n).filter (fun g => !s.isShed g)
  let s := s.wr SCH_STAT_LEVEL n
  s.each new (fun s g =>
    let s := s.wr SCH_STAT_SHED (setBits (s.rd SCH_STAT_SHED) g 1 1)
    let s : State := { s with sch := { s.sch with wasShed := setBits s.sch.wasShed g 1 1 } }
    s.ev 0x7001 g (s.weight g) n serial)

/-- Catch-up ends: every group shed is restored. -/
def State.shedEnd (s : State) : State :=
  let m := s.sch.wasShed
  let s := (s.wr SCH_STAT_LEVEL 0).wr SCH_STAT_SHED 0
  let s := if m = 0 then s else s.ev 0x7002 m 0 0 0
  ({ s with sch := { s.sch with wasShed := 0 } } : State).schSync

/-- Removes an item; its jobs on lanes finish without effect. -/
def State.dropItem (s : State) (h : Nat) : State :=
  ({ s with sch := { s.sch with items := s.sch.items.filter (fun x => x.handle != h) } } : State).schSync

/-- An audit recomputation ends as skipped (R357, R359). -/
def State.auditDrop (s : State) (h reason : Nat) : State :=
  match s.red.audits.find? (fun a => a.handle == h) with
  | none => s
  | some a =>
    let s : State := { s with red := { s.red with audits := s.red.audits.filter (fun x => x.handle != h) } }
    s.audReport (leAt a.bytes 64 4) (leAt a.bytes 68 4) (leAt a.bytes 76 4) 6 reason a.align a.lanes none

/-- A sheddable item of a shed group is dropped when it would be dispatched. -/
def State.shedDrop (s : State) (it : Item) : State :=
  let s := (s.cnt SCH_SHEDDROP_COUNT).ev 0x7003 it.typ it.grp it.handle it.evSerial
  let s := s.dropItem it.handle
  if it.typ = 4 then s.auditDrop it.handle 4 else s

/-! ### Held dispatch (R275) -/

/-- Why dispatch to the lanes is held: 1 clock state, 2 no lane in service, 0 not held. -/
def State.holdCause (s : State) : Nat :=
  let st := s.rd CLK_STAT_STATE
  if st = 1 ∨ st = 4 then 1 else if s.rd CCD_LANES_COUNT = 0 then 2 else 0

/-- The hold follows its cause. -/
def State.holdCheck (s : State) : State :=
  if !s.on 4 then s
  else
    let c := s.holdCause
    let held := s.is SCH_STAT_HOLD
    if c ≠ 0 ∧ !held then
      let s : State := { s with sch := { s.sch with holdAt := some s.mono } }
      (s.wr SCH_STAT_HOLD 1).ev 0x7030 c 0 0 0
    else if c = 0 ∧ held then
      let us := s.usSince (s.sch.holdAt.getD s.mono)
      let s : State := { s with sch := { s.sch with holdAt := none } }
      (s.wr SCH_STAT_HOLD 0).ev 0x7031 us 0 0 0
    else s

/-! ### Lost lanes (R232, R274, R360, R361) -/

/-- The job on a lane is put back at the head of its item. -/
def State.putBack (s : State) (l : Nat) (bar : Option Nat) : State :=
  match s.laneJob l with
  | none => s
  | some j =>
    let s := s.setLane l none
    match s.jobItem j with
    | none => s
    | some it => (s.setItem { it with put := (j.job, bar) :: it.put, out := it.out - 1 }).schSync

/-- Slots still SPECULATED with a job completed on the lane since a time are marked dirty with cause 4 (R232); the number of
marks. -/
def State.laneDirty (s : State) (l since : Nat) : State × Nat :=
  let hit := s.ccd.ring.filter (fun e => e.2.st == 3 && !e.2.released &&
    (match assoc e.2.lanes l with
     | some t => decide (since ≤ t)
     | none => false))
  (s.each hit (fun s e => s.dirtyMark e.1 0xFFFF 4 0), hit.length)

/-- Lane `l` is fenced; `rerun` jobs of evaluations had already been put back. -/
def State.fence (s : State) (l since rerun : Nat) : State :=
  if !s.laneIn l then s
  else
    let s := (s.wr CCD_LANES_FENCED (setBits (s.rd CCD_LANES_FENCED) l 1 1)).wr CCD_LANES_COUNT (s.rd CCD_LANES_COUNT - 1)
    let n := b2n (s.laneJob l).isSome
    let evalJob := match s.laneJob l with
      | some j => (match s.jobItem j with
        | some it => b2n (it.typ == 1 || it.typ == 2)
        | none => 0)
      | none => 0
    let s := (s.putBack l none).cntN SCH_REQUEUE_COUNT n
    let s := s.ev 0x7011 l n (s.rd CCD_LANES_COUNT) 0
    let s := (s.cnt RED_FENCES_COUNT).ev 0xB031 l (s.rd CCD_LANES_COUNT) 2 0
    let (s, marks) := s.laneDirty l since
    ((s.ev 0x510A l marks (rerun + evalJob) 0).holdCheck).health

/-- A residue mismatch on lane `l`: counted, recorded, and the second within 1 s fences the lane. -/
def State.mismatch (s : State) (l typ serial job rerun : Nat) : State :=
  let s := (s.cnt RED_RES_CNT_COUNT).ev 0xB030 l typ serial job
  let last := assoc s.sch.mismatchAt l
  let s : State := { s with sch := { s.sch with mismatchAt := assocSet s.sch.mismatchAt l s.mono } }
  match last with
  | some t => if s.mono ≤ t + secU then s.fence l t rerun else s
  | none => s

/-- A job whose result failed its residue check goes back to its item, barred from the lane (R274). -/
def State.retry (s : State) (l : Nat) (it : Item) (j : LaneJob) : State :=
  let s := s.putBack l (some l)
  let s := (s.cnt SCH_RETRY_COUNT).ev 0x7010 l it.typ it.evSerial (it.jobNo j.job)
  s.mismatch l it.typ it.evSerial (it.jobNo j.job) (b2n (it.typ == 1 || it.typ == 2))

/-- A lane's gate is forced shut: its job is put back without a bar (R77, R274). -/
def State.laneForced (s : State) (l : Nat) : State :=
  match s.laneJob l with
  | none => s
  | some j =>
    match s.jobItem j with
    | none => s.setLane l none
    | some it => ((s.putBack l none).cnt SCH_REQUEUE_COUNT).ev 0x7012 l it.typ it.evSerial (it.jobNo j.job)

/-! ### Firmware jobs and self-tests (R266, R267, R270, R271) -/

/-- A submission is refused. -/
def State.subRefuse (s : State) (reason : Nat) : State :=
  let s := (s.wr SCH_SUB_STAT_OK 0).wr SCH_SUB_STAT_FULL (b2n (reason == 1 || reason == 2))
  (s.cnt SCH_REFUSED_COUNT).ev 0x7020 reason (if s.is SCH_SUB_W1_AFTER_EN then s.rd SCH_SUB_W1_AFTER else 0) 0 0

/-- Firmware entries of the delay list. -/
def State.dlyFw (s : State) : Nat := (s.sch.dly.filter (fun e => e.handle.isSome)).length

/-- The effect of SCH_SUB_CMD.GO. -/
def State.submit (s : State) : State :=
  let key := s.rd SCH_SUB_W0_KEY
  let delay := s.rd SCH_SUB_W2_DELAY
  if s.rd SCH_SUB_W0_TYPE ≠ 7 ∨ (key ≠ 0 ∧ key < 0x100) then s.subRefuse 3
  else
    match s.freeHandle 320 704 with
    | none => s.subRefuse 1
    | some h =>
      if delay ≠ 0 ∧ 1968 ≤ s.dlyFw then s.subRefuse 2
      else
        let a := s.rd SCH_SUB_W1_AFTER
        let named := s.is SCH_SUB_W1_AFTER_EN
        let free := !s.handleUsed a
        let s := if named && free then s.ev 0x7020 4 a 0 0 else s
        let g := s.nextGen h
        let it : Item := ⟨h, g, 7, s.rd (SCH_MAP_GRP 7), key, s.rd SCH_SUB_W3_JOB,
          if named && !free then some (a, s.rd SCH_SUB_W1_AGEN) else none, [1], 0, 0, 0, [], none, [], []⟩
        let s := (((s.wr SCH_SUB_STAT_HANDLE h).wr SCH_SUB_STAT_GEN g).wr SCH_SUB_STAT_OK 1).wr SCH_SUB_STAT_FULL 0
        if delay = 0 then s.queueItem it
        else ({ s with sch := { s.sch with gens := assocSet s.sch.gens h g } } : State).delayAdd (s.tai + delay * 1000 * nsU) (.fw it)

/-- FIRMWARE_SUBMIT: the management core writes SCH_SUB_CMD.GO (R267, R270, R271). -/
def execFirmwareSubmit (s : State) : Host.Outcome State Fault Refusal :=
  done s (s.accessW .mc SCH_SUB_CMD_GO.addr 1 (fun s => s.submit))

/-- SELF_TEST_DUE: every SCH_STEST.MS ms a self-test is queued for each lane in service that has none waiting (R266). -/
def execSelfTestDue (s : State) : Host.Outcome State Fault Refusal :=
  done s (if !s.up || !s.on 4 || !s.is SCH_STEST_MS then s
    else
      let due := s.sch.stestAt + s.rd SCH_STEST_MS * 1000000 * nsU
      let s := s.waitUntil due
      let s : State := { s with sch := { s.sch with stestAt := due } }
      s.each ((List.range 16).filter (fun l => s.laneIn l && !s.sch.items.any (fun it => it.typ == 5 && it.serial == l)))
        (fun s l => s.queueItem (s.newItem 5 0 l none [1])))

/-! ### The delay list (R271, R272) -/

/-- One entry is released. -/
def State.delayFire (s : State) (e : Dly) : State :=
  match e.what with
  | .fw it => s.queueItem { it with grp := s.rd (SCH_MAP_GRP 7) }
  | .timer d => s.dirTimer d
  | .pin _ => s.almPins
  | .send o => s.paceRelease o

/-- The first entry of the list is released. -/
def State.delayFirst (s : State) : State :=
  match s.sch.dly with
  | [] => s
  | e :: r => ({ s with sch := { s.sch with dly := r } } : State).delayFire e

/-- Every entry due is released, in the order of the list. -/
def State.delayDue (s : State) : State :=
  let due := s.sch.dly.filter (fun e => decide (e.due ≤ s.tai))
  s.each due (fun s e =>
    let s : State := { s with sch := { s.sch with dly := s.sch.dly.filter (fun x => x != e) } }
    s.delayFire e)

/-- DELAY_RELEASE: the first entry of the delay list falls due, and every entry due on that tick is released (R271). -/
def execDelayRelease (s : State) : Host.Outcome State Fault Refusal :=
  done s (match s.sch.dly with
    | [] => s
    | e :: _ => if !s.up || !s.on 4 then s else (s.advanceTo e.due).delayDue)

/-- A backward step moves every entry back by its size in units of the counter (R272), and with the entry of a stream the send times of
its further paced frames (R283). -/
def State.delayBack (s : State) (d sec ns : Nat) : State :=
  let n := s.sch.dly.length
  let s : State := { s with sch := { s.sch with dly := s.sch.dly.map (fun e => { e with due := e.due - d }) }, pub := { s.pub with paced := s.pub.paced.map (fun p => (p.1 - d, p.2)) } }
  if s.on 4 then s.ev 0x7021 sec ns n 0 else s

end Sys2Proof.Machine
end

