-- ==== Sys2Proof/Machine/Speculation.lean ====
section
/-! DEFINITION. The instants of the slot grid, the two chains of evaluation with their checkpoints, revisions, messages
and catch-up, and the abort of a slot (R183, R189–R198, R203, R208, R213–R231). What the spec leaves open here:
DEDUCED, log 19. -/

namespace Sys2Proof.Machine

/-! ### Credits (R229) -/

/-- The credits held are counted. -/
def State.credits (s : State) : State :=
  let n := (s.ccd.ring.filter (fun e => e.2.credit)).length
  let s := s.wr CCD_SPECSTAT_INFLIGHT n
  if s.rd CCD_INFL_MAX_MAX < n then s.wr CCD_INFL_MAX_MAX n else s

/-- The credit of a position is taken or returned. -/
def State.setCredit (s : State) (pos : Nat) (c : Bool) : State :=
  match s.slot pos with
  | none => s
  | some sl => (s.setSlot pos { sl with credit := c }).credits

/-! ### Checkpoints (R208, R219–R221) -/

/-- Enabled objects of a kind in a generation. -/
def enabledIn (g : RegFile) (n : Nat) (f : Nat → Field) : Nat := ((List.range n).filter (fun i => g.get (f i) == 1)).length

/-- The size of a checkpoint under a generation (R219). -/
def ckptSize (g : RegFile) : Nat :=
  let nodes := enabledIn g 4096 NOD_EN
  64 + 1080 * enabledIn g 1024 WAT_EN + 16 * enabledIn g 8192 DER_EN + 32 * enabledIn g 2048 ALM_EN
    + (if nodes = 0 then 0 else 8 * nodes + 4096)

/-- The checkpoint of the highest serial below one. -/
def newestBelow (l : List Ckpt) (serial : Nat) : Option Ckpt :=
  l.foldl (fun a c =>
    if !laterSerial serial c.serial then a
    else
      match a with
      | none => some c
      | some b => if laterSerial c.serial b.serial then some c else some b) none

/-- Where a subjunctive evaluation starts: the newest checkpoint held of either chain, I before S for one slot. -/
def State.startS (s : State) (serial : Nat) : Option Ckpt :=
  match newestBelow s.ccd.ckI serial, newestBelow s.ccd.ckS serial with
  | some i, some c => if laterSerial c.serial i.serial then some c else some i
  | some i, none => some i
  | none, c => c

/-- The bytes of SRAM the checkpoints take. -/
def State.ckptBytes (s : State) : Nat :=
  ((s.ccd.ckS.filter (fun c => !c.dram)) ++ s.ccd.ckI).foldl (fun a c => a + ckptSize c.st.vals) 0

/-- The oldest subjunctive checkpoint in SRAM leaves it: moved to DRAM, or dropped while PD6 is off (R221). -/
def State.spillOne (s : State) : State :=
  match (s.ccd.ckS.filter (fun c => !c.dram)).foldl (fun (a : Option Ckpt) c =>
      match a with
      | none => some c
      | some b => if laterSerial b.serial c.serial then some c else some b) none with
  | none => s
  | some c =>
    if s.on 6 then
      ({ s with ccd := { s.ccd with ckS := s.ccd.ckS.map (fun x => if x.serial = c.serial then { x with dram := true } else x) } } : State).gateOpen 17
    else { s with ccd := { s.ccd with ckS := s.ccd.ckS.filter (fun x => x.serial != c.serial), lost := c.serial :: s.ccd.lost.filter (fun k => k != c.serial) } }

/-- Checkpoints leave the SRAM until its 12 MiB hold the rest. -/
def State.spill (s : State) : State :=
  (List.range 128).foldl (fun s _ => if 12 * 2 ^ 20 < s.ckptBytes then s.spillOne else s) s

/-- Writes S of a slot. -/
def State.writeS (s : State) (c : Ckpt) : State :=
  ({ s with ccd := { s.ccd with ckS := s.ccd.ckS.filter (fun x => x.serial != c.serial) ++ [c], lost := s.ccd.lost.filter (fun k => k != c.serial) } } : State).spill

/-- Writes I of a slot: S of the slot and the I before the two newest are released. -/
def State.writeI (s : State) (c : Ckpt) : State :=
  let is := s.ccd.ckI.filter (fun x => x.serial != c.serial)
  let is := is.takeWhile (fun x => laterSerial c.serial x.serial) ++ [c] ++ is.dropWhile (fun x => laterSerial c.serial x.serial)
  ({ s with ccd := { s.ccd with ckI := is.drop (is.length - 2), ckS := s.ccd.ckS.filter (fun x => x.serial != c.serial),
                                lost := s.ccd.lost.filter (fun k => k != c.serial) } } : State).spill

/-! ### Items of evaluations (R266, R268) -/

/-- Jobs of the stages of a subjunctive evaluation. -/
def stagesS (g : RegFile) : List Nat :=
  if g.get ANA_CFG_EN = 0 then [1]
  else [jobsOf (enabledIn g 8192 DER_EN), jobsOf (enabledIn g 4096 NOD_EN + enabledIn g 8192 BRA_EN), jobsOf (enabledIn g 1024 WAT_EN),
    jobsOf ((List.range 2048).filter (fun d => g.get (ALM_EN d) == 1 && !almDirect (g.get (ALM_SOURCE d)))).length]

/-- Enabled mode-shape groups: one job each (R268). -/
def msGroups (g : RegFile) : Nat := enabledIn g 64 ANA_MS_CFG_EN

/-- Jobs of the stages of an indicative evaluation with `due` root extractions. -/
def stagesI (g : RegFile) (due : Nat) : List Nat :=
  match stagesS g with
  | [a, b, c, d] => [a, b, c, due, msGroups g, d]
  | l => l

/-- Slots whose credit is free have their indicative evaluation and their outlets queued, in serial order (R196, R229). -/
def State.indPump (s : State) : State :=
  (List.range 128).foldl (fun s _ =>
    match s.ccd.indQ with
    | [] => s
    | n :: rest =>
      match s.bySerial n with
      | none => { s with ccd := { s.ccd with indQ := rest } }
      | some (pos, sl) =>
        if sl.credit then s
        else
          let s : State := { s with ccd := { s.ccd with indQ := rest } }
          let s := s.setCredit pos true
          let it := s.newItem 2 2 n none [1]
          let s := s.queueItem it
          s.queueItem (s.newItem 3 3 n (some (it.handle, it.gen)) [1])) s

/-! ### The subjunctive chain (R208, R210, R214, R221, R224) -/

/-- The slot the subjunctive chain chooses. -/
def State.subChoice (s : State) : Option (Nat × Slot) :=
  oldestSlot s.ccd.ring (fun x => x.st == 3 && (x.new || x.dirty || x.chained))

/-- An evaluation starts from the reset state because the indicative checkpoints were lost, not as service starts: cause 5 (R208, R222). -/
def State.startAnew (s : State) (c : Option Ckpt) : Bool := c.isNone && s.ccd.indLost

/-- The slot chosen begins its evaluation: flags cleared, view taken, credit held, item queued. -/
def State.subStart (s : State) (pos : Nat) (sl : Slot) : State :=
  let v := s.subView sl
  let cols := sl.cols.map (fun p => (p.1, { p.2 with pred := ((assoc v.cols p.1).map (fun w => w.pred)).getD false }))
  let c := s.startS sl.serial
  let start := match c with
    | some k => k.st
    | none => anaReset
  let prev := (s.ccd.ckS.find? (fun k => k.serial == sl.serial)).map (fun k => k.crc)
  let e : Eval := ⟨sl.serial, if sl.new then 0 else 1, v, start, s.startAnew c, none, if sl.new then none else prev⟩
  let s := s.setSlot pos { sl with cols := cols, new := false, dirty := false, chained := false }
  let s : State := { s with ccd := { s.ccd with evS := some e } }
  let s := (s.setCredit pos true).wr CCD_SPECSTAT_SBUSY 1
  s.queueItem (s.newItem 1 1 sl.serial none (stagesS (s.gen sl.gen)))

/-- SUBJUNCTIVE_EVALUATION_START: the idle subjunctive chain takes the oldest slot that is new, dirty or chained; a slot at
revision 15 is final, and one whose predecessor checkpoint was dropped is not re-evaluated (R214, R221, R224). -/
def execSubjunctiveEvaluationStart (s : State) : Host.Outcome State Fault Refusal :=
  done s (if !s.up || !s.on 4 || s.ccd.evS.isSome then s
    else
      match s.subChoice with
      | none => s
      | some (pos, sl) =>
        let clear (s : State) : State := s.setSlot pos { sl with dirty := false, chained := false }
        if sl.credit then s
        else if sl.rev = some 15 ∧ !sl.new then clear s
        else if !sl.new ∧ s.ccd.lost.contains ((sl.serial + 2 ^ 32 - 1) % 2 ^ 32) then
          ((clear s).cnt CCD_NOREPLAY_COUNT).ev 0x5106 sl.serial 0 0 0
        else s.subStart pos sl)

/-! ### Catch-up (R230, R273) -/

/-- One slot period in units of the counter. -/
def State.periodU (s : State) : Nat := if s.rate = 0 then 0 else secU / s.rate

/-- The lag of a speculation that completes now, in units of the counter. -/
def State.lagOf (s : State) (sl : Slot) : Nat :=
  s.tai - ((sl.t + gEff (s.gen sl.gen) CCD_SPEC_DELAY * 1000) * nsU + s.periodU)

/-- A speculation has completed: lag, catch-up and its events. -/
def State.catchUp (s : State) (sl : Slot) : State :=
  let lag := s.lagOf sl
  let us := min (lag / (1000 * nsU)) (2 ^ 32 - 1)
  let s := s.wr CCD_LAG_US us
  let s := if s.rd CCD_LAG_MAX_US < us then s.wr CCD_LAG_MAX_US us else s
  let s := s.statUpdate 7 0 (us : Int) sl.serial
  if lag = 0 then
    if !s.is CCD_SPECSTAT_CATCHUP then s
    else
      let s := (s.wr CCD_SPECSTAT_CATCHUP 0).ev 0x5104 sl.serial s.ccd.catchN s.ccd.catchMax 0
      ({ s with ccd := { s.ccd with catchN := 0, catchMax := 0, lag16 := false } } : State).shedEnd
  else
    let s := if s.is CCD_SPECSTAT_CATCHUP then s
      else
        let s := (s.wr CCD_SPECSTAT_CATCHUP 1).ev 0x5103 sl.serial us 0 0
        s.shedTo 1 sl.serial
    let s : State := { s with ccd := { s.ccd with catchN := s.ccd.catchN + 1, catchMax := max s.ccd.catchMax us } }
    if 16 * s.periodU < lag && !s.ccd.lag16 then
      ({ s with ccd := { s.ccd with lag16 := true } } : State).ev 0x5105 sl.serial us 0 0
    else s

/-- An evaluation's time: reported, sampled, and in catch-up held against the target. -/
def State.evalTime (s : State) (e : Eval) (last greatest : Field) (qty : Nat) (inCatch : Bool) : State :=
  let d := s.mono - e.began.getD s.mono
  let us := min (d / (1000 * nsU)) 65535
  let s := s.wr last us
  let s := if s.rd greatest < us then s.wr greatest us else s
  let s := s.statUpdate qty 0 ((d / (1000 * nsU) : Nat) : Int) e.serial
  if inCatch && s.is CCD_SPECSTAT_CATCHUP && decide (s.eff CCD_CATCHUP_PCT * s.periodU < 100 * d) then
    s.shedTo (s.rd SCH_STAT_LEVEL + 1) e.serial
  else s

/-! ### Completion of a subjunctive evaluation (R215, R220, R223, R225) -/

/-- Definitions active in a result and inactive in the state it started from, with the revision (R225). -/
def subAlmUpdate (old : List (Nat × Nat × Nat)) (start : AnaState) (res : Res) (rev : Nat) : List (Nat × Nat × Nat) :=
  res.alm.foldl (fun l p =>
    if !p.2.act then l
    else
      match assoc l p.1 with
      | some (a, _) => assocSet l p.1 (a, rev)
      | none => if ((assoc start.alm p.1).map (fun a => a.act)).getD false then l else assocSet l p.1 (rev, rev)) old

/-- The results of a slot not yet frozen are published under their revision, or counted as unchanged. -/
def State.subPublish (s : State) (pos : Nat) (e : Eval) (res : Res) : State :=
  match s.slot pos with
  | none => s
  | some sl =>
    let crc := (Config.resultCrc (s.pubValues ⟨sl, s.gen sl.gen, e.view, res, true, 0⟩)).toNat
    if sl.pub == some crc then s.cnt CCD_SAME_COUNT
    else
      let rev := match sl.rev with
        | some r => min (r + 1) 15
        | none => 0
      let s := if rev = 0 then s else s.cnt CCD_REVPUB_COUNT
      let sl : Slot := { sl with rev := some rev, pub := some crc, subAlm := subAlmUpdate sl.subAlm e.start res rev }
      let s := s.setSlot pos sl
      let s := s.pubResults ⟨sl, s.gen sl.gen, e.view, res, true, rev⟩
      s.almPublish sl false res

/-- The successor is chained when the state left has changed and it has been evaluated (R214). -/
def State.chainNext (s : State) (serial : Nat) : State :=
  match s.bySerial ((serial + 1) % 2 ^ 32) with
  | some (pos, x) => if x.st = 3 ∧ x.view.isSome then s.setSlot pos { x with chained := true } else s
  | none => s

/-- A subjunctive evaluation has every job checked. -/
def State.subDone (s : State) (e : Eval) : State :=
  let s : State := ({ s with ccd := { s.ccd with evS := none } } : State).wr CCD_SPECSTAT_SBUSY 0
  match s.bySerial e.serial with
  | none => s
  | some (pos, sl) =>
    let g := s.gen sl.gen
    let (st, res) := EvCtx.evaluate ⟨s, g, sl, e.view, false⟩ e.start e.anew
    let inCatch := s.is CCD_SPECSTAT_CATCHUP
    let s := s.cntN ANA_NUMERR_COUNT res.numerr
    let s := if s.ccd.ckI.any (fun c => c.serial == e.serial) then s else s.writeS ⟨e.serial, 0, sl.rev.getD 0, sl.epoch, sl.gen, st.crc, st, false⟩
    let s := if e.prevS = some st.crc then s else s.chainNext e.serial
    let s := s.cnt (if e.kind = 0 then CCD_SPECCNT_COUNT else CCD_REEVAL_COUNT)
    let s := s.almRedefine sl.gen g e.start e.serial
    let s := if sl.st = 3 ∨ sl.st = 4 then s.subPublish pos e res else s
    let s := match s.slot pos with
      | some x => s.setSlot pos { x with view := some e.view }
      | none => s
    let s := s.evalTime e ANA_EVAL_S_US ANA_EVAL_S_MAX_US 5 inCatch
    let s := if e.kind = 0 then s.catchUp sl else s
    let s := s.heldMarkings pos
    (s.setCredit pos false).indPump

/-! ### The indicative chain (R208, R218, R222, R226) -/

/-- An indicative evaluation starts as its first job is dispatched: its start state, its view, its root extractions, and
the audit buffer's copy of I of the predecessor (R208, R356). -/
def State.indStart (s : State) (it : Item) : State :=
  match s.bySerial it.serial with
  | none => s
  | some (_, sl) =>
    let g := s.gen sl.gen
    let c := newestBelow s.ccd.ckI sl.serial
    let start := match c with
      | some k => k.st
      | none => anaReset
    let v := sl.plainView
    let anew := s.startAnew c
    let due := (EvCtx.evaluate ⟨s, g, sl, v, true⟩ start anew).2.extracted.length
    let again := s.ccd.redo.contains sl.serial
    let s : State := { s with ccd := { s.ccd with evI := some ⟨sl.serial, if again then 3 else 2, v, start, anew, some s.mono, none⟩ } }
    let s := (s.wr CCD_SPECSTAT_IBUSY 1).setItem ({ it with stages := orOneJob (stagesI g due) }).firstStage
    if again || !s.red.audSlots.contains sl.serial then s
    else if 48 ≤ s.red.audBufs.length + s.red.audits.length then s.audSkipHere sl 1
    else { s with red := { s.red with audBufs := s.red.audBufs ++ [sl.serial] } }

/-- Confirmations and retractions of a slot's subjunctive alarms, ahead of its indicative frames (R226, R260). -/
def State.indMessages (s : State) (sl : Slot) (p : PubIn) (res : Res) : State :=
  let ms := sl.subAlm.map (fun a =>
    let act := ((assoc res.alm a.1).map (fun r => r.act)).getD false
    (a.1, a.2.1, a.2.2, if res.withheld.contains a.1 then 3 else if act then 0 else 1))
  let (s, bs) := s.formMsgs sl ms
  let s := s.each (ms.filter (fun m => m.2.2.2 != 0)) (fun s m =>
    if assoc s.ana.latchBy m.1 = some (some sl.serial) then s.latchClear m.1 else s)
  s.pubMsgs p ((List.range 64).filter (fun o => sl.k % gEff p.g (OST_DIV o) == 0)) bs

/-- Cause 3: a column predicted in the last subjunctive evaluation ended MISSING. -/
def State.indDirty (s : State) (sl : Slot) : State :=
  match sl.view, s.bySerial ((sl.serial + 1) % 2 ^ 32) with
  | some v, some (pos, x) =>
    match v.cols.find? (fun w => w.2.pred && ((assoc sl.cols w.1).map (fun c => c.st)) == some 5) with
    | some w => if x.st = 3 ∧ x.view.isSome then s.dirtyMark pos w.1 3 0 else s
    | none => s
  | _, _ => s

/-- An indicative evaluation has every job checked. -/
def State.indDone (s : State) (e : Eval) : State :=
  let s : State := ({ s with ccd := { s.ccd with evI := none, redo := s.ccd.redo.filter (fun k => k != e.serial) } } : State).wr CCD_SPECSTAT_IBUSY 0
  match s.bySerial e.serial with
  | none => s
  | some (pos, sl) =>
    let g := s.gen sl.gen
    let (st, res) := EvCtx.evaluate ⟨s, g, sl, e.view, true⟩ e.start e.anew
    let inCatch := s.is CCD_SPECSTAT_CATCHUP
    let s := s.cntN ANA_NUMERR_COUNT res.numerr
    let s := s.writeI ⟨e.serial, 1, sl.rev.getD 0, sl.epoch, sl.gen, st.crc, st, false⟩
    let s : State := { s with ccd := { s.ccd with indLost := false } }
    let s := s.evalTime e ANA_EVAL_I_US ANA_EVAL_I_MAX_US 6 inCatch
    let s := if e.kind = 3 then s
      else
        let s := s.indDirty sl
        let p : PubIn := ⟨sl, g, e.view, res, false, sl.rev.getD 0⟩
        let s := s.almRedefine sl.gen g e.start e.serial
        let s := s.indMessages sl p res
        let s := s.pubResults p
        let s := s.showResults g e.serial st res
        let s := s.almPublish sl true res
        s.setSlot pos { sl with ind := some (e.view, res), indDone := true }
    (s.setCredit pos false).indPump

/-! ### Aborts (R107, R203, R206, R228) -/

/-- An open slot is aborted: its evaluation ends, its retractions are formed, and its position is free. -/
def State.abortSlot (s : State) (pos : Nat) (sl : Slot) (reason : Nat) : State :=
  let s := (s.cnt CCD_ABORTED_COUNT).ev 0x5001 sl.serial (sl.t / 1000000000) (sl.t % 1000000000) reason
  let mine (it : Item) : Bool := it.serial == sl.serial && it.typ == 1
  let s := s.each ((s.sch.items.filter mine).map (fun it => it.handle)) (fun s h => s.dropItem h)
  let s := match s.ccd.evS with
    | some e => if e.serial = sl.serial then ({ s with ccd := { s.ccd with evS := none } } : State).wr CCD_SPECSTAT_SBUSY 0 else s
    | none => s
  let s : State := { s with ccd := { s.ccd with ckS := s.ccd.ckS.filter (fun c => c.serial != sl.serial), discQ := s.ccd.discQ ++ [(sl.t, sl.epoch, 1, 1, sl.serial)] } }
  let ms := sl.subAlm.map (fun a => (a.1, a.2.1, a.2.2, 2))
  let (s, bs) := s.formMsgs sl ms
  let s := s.each ms (fun s m => if assoc s.ana.latchBy m.1 = some (some sl.serial) then s.latchClear m.1 else s)
  let s := s.pubAbort sl.serial
  let s := s.pubMsgs ⟨sl, s.gen sl.gen, ⟨[], [], []⟩, resEmpty, false, sl.rev.getD 0⟩ sl.subOuts bs
  let s := s.setSlot pos { sl with st := 6, released := true, credit := false, heldMarks := [] }
  (s.openCount.credits).almPins

/-! ### Slot instants (R88, R191) -/

/-- Slot points do not pass while the scheduler cannot dispatch (R201). -/
def State.pointsHeld (s : State) : Bool := s.holdCause != 0

/-- The instants that stand: value in ns, class (0 commit point, 1 speculation point) and position. -/
def State.pointList (s : State) : List (Nat × Nat × Nat) :=
  if s.pointsHeld then []
  else s.ccd.ring.filterMap (fun e =>
    let x := e.2
    if x.released then none
    else if x.st = 2 then (match x.specAt with
      | some t => some (t, 1, e.1)
      | none => some (x.commitAt, 0, e.1))
    else if x.st = 3 then some (x.commitAt, 0, e.1)
    else none)

/-- The first of the points in the order of R191; equal ones by serial. -/
def State.firstPoint (s : State) : Option (Nat × Nat × Nat) :=
  let serial (pos : Nat) : Nat := ((s.slot pos).map (fun x => x.serial)).getD 0
  s.pointList.foldl (fun a p =>
    match a with
    | none => some p
    | some b => if p.1 < b.1 ∨ (p.1 = b.1 ∧ (p.2.1 < b.2.1 ∨ (p.2.1 = b.2.1 ∧ laterSerial (serial b.2.2) (serial p.2.2)))) then some p else some b) none

/-- The next slot time in ns. -/
def State.nextSlotNs (s : State) : Nat := gridNs s.rate s.ccd.grid

/-- Slots run: service has started and PD4 is on. -/
def State.slotsRun (s : State) : Bool := s.up && s.on 4 && s.ccd.started && s.rate != 0

/-- SPECULATION_POINT: the next instant is a slot's speculation point (R191, R197). -/
def execSpeculationPoint (s : State) : Host.Outcome State Fault Refusal :=
  done s (if !s.slotsRun then s
    else
      match s.firstPoint with
      | some (t, 1, pos) =>
        if s.nextSlotNs < t then s
        else
          let s := s.advanceTo (t * nsU)
          match s.slot pos with
          | some sl => s.specPoint pos sl
          | none => s
      | _ => s)

/-- COMMIT_POINT: the next instant is a slot's commit point (R191); held slots whose commit point it is are skipped (R201). -/
def execCommitPoint (s : State) : Host.Outcome State Fault Refusal :=
  done s (if !s.slotsRun then s
    else
      match s.firstPoint with
      | some (t, 0, pos) =>
        if s.nextSlotNs < t then s
        else
          let s := s.advanceTo (t * nsU)
          match s.slot pos with
          | some sl => ((s.commitPoint pos sl).heldSkip.heldStat).arcFlush 0
          | none => s
      | _ => s)

/-- FREEZE: the oldest COMMITTING slot freezes once nothing stamped on or before C is left unread and every held marking is
made; `port` held it last. An audit slot is noted (R195, R196, R213, R356). -/
def execFreeze (port : Nat) (s : State) : Host.Outcome State Fault Refusal :=
  done s (if !s.slotsRun then s
    else
      match oldestSlot s.ccd.ring (fun x => x.st == 4) with
      | none => s
      | some (pos, sl) =>
        if !s.mayFreeze sl then s
        else
          let s := s.freeze pos sl port
          let audit := s.is RED_STAT_DRIVING && s.is RED_STAT_LINK && s.is RED_AUDIT_EN && sl.serial % 64 == s.rd RED_AUDIT_PHASE
          let s : State := if audit then { s with red := { s.red with audSlots := s.red.audSlots ++ [sl.serial] } } else s
          s.indPump)

/-! ### The grid setting (R183) -/

/-- CCD_CFG_WRITE: a write to CCD_CFG or CCD_TBASE is judged on the pair it would leave; a refused one changes nothing. -/
def execCcdCfgWrite (m : Master) (a : Access) (s : State) : Host.Outcome State Fault Refusal :=
  done s (if a.addr ≠ 0x70000 ∧ a.addr ≠ 0x70004 then s
    else s.accessW m a.addr a.data (fun s =>
      if a.addr = 0x70000 then
        if rateOk (bit a.data 0 == 1) (bits a.data 8 8) then (s.wr CCD_CFG_FSYS (bit a.data 0)).wr CCD_CFG_RATE (bits a.data 8 8)
        else s.ev 0x5061 a.addr a.data (mNum m) 0
      else if a.data % 2 ^ 24 = 0 then s.ev 0x5061 a.addr a.data (mNum m) 0
      else s.wr CCD_TBASE_TBASE (a.data % 2 ^ 24)))

end Sys2Proof.Machine
end

