-- ==== Sys2Proof/Machine/Lanes.lean ====
section
/-! DEFINITION. Dispatch, the completion of lane jobs, the commit outlets, audits on the standby, and a lane's return to
service (R198, R234, R266, R268, R269, R356–R361). What the spec leaves open here: DEDUCED, log 23. -/

namespace Sys2Proof.Machine

/-! ### Dispatch (R269, R273) -/

/-- The first job of an item makes its evaluation start (R208, R230). -/
def State.evalBegin (s : State) (it : Item) : State :=
  if it.began.isSome then s
  else if it.typ = 2 then s.indStart it
  else if it.typ = 1 then
    { s with ccd := { s.ccd with evS := s.ccd.evS.map (fun e => if e.serial = it.serial then { e with began := some s.mono } else e) } }
  else s

/-- One dispatch; items of shed groups are dropped on the way. -/
def State.dispatchOne (fuel : Nat) (s : State) : State :=
  match fuel with
  | 0 => s
  | n + 1 =>
    match s.choose with
    | none => s
    | some (l, _, it) =>
      if s.isShed it.grp && (it.typ == 4 || it.typ == 5) then State.dispatchOne n (s.shedDrop it)
      else
        let s := s.evalBegin it
        match s.item it.handle with
        | some x => s.dispatch l x
        | none => s

/-- JOB_DISPATCH: on the next core tick a free lane receives the first ready job of the group chosen by the pass rule (R268,
R269, R275). -/
def execJobDispatch (s : State) : Host.Outcome State Fault Refusal :=
  done s (if !s.up || !s.on 4 || s.holdCause != 0 then s else (s.ticks 1).dispatchOne 1025)

/-! ### Audit recomputation (R357, R358) -/

/-- The first 16 bytes of a result digest of the active unit in a snapshot. -/
def auditTheirs (bs : List Byte) : Nat := beAt bs (bs.length - 32) 16

/-- An audit ends with a result. -/
def State.auditEnd (s : State) (a : Audit) (result d : Nat) : State :=
  let s : State := { s with red := { s.red with audits := s.red.audits.filter (fun x => x.handle != a.handle) } }
  s.audReport (leAt a.bytes 64 4) (leAt a.bytes 68 4) (leAt a.bytes 76 4) result 0 a.align a.lanes (some (d / 2 ^ 64))

/-- A recomputation has every job checked: agreement, or a second run barred from the lanes of the first. -/
def State.auditDone (s : State) (it : Item) : State :=
  match s.red.audits.find? (fun a => a.handle == it.handle) with
  | none => s
  | some a =>
    let (k, s) := s.draw
    let d := Config.auditDigest a.bytes (genSnap s.regs) k % 2 ^ 128
    let a : Audit := { a with lanes := it.ran.foldl (fun m r => setBits m r.2.2 1 1) a.lanes }
    match a.first with
    | none =>
      if d = auditTheirs a.bytes then s.auditEnd a 0 d
      else
        let x := { s.newItem 4 4 it.serial none it.stages with bars := it.ran }
        let s : State := { s with red := { s.red with audits := s.red.audits.map (fun b => if b.handle = a.handle then { a with handle := x.handle, first := some (beBytes 16 d) } else b) } }
        s.queueItem x
    | some f => s.auditEnd a (if d = auditTheirs a.bytes then 3 else if beBytes 16 d = f then 4 else 5) d

/-- AUDIT_SNAPSHOT_RECEIVED: the standby checks a snapshot and queues its recomputation (R357). The header's four words are
little-endian at its start; record, directory and contents follow. -/
def execAuditSnapshotReceived (bytes : List Byte) (s : State) : Host.Outcome State Fault Refusal :=
  done s (if !s.zlOn || !s.is RED_STAT_LINK || !s.on 4 then s
    else
      let serial := leAt bytes 64 4
      let sec := leAt bytes 68 4
      let ns := leAt bytes 76 4
      let contents := slice bytes 8336 327680
      let states := (List.range 4096).map (fun c => toByte (leAt bytes (144 + 2 * c) 2 % 8))
      let d := beBytes 32 (Config.sha256 (leBytes 4 sec ++ slice bytes 72 2 ++ leBytes 4 ns ++ states ++ contents))
      let own := oldestSlot s.ccd.ring (fun x => x.st == 5 && x.t == (sec + leAt bytes 72 2 * 2 ^ 32) * 1000000000 + ns)
      let align := match own with
        | some (_, x) => (List.range 4).any (fun i => x.word (16 + i) != leAt bytes (64 + 64 + 4 * i) 4)
        | none => false
      if 48 ≤ s.red.audBufs.length + s.red.audits.length then s.audReport serial sec ns 6 3 align 0 none
      else if leAt bytes 12 4 != crc32c (bytes.drop 16) || bytes.length < 8336 + 327680 + 32
          || (d.take 16) != slice bytes (64 + 64) 16 then s.audReport serial sec ns 1 0 align 0 none
      else if leAt bytes 4 4 ≠ s.setCrc then s.audReport serial sec ns 2 0 align 0 none
      else
        let g := genSnap s.regs
        let due := (List.range 1024).filter (fun w => g.get (WAT_EN w) == 1 && rootDue g serial w)
        let x := s.newItem 4 4 serial none (stagesI g due.length)
        let s : State := { s with red := { s.red with audits := s.red.audits ++ [⟨x.handle, bytes, align, none, 0⟩] } }
        s.queueItem x)

/-! ### Completion of lane jobs (R234, R268) -/

/-- A slot remembers when a lane last completed a job of it (R232). -/
def State.laneMark (s : State) (serial l : Nat) : State :=
  match s.bySerial serial with
  | some (pos, sl) => s.setSlot pos { sl with lanes := assocSet sl.lanes l s.mono }
  | none => s

/-- An item has finished. -/
def State.itemDone (s : State) (it : Item) : State :=
  let s := s.dropItem it.handle
  match it.typ with
  | 1 => (match s.ccd.evS with
    | some e => if e.serial = it.serial then s.subDone e else s
    | none => s)
  | 2 => (match s.ccd.evI with
    | some e => if e.serial = it.serial then s.indDone e else s
    | none => s)
  | 4 => s.auditDone it
  | _ => s

/-- The next stage starts when the stage before it has every job checked; after the last the item has finished. -/
def State.stageStep (s : State) (it : Item) : State :=
  if !it.put.isEmpty || decide (it.next < it.count) || it.out != 0 then s.setItem it
  else
    let skip := ((it.stages.drop (it.stage + 1)).takeWhile (fun n => n == 0)).length
    let st := it.stage + 1 + skip
    if st < it.stages.length then (s.setItem { it with stage := st, next := 0 }).schSync
    else (s.setItem it).itemDone it

/-- A lane job completes: its result passes and counts for its item, or is flagged and runs again. -/
def State.jobComplete (s : State) (l : Nat) (flagged : Bool) : State :=
  match s.laneJob l with
  | none => s
  | some j =>
    match s.jobItem j with
    | none => s.setLane l none
    | some it =>
      if flagged then
        if it.typ = 5 then ((s.setLane l none).dropItem it.handle).mismatch l 5 0 (it.jobNo j.job) 0 else s.retry l it j
      else
        let s := s.setLane l none
        let s := if it.typ = 1 ∨ it.typ = 2 then s.laneMark it.serial l else s
        s.stageStep { it with out := it.out - 1 }

/-- LANE_JOB_COMPLETE: the job on a lane completes with its result checked (R232, R234, R268, R274, R360, R361). No lane runs in IRC-direct
(R71). -/
def execLaneJobComplete (lane : Nat) (flagged : Bool) (s : State) : Host.Outcome State Fault Refusal :=
  done s (if s.up && s.on 4 && s.rd CLK_STAT_STATE != 1 then s.jobComplete lane flagged else s)

/-! ### Commit outlets (R198, R266, R341, R356) -/

/-- The statistics outlet of a committed slot. -/
def State.slotStats (s : State) (sl : Slot) : State :=
  let s := s.each sl.cols (fun s p =>
    let c := p.2
    let s := if c.st = 2 then s.statUpdate 1 p.1 (((c.stamp : Int) - ((16 * sl.t : Nat) : Int)) / 16000) sl.serial else s
    let s := s.statUpdate 2 p.1 ((c.st : Nat) : Int) sl.serial
    if c.st = 2 then s.statUpdate 3 p.1 ((bits c.stat 6 3 : Nat) : Int) sl.serial else s)
  s.statUpdate 4 0 ((sl.hz : Nat) : Int) sl.serial

/-- The audit outlet: the snapshot is sent, or the audit is skipped because the link is down. -/
def State.auditOutlet (s : State) (sl : Slot) : State :=
  if !s.red.audSlots.contains sl.serial then s
  else
    let s : State := { s with red := { s.red with audBufs := s.red.audBufs.filter (fun k => k != sl.serial) } }
    if !s.is RED_STAT_LINK then s.audSkipHere sl 2
    else { s with red := { s.red with audSlots := s.red.audSlots.filter (fun k => k != sl.serial) } }

/-- The outlet item that runs, if one does. -/
def State.outlet (s : State) : Option Item := s.sch.items.find? (fun it => it.typ == 3 && it.began.isSome)

/-- OUTLET_START: the idle outlet port takes the next type 0x3 item and runs archive, audit and statistics in order (R266,
R275, R329, R341, R356). -/
def execOutletStart (s : State) : Host.Outcome State Fault Refusal :=
  done s (if !s.up || !s.on 4 || s.holdCause == 1 || s.outlet.isSome then s
    else
      match s.readyItems.find? (fun it => it.typ == 3) with
      | none => s
      | some it =>
        let s := s.setItem { it with began := some s.mono }
        match s.bySerial it.serial with
        | none => s
        | some (_, sl) => (((s.arcSlot sl).arcFeed).auditOutlet sl).slotStats sl)

/-- OUTLET_COMPLETE: the last outlet has finished with the slot; its position is released, its PRESENT columns enter the
predictor base, and a held slot opens (R198, R201, R211). -/
def execOutletComplete (s : State) : Host.Outcome State Fault Refusal :=
  done s (if !s.up || !s.on 4 then s
    else
      match s.outlet with
      | none => s
      | some it =>
        if s.cap.arcWait = some it.serial then s.arcFeed
        else
          let s := s.dropItem it.handle
          match s.bySerial it.serial with
          | some (pos, sl) => (s.release pos sl).arcFlush 0
          | none => s)

/-! ### A fenced lane's return (R361) -/

/-- LANE_UNFENCE: a write to RED_LANE_CMD with UNFENCE at 1 runs 64 self-tests on the lane, of which `fails` fail (R361). -/
def execLaneUnfence (m : Master) (v : Nat) (fails : Nat) (s : State) : Host.Outcome State Fault Refusal :=
  done s (s.accessW m 0xE0034 v (fun s =>
    let l := v % 16
    if bit v 8 = 0 ∨ s.laneIn l ∨ !s.on 4 then s
    else if fails = 0 then
      let s := (s.wr CCD_LANES_FENCED (setBits (s.rd CCD_LANES_FENCED) l 1 0)).wr CCD_LANES_COUNT (s.rd CCD_LANES_COUNT + 1)
      let s : State := { s with sch := { s.sch with mismatchAt := assocDel s.sch.mismatchAt l } }
      ((s.ev 0xB032 l (s.rd CCD_LANES_COUNT) 0 0).holdCheck).health
    else s.ev 0xB031 l (s.rd CCD_LANES_COUNT) fails 0))

end Sys2Proof.Machine
end

