-- ==== Sys2Proof/Machine/Acquisition.lean ====
section
/-! DEFINITION. Local acquisition: lanes, decimator, compensation FIR, synchronisation, gaps, detectors and status inputs
(R150–R166). What the spec leaves open here: DEDUCED, log 16. -/

namespace Sys2Proof.Machine

/-! ### Modulator edges and instants (R150, R155) -/

/-- The first MCLK edge at or after an instant of `mono`: edges lie 250 root cycles, 250/6 core ticks, apart. -/
def edgeAfter (m : Nat) : Nat := (6 * m + 250 * tickU - 1) / (250 * tickU)

/-- The first MCLK edge after an instant of `mono` (R160). -/
def edgeNext (m : Nat) : Nat := 6 * m / (250 * tickU) + 1

/-- When an edge comes, on `mono`. -/
def edgeTime (i : Nat) : Nat := i * 250 * tickU / 6

/-- The counter at an instant of `mono` near now. -/
def State.taiAt (s : State) (m : Nat) : Nat :=
  if s.mono ≤ m then s.tai + (m - s.mono) * s.inc / tickU else s.tai - (s.mono - m) * s.inc / tickU

/-- The counter value from which instant `n` of a second is due. -/
def instU (f : Nat) (p : Nat × Nat) : Nat := p.1 * secU + (p.2 * secU + f - 1) / f

/-- The first instant at or after a counter value. -/
def instFrom (f x : Nat) : Nat × Nat :=
  let n := (x % secU * f + secU - 1) / secU
  if n < f then (x / secU, n) else (x / secU + 1, 0)

/-- The instant after. -/
def instNext (f : Nat) (p : Nat × Nat) : Nat × Nat := if p.2 + 1 < f then (p.1, p.2 + 1) else (p.1 + 1, 0)

/-- Acquisition produces samples: PD3 on, enabled, the core clock on the reference (R150, R162). -/
def State.acqRuns (s : State) : Bool := s.up && s.on 3 && s.is ACQ_CFG_EN && s.rd CLK_STAT_STATE == 0

/-- PD3 is on. -/
def State.acqOn (s : State) : Bool := s.up && s.on 3

/-- The modulator clocks run: PD3 on, and the core clock on the reference (R150). -/
def State.mclkRuns (s : State) : Bool := s.acqOn && s.rd CLK_STAT_STATE == 0

/-- The modulators of lane `k` are clocked: MCLK `k`/4 runs and is not held low (R150). -/
def State.laneClk (s : State) (k : Nat) : Bool := s.mclkRuns && bit (s.rd ACQ_MCLK_EN) (k / 4) == 1

def State.lane (s : State) (k : Nat) : AcqLane := nth s.acq.lanes k acqLane0

def State.setAcqLane (s : State) (k : Nat) (l : AcqLane) : State := { s with acq := { s.acq with lanes := setNth s.acq.lanes k l } }

/-- A lane is enabled. -/
def State.laneEn (s : State) (k : Nat) : Bool := bit (s.rd ACQ_LANE_EN_EN) k == 1

/-- A lane delivers frames that count: enabled, locked, not in fault. -/
def State.laneGood (s : State) (k : Nat) : Bool := s.laneEn k && s.is (ACQ_L_STAT_LOCK k) && !s.is (ACQ_L_STAT_FAULT k)

/-- The decimator lengths of a lane in force. -/
def State.decLens (s : State) (k : Nat) : Nat × Nat × Nat := (s.eff (ACQ_L_DEC1_LEN k), s.eff (ACQ_L_DEC2_LEN k), s.eff (ACQ_L_DEC3_LEN k))

/-- ACQ_L*k*_GDLY from the lengths: half the sum less 3, in root cycles (R154). -/
def State.acqGdly (s : State) (k : Nat) : State :=
  let (a, b, c) := s.decLens k
  s.wr (ACQ_L_GDLY_GDLY k) ((a + b + c - 3) * 125)

/-- ACQ_STAT.RUN and GAP follow. -/
def State.acqStat (s : State) : State :=
  (s.wr ACQ_STAT_RUN (b2n (s.mclkRuns && s.is ACQ_MCLK_EN && (List.range 24).any (fun k => s.is (ACQ_L_STAT_LOCK k))))).wr ACQ_STAT_GAP (b2n (!s.acq.gaps.isEmpty))

/-! ### Gaps (R161) -/

/-- The gap record of the capture ring: its time is the last valid instant, with the epoch of that instant (R14, R318, R320). -/
def State.capGap (s : State) (g : AcqGap) (len fsec fn : Nat) : State :=
  s.capRecord 4 g.last.epoch g.last.sec (g.last.n * 1000000000 / g.last.rate)
    ([toByte g.cause] ++ zeros 3 ++ leBytes 4 g.lanes ++ leBytes 4 len ++ leBytes 4 fsec ++ leBytes 4 fn)

/-- A gap opens, unless the same cause already holds the same lanes. -/
def State.gapOpen (s : State) (cause lanes : Nat) : State :=
  match s.acq.lastValid with
  | none => s
  | some v =>
    if s.acq.gaps.any (fun g => g.cause == cause && g.lanes == lanes) then s
    else
      let g : AcqGap := ⟨cause, lanes, v, 0⟩
      let s : State := { s with acq := { s.acq with gaps := s.acq.gaps ++ [g] } }
      ((s.ev 0x4020 cause lanes (v.sec % 2 ^ 32) v.n).capGap g 0xFFFFFFFF 0 0).acqStat

/-- A gap closes at its first valid instant. -/
def State.gapClose (s : State) (g : AcqGap) (p : Nat × Nat) : State :=
  let s : State := { s with acq := { s.acq with gaps := s.acq.gaps.filter (fun x => x != g) } }
  ((s.ev 0x4021 g.lanes (p.1 % 2 ^ 32) p.2 g.count).capGap g g.count p.1 p.2).acqStat

/-- A gap of all lanes: every sample is GAP until a sync that is still to come has settled. -/
def State.gapAll (s : State) (cause : Nat) : State :=
  let s := s.gapOpen cause (s.rd ACQ_LANE_EN_EN)
  { s with acq := { s.acq with hold := true, await := true } }

/-! ### Synchronisation (R159, R160) -/

/-- A lane's stages and histories are reset on an edge. -/
def State.laneReset (s : State) (k e : Nat) : State :=
  let l := s.lane k
  s.setAcqLane k { l with hist := [], skip := e - s.acq.edge - 1, since := 0, dec := [], valid := 0, settled := false }

/-- The reset edge (R160): `src` 0 Tense, 1 SYNC_N, 2 command. -/
def State.syncReset (s : State) (src : Nat) : State :=
  let e := edgeNext s.mono
  let s := s.waitUntil (edgeTime e)
  let t := s.taiAt (edgeTime e)
  let s := if s.acq.hold || !s.is ACQ_CFG_EN then s else s.gapAll 5
  let s := s.each (List.range 24) (fun s k => s.laneReset k e)
  let s : State := { s with acq := { s.acq with hold := true, await := false } }
  let s := ((s.wr ACQ_STAT_ARMED 0).wr ACQ_STAT_SETTLING 1).wr ACQ_SYNC_SEC_SEC (secOf t)
  (s.wr ACQ_SYNC_NS_NS (nsOf t)).ev 0x4010 src (secOf t) (nsOf t) (s.rd ACQ_LANE_EN_EN)

/-- A sync is armed from now on: its source's next event performs it, SRC 0b10 at once where the modulator clocks run. -/
def State.syncArmNow (s : State) : State :=
  let s := s.wr ACQ_STAT_ARMED 1
  let s : State := { s with acq := { s.acq with armedAt := s.mono, armedSec := s.tai / secU } }
  if s.rd ACQ_SYNC_CFG_SRC = 2 && s.mclkRuns then s.syncReset 2 else s

/-- A sync is armed (R159); arming again has no effect. -/
def State.syncArm (s : State) : State := if !s.acqOn ∨ s.is ACQ_STAT_ARMED then s else s.syncArmNow

/-- Acquisition begins, or begins again as the modulator clocks start: the output instants run. -/
def State.acqBegin (s : State) : State :=
  if !s.acqOn || !s.is ACQ_CFG_EN then s
  else { s with acq := { s.acq with hold := true, await := true, next := some (s.acq.next.getD (instFrom s.acqRate s.tai)), edge := edgeAfter s.mono - 1 } }

/-- Acquisition or its domain is enabled: a sync is armed (R159). -/
def State.acqStart (s : State) : State := s.acqBegin.syncArm

/-- The modulator clocks start after a fail-over: the sync takes place at its source's next event (R159, R162). -/
def State.acqReturn (s : State) : State := if s.acqOn then s.acqBegin.syncArmNow else s

/-- A step of the Tense counter (R106, R107, R161): gap cause 2, a sync, and the instants go on from the stepped time. A sync that is
armed waits for the next top of a second as the counter now counts. -/
def State.acqStep (s : State) : State :=
  if !s.acqOn then s
  else
    let s : State := if s.acq.next.isNone then s
      else
        let s := s.gapAll 2
        { s with acq := { s.acq with next := some (instFrom s.acqRate s.tai) } }
    let s : State := { s with acq := { s.acq with armedSec := min s.acq.armedSec (s.tai / secU) } }
    s.syncArm

/-- Lanes whose modulators are no longer clocked lose lock (R150, R152, R161). -/
def State.lanesLost (s : State) (cause : Option Nat) : State :=
  s.each ((List.range 24).filter (fun k => s.is (ACQ_L_STAT_LOCK k) && !s.laneClk k)) (fun s k =>
    let l := s.lane k
    let s := s.setAcqLane k { l with ahead := [], settled := false, valid := 0 }
    let s := (s.wr (ACQ_L_STAT_LOCK k) 0).ev 0x4002 k 0 0 0
    match cause with
    | some c => if s.laneEn k && s.is ACQ_CFG_EN then s.gapOpen c (2 ^ k) else s
    | none => s)

/-- A fail-over: MCLK is held low and every lane loses lock (R161, R162). -/
def State.acqTrip (s : State) : State :=
  if !s.acqOn then s
  else
    let s := if s.is ACQ_CFG_EN then s.gapAll 1 else s
    (s.lanesLost none).acqStat

/-- ACQ_SYNC: a write of 1 arms a sync (R159). -/
def execAcqSync (m : Master) (s : State) : Host.Outcome State Fault Refusal :=
  done s (s.accessW m ACQ_SYNC_GO.addr 1 (fun s => s.syncArm))

/-- ACQ_SYNC_INSTANT: the top of a TAI second performs a sync armed under SRC 0b00 or 0b11 (R159). -/
def execAcqSyncInstant (s : State) : Host.Outcome State Fault Refusal :=
  done s (if !s.mclkRuns ∨ !s.is ACQ_STAT_ARMED ∨ s.rd ACQ_SYNC_CFG_SRC = 1 then s
    else (s.advanceTo ((s.acq.armedSec + 1) * secU)).syncReset 0)

/-- SYNC_N_EDGE: a falling edge of SYNC_N that has been low for 100 ns performs a sync armed under SRC 0b01 (R159). -/
def execSyncNEdge (s : State) : Host.Outcome State Fault Refusal :=
  done s (if !s.mclkRuns ∨ !s.is ACQ_STAT_ARMED ∨ s.rd ACQ_SYNC_CFG_SRC ≠ 1 then s else s.syncReset 1)

/-- SYNC_N_TIMEOUT: 2 s after arming without an edge, the Tense instant is used (R159). -/
def execSyncNTimeout (s : State) : Host.Outcome State Fault Refusal :=
  done s (if !s.mclkRuns ∨ !s.is ACQ_STAT_ARMED ∨ s.rd ACQ_SYNC_CFG_SRC ≠ 1 then s
    else
      let s := s.waitUntil (s.acq.armedAt + 2 * secU)
      let s := s.ev 0x4011 0 0 0 0
      (s.advanceTo ((s.tai + secU - 1) / secU * secU)).syncReset 0)

/-! ### Lanes (R152, R153) -/

/-- LANE_LOCK: 16 frames with a valid sync violation lock a lane, which resets its own stages; `rtd` is the fractional round
trip in root cycles (R152, R161). -/
def execLaneLock (k rtd : Nat) (s : State) : Host.Outcome State Fault Refusal :=
  done s (if 24 ≤ k ∨ !s.laneClk k ∨ s.is (ACQ_L_STAT_LOCK k) then s
    else
      let s := (s.wr (ACQ_L_STAT_LOCK k) 1).wr (ACQ_L_STAT_RTD k) rtd
      let s := s.setAcqLane k { s.lane k with ahead := [] }
      let s := s.laneReset k (edgeAfter s.mono)
      (s.ev 0x4001 k rtd 0 0).acqStat)

/-- LANE_LOCK_LOSS: 4 frames without sync lose the lock, and a gap opens (R152, R161). -/
def execLaneLockLoss (k : Nat) (s : State) : Host.Outcome State Fault Refusal :=
  done s (if !s.acqOn ∨ 24 ≤ k ∨ !s.is (ACQ_L_STAT_LOCK k) then s
    else
      let s := (s.wr (ACQ_L_STAT_LOCK k) 0).ev 0x4002 k 0 0 0
      let l := s.lane k
      let s := s.setAcqLane k { l with ahead := [], settled := false, valid := 0 }
      (if s.laneEn k && s.is ACQ_CFG_EN then s.gapOpen 3 (2 ^ k) else s).acqStat)

/-- LANE_FAULT_INTERVAL: a 1 ms interval of the counter ends; PARMAX or more parity errors put the lane in fault, fewer end
the fault (R153). The lane's stages start again when the fault ends. -/
def execLaneFaultInterval (k : Nat) (s : State) : Host.Outcome State Fault Refusal :=
  done s (if !s.acqOn ∨ 24 ≤ k then s
    else
      let ms := 1000000 * nsU
      let s := s.advanceTo (((assoc s.acq.msDone k).getD (s.tai / ms) + 1) * ms)
      let s : State := { s with acq := { s.acq with msDone := assocSet s.acq.msDone k (s.tai / ms) } }
      let l := s.lane k
      let s := s.setAcqLane k { l with perr := 0 }
      if s.eff ACQ_FAULT_PARMAX ≤ l.perr then
        if s.is (ACQ_L_STAT_FAULT k) then s
        else
          let s := (s.wr (ACQ_L_STAT_FAULT k) 1).ev 0x4003 k l.perr 0 0
          if s.laneEn k && s.is ACQ_CFG_EN then s.gapOpen 4 (2 ^ k) else s
      else if s.is (ACQ_L_STAT_FAULT k) then (s.wr (ACQ_L_STAT_FAULT k) 0).laneReset k (edgeAfter s.mono)
      else s)

/-- The frames of one lane since the last instant, oldest first: 8 channel bits and the parity bit each. A frame of bad parity
is replaced by the one before it (R151, R153); a frame is assigned to the edge RTD_CYC periods before its arrival (R152), and
the operand reaches three periods past the instant's edge. -/
def State.laneFrames (s : State) (k : Nat) (fs : List Nat) : State :=
  let l := s.lane k
  let r := fs.foldl (fun (a : List (Nat × Bool) × Nat × Nat) f =>
    let x := f / 512 ^ k % 512
    if popCount 9 x % 2 = 1 then ((x % 256, false) :: a.1, x % 256, a.2.2) else ((a.2.1, true) :: a.1, a.2.1, a.2.2 + 1)) ([], l.last, 0)
  let q := l.ahead ++ r.1.reverse
  let keep := 3 - s.rd (ACQ_L_CFG_RTD_CYC k)
  let now := q.take (q.length - keep)
  let use := now.drop l.skip
  let (a, b, c) := s.decLens k
  let s := s.cntN (ACQ_L_PARERR_COUNT k) r.2.2
  s.setAcqLane k { l with ahead := q.drop (q.length - keep), last := r.2.1, skip := l.skip - now.length, since := l.since + use.length,
                          hist := (use.reverse ++ l.hist).take (a + b + c + 256), perr := l.perr + r.2.2 }

/-! ### Decimator and FIR (R154, R157) -/

/-- A shift right with rounding to nearest, ties towards +∞. -/
def shrRound (i : Int) (sh : Nat) : Int := if sh = 0 then i else (i + ((2 ^ (sh - 1) : Nat) : Int)) / ((2 ^ sh : Nat) : Int)

/-- `n` outputs of a moving-average stage, newest first, from its inputs newest first; a stage just reset holds zeros. -/
def movingStage (len sh n : Nat) (xs : List (Int × Bool)) : List (Int × Bool) :=
  (List.range n).map (fun i =>
    let w := (xs.drop i).take len
    let v := shrRound (w.foldl (fun a x => a + x.1) 0) sh
    (satS 24 v, satS 24 v != v || w.any (fun x => x.2)))

/-- The decimator output of channel bit `b` of a lane. -/
def State.decimate (s : State) (k b : Nat) : Int × Bool :=
  let (l1, l2, l3) := s.decLens k
  let xs : List (Int × Bool) := (s.lane k).hist.map (fun f => (if bit f.1 b = 1 then 1 else -1, false))
  let y1 := movingStage l1 (s.rd (ACQ_L_DEC1_SH k)) (l2 + l3 - 1) xs
  let y2 := movingStage l2 (s.rd (ACQ_L_DEC2_SH k)) l3 y1
  nth (movingStage l3 (s.rd (ACQ_L_DEC3_SH k)) 1 y2) 0 (0, false)

/-- Taps and group delay of the active bank. -/
def State.ntap (s : State) : Nat := if s.is ACQ_FIR_SEL_ACTIVE then s.eff ACQ_FIRB_CFG_NTAP else s.eff ACQ_FIRA_CFG_NTAP
def State.firGdly (s : State) : Nat := if s.is ACQ_FIR_SEL_ACTIVE then s.rd ACQ_FIRB_CFG_GDLY else s.rd ACQ_FIRA_CFG_GDLY
def State.firCoef (s : State) (i : Nat) : Int := sint 20 (if s.is ACQ_FIR_SEL_ACTIVE then s.rd (ACQ_FIRB_C_COEF i) else s.rd (ACQ_FIRA_C_COEF i))

/-- The FIR output of channel bit `b`: the sum in 48 bits, rounded and saturated to 24. -/
def State.fir (s : State) (k b : Nat) : Int × Bool :=
  let xs := ((s.lane k).dec.take s.ntap).map (fun r => nth r b (0, false))
  let sum := (xs.foldl (fun (a : Int × Nat) x => (a.1 + s.firCoef a.2 * x.1, a.2 + 1)) (0, 0)).1
  let v := shrRound (sint 48 (uint 48 sum)) 18
  (satS 24 v, satS 24 v != v || xs.any (fun x => x.2))

/-- The longest run of at least `least` equal bits, newest first, any part of which lies in the first `w`. -/
def longRun (least w : Nat) (l : List Nat) (cur : Option (Nat × Nat × Nat)) (idx best : Nat) : Nat :=
  let close (best : Nat) : Nat :=
    match cur with
    | some (_, at0, n) => if least ≤ n ∧ at0 < w ∧ best < n then n else best
    | none => best
  match l with
  | [] => close best
  | b :: rest =>
    match cur with
    | some (c, at0, n) =>
      if c = b then longRun least w rest (some (c, at0, n + 1)) (idx + 1) best
      else longRun least w rest (some (b, idx, 1)) (idx + 1) (close best)
    | none => longRun least w rest (some (b, idx, 1)) (idx + 1) best

/-- The decimator output of a lane enters its FIRs once its windows hold only data after the reset (R160). -/
def State.laneDecimate (s : State) (k : Nat) : State :=
  let l := s.lane k
  let (a, b, c) := s.decLens k
  if l.since < a + b + c - 2 then s
  else
    let outs := (List.range 8).map (fun i => s.decimate k i)
    let v := l.valid + 1
    s.setAcqLane k { l with dec := (outs :: l.dec).take 64, valid := v, settled := l.settled || decide (s.ntap ≤ v) }

/-- A modulator overload of a channel in the frames that have just come (R153): its event after a clean second. -/
def State.overload (s : State) (c fresh : Nat) : State :=
  let k := c / 8
  let bs := (s.lane k).hist.map (fun f => bit f.1 (c % 8))
  let n := longRun (s.eff ACQ_FAULT_OVLRUN) fresh bs none 0 0
  if n = 0 then s
  else
    let clean := match assoc s.acq.ovlAt c with
      | some t => decide (t + secU ≤ s.mono)
      | none => true
    let s : State := { s with acq := { s.acq with ovlAt := assocSet s.acq.ovlAt c s.mono } }
    if clean then s.ev 0x4004 c n 0 0 else s

/-- The sample word of a channel (R156). -/
def State.sampleWord (s : State) (c : Nat) : Nat :=
  let k := c / 8
  let l := s.lane k
  if s.acq.hold || !s.laneGood k || !l.settled then 2 ^ 27
  else
    let y := s.fir k (c % 8)
    let (a, b, d) := s.decLens k
    let w := a + b + d - 2
    let ovl := longRun (s.eff ACQ_FAULT_OVLRUN) w (l.hist.map (fun f => bit f.1 (c % 8))) none 0 0 != 0
    let rpr := (l.hist.take w).any (fun f => f.2)
    uint 24 y.1 + b2n y.2 * 2 ^ 24 + b2n ovl * 2 ^ 25 + b2n rpr * 2 ^ 26

/-- The group delay G of lane `k` in 1/3072 ns (R167). -/
def State.laneG (s : State) (k : Nat) : Int :=
  ((s.rd (ACQ_L_GDLY_GDLY k) * 1280 + s.firGdly * (if s.is ACQ_CFG_RATE then 500000 else 1000000) : Nat) : Int)
    + sint 16 (s.rd (ACQ_L_CFG_TCOR k)) * 3072

/-! ### Sample words -/

/-- A sample word carries GAP. -/
def wGap (w : Nat) : Bool := bit w 27 == 1

/-- Its VALUE. -/
def wVal (w : Nat) : Int := sint 24 w

/-- It carries SAT, OVL or RPR. -/
def wFlag (w : Nat) : Bool := bits w 24 3 != 0

def Smp.word (x : Smp) (c : Nat) : Nat := nth x.words c (2 ^ 27)

/-- The newest valid values of a channel since its last GAP sample. -/
def State.validRun (s : State) (c : Nat) : List Int :=
  (s.acq.smp.takeWhile (fun x => !wGap (x.word c))).map (fun x => wVal (x.word c))

/-! ### Detectors (R163, R164) -/

/-- √(a ÷ b) rounded to the nearest integer. -/
def sqrtRatio (a b : Nat) : Nat :=
  let r := isqrtBits 128 (a / b)
  if (2 * r + 1) * (2 * r + 1) * b ≤ 4 * a then r + 1 else r

/-- Samples in one cycle of the system frequency. -/
def State.cycleSamples (s : State) : Nat := s.acqRate / (if s.is60 then 60 else 50)

/-- Largest magnitude of the newest `w` values. -/
def peakOf (w : Nat) (l : List Int) : Nat := (l.take w).foldl (fun a v => max a v.natAbs) 0

/-- RMS of the newest `w` values, over those there are. -/
def rmsOf (w : Nat) (l : List Int) : Nat :=
  let x := l.take w
  if x.isEmpty then 0 else sqrtRatio (x.foldl (fun a v => a + v.natAbs * v.natAbs) 0) x.length

/-- A value lies beyond its threshold: above it for a flag with `hi`, else below it. -/
def beyondThr (hi : Bool) (thr v : Nat) : Bool := if hi then decide (thr < v) else decide (v < thr)

/-- A detector flag changes (R164): it rises beyond its threshold, and falls once its value has come back past it by the hysteresis. -/
def flagTurns (hi up : Bool) (thr hyst new : Nat) : Bool :=
  let back := if hi then thr * (200 - hyst) else thr * (200 + hyst)
  if up then thr == 0 || (if hi then decide (200 * new ≤ back) else decide (back ≤ 200 * new)) else thr != 0 && beyondThr hi thr new

/-- Where a value crosses its threshold between two samples, in 1/256 of a period after the first. -/
def crossAt (thr old new : Nat) : Nat :=
  let d : Int := (new : Int) - (old : Int)
  let x : Int := (thr : Int) - (old : Int)
  if d = 0 then 256 else clamp 0 256 (roundDiv (x * 256 * (if d < 0 then -1 else 1)) d.natAbs).toNat

/-- The time in 1/16 ns of a crossing `fr`/256 of a period after the instant before `p`. -/
def State.detCross (s : State) (p : Nat × Nat) (fr : Nat) : Nat :=
  let f := s.acqRate
  p.1 * 16000000000 + p.2 * 16000000000 / f - (256 - fr) * 16000000000 / (256 * f)

/-- A flag of a channel changes with its crossing time. -/
def State.flagSet (s : State) (c i t16 : Nat) : State :=
  let up := bit (s.rd (ACQ_CH_CFG_FLAGS c)) i == 0
  let s := s.wr (ACQ_CH_CFG_FLAGS c) (setBits (s.rd (ACQ_CH_CFG_FLAGS c)) i 1 (b2n up))
  s.flagArrives 0x22 c i up t16

/-- A flag takes the value of a sample: rise and fall carry the time at which the value crossed the threshold, interpolated between the
two samples that straddle it (R164); a fall's crossing may lie before the last two samples. -/
def State.flagTest (s : State) (c i : Nat) (hi : Bool) (thr new : Nat) (old : Option Nat) (p : Nat × Nat) : State :=
  let up := bit (s.rd (ACQ_CH_CFG_FLAGS c)) i == 1
  let k := 4 * c + i
  let crosses := match old with
    | some o => beyondThr hi thr o != beyondThr hi thr new
    | none => false
  let now := s.detCross p (match old with
    | some o => if crosses then crossAt thr o new else 256
    | none => 256)
  let s : State := if crosses then { s with acq := { s.acq with cross := assocSet s.acq.cross k now } } else s
  if !flagTurns hi up thr (s.rd ACQ_DET_CFG_HYST) new then s
  else s.flagSet c i (if up then (assoc s.acq.cross k).getD now else now)

/-- e × (1 − 2^−D): the product, rounded down or up (R163; which way is open, log 16). -/
def envDecay (e d : Nat) : Nat :=
  let x := e * (2 ^ d - 1)
  x / 2 ^ d + (if x % 2 ^ d = 0 then 0 else b2n (Config.envUp e d))

/-- The three detectors of a channel take a valid sample. -/
def State.detect (s : State) (c : Nat) (p : Nat × Nat) : State :=
  let run := s.validRun c
  if !s.is (ACQ_CH_CFG_EN c) ∨ run.isEmpty then s
  else
    let n := s.cycleSamples
    let wp := n / 2
    let wr := s.eff ACQ_DET_CFG_RMS_CYC * n
    let pk := peakOf wp run
    let rms := rmsOf wr run
    let prev := run.drop 1
    let e0 := s.rd (ACQ_CH_ENV_VALUE c)
    let mag := (run.headD 0).natAbs
    let env := if prev.isEmpty then mag else max mag (envDecay e0 (s.eff ACQ_DET_CFG_DECAY))
    let s := ((s.wr (ACQ_CH_PK_VALUE c) pk).wr (ACQ_CH_RMS_VALUE c) rms).wr (ACQ_CH_ENV_VALUE c) env
    let test (s : State) (i : Nat) (hi ready : Bool) (thr new : Nat) (old : Option Nat) : State :=
      if ready then s.flagTest c i hi thr new old p else s
    let oldP := if wp ≤ prev.length then some (peakOf wp prev) else none
    let oldR := if wr ≤ prev.length then some (rmsOf wr prev) else none
    let s := test s 0 true (decide (wp ≤ run.length)) (s.rd (ACQ_CH_THR_PK_THR c)) pk oldP
    let s := test s 1 true (decide (wr ≤ run.length)) (s.rd (ACQ_CH_THR_RMSHI_THR c)) rms oldR
    let s := test s 2 false (decide (wr ≤ run.length)) (s.rd (ACQ_CH_THR_RMSLO_THR c)) rms oldR
    test s 3 false true (s.rd (ACQ_CH_THR_ENVLO_THR c)) env (if prev.isEmpty then none else some e0)

/-! ### What a GAP sample ends at once (R180–R182) -/

def lom0 : LomState := ⟨0, 0, 0, none⟩

def State.lom (s : State) (d : Nat) : LomState := nth s.phs.lom d lom0

def State.setLom (s : State) (d : Nat) (x : LomState) : State := { s with phs := { s.phs with lom := setNth s.phs.lom d x } }

/-- The channels of a loss-of-mains detector. -/
def State.lomChans (s : State) (d : Nat) : List Nat :=
  let c := s.rd (PHS_LOM_CFG_CH d)
  if s.is (PHS_LOM_CFG_SEQ d) then [c, c + 1, c + 2] else [c]

/-- A GAP sample of its source ends READY of a detector and of a monitor, and the points before it no longer count as consecutive with
those after it. -/
def State.gapSeen (s : State) (ws : List Nat) : State :=
  let gap (c : Nat) : Bool := wGap (nth ws c (2 ^ 27))
  let s := s.each ((List.range 8).filter (fun d => (s.lomChans d).any gap)) (fun s d =>
    (s.setLom d { s.lom d with rcRun := 0, vsRun := 0 }).wr (PHS_LOM_STAT_READY d) 0)
  s.each ((List.range 16).filter (fun m => gap (s.rd (PHS_SSO_CFG_CH m)))) (fun s m => s.wr (PHS_SSO_STAT_READY m) 0)

/-! ### Output instants (R155–R161) -/

/-- Lanes enabled and not valid now. -/
def State.lanesOut (s : State) : Nat := maskOf 24 (fun k => s.laneEn k && !(s.laneGood k && (s.lane k).settled))

/-- Settling ends when every lane that delivers frames has settled (R160): gaps of all lanes close, unless they await a sync still to come,
and a lane that is still out keeps a gap of its own. -/
def State.settle (s : State) (p : Nat × Nat) : State :=
  let ready := s.is ACQ_STAT_SETTLING && (List.range 24).any (fun k => s.laneGood k)
    && (List.range 24).all (fun k => !s.laneGood k || (s.lane k).settled)
  if !ready then s
  else
    let s := s.wr ACQ_STAT_SETTLING 0
    if s.acq.await then s else
    let s : State := { s with acq := { s.acq with hold := false } }
    let out := s.lanesOut
    let all := s.acq.gaps.filter (fun g => g.cause == 1 || g.cause == 2 || g.cause == 5 || (g.cause == 6 && 1 < popCount 24 g.lanes))
    let s := s.each all (fun s g => s.gapClose g p)
    s.each ((bitsSet 24 out).filter (fun k => !s.acq.gaps.any (fun g => g.lanes == 2 ^ k)))
      (fun s k => s.gapOpen (if s.is (ACQ_L_STAT_FAULT k) then 4 else 3) (2 ^ k))

/-- Gaps of single lanes close at the first instant at which the lane is valid. -/
def State.laneGaps (s : State) (p : Nat × Nat) : State :=
  if s.acq.hold then s
  else
    let out := s.lanesOut
    s.each (s.acq.gaps.filter (fun g => popCount 24 g.lanes == 1 && (bitsSet 24 g.lanes).all (fun k => bit out k == 0 && s.laneEn k))) (fun s g => s.gapClose g p)

/-- SATCH and SATCNT follow the sample words (R154). -/
def State.satMarks (s : State) (ws : List Nat) : State :=
  let s := s.each (List.range 192) (fun s c =>
    if bit (nth ws c 0) 24 = 1 then
      { (s.cnt (ACQ_L_SATCNT_COUNT (c / 8))) with acq := { s.acq with satAt := assocSet s.acq.satAt c s.mono } }
    else s)
  s.each (List.range 24) (fun s k => s.wr (ACQ_L_STAT_SATCH k) (maskOf 8 (fun b =>
    match assoc s.acq.satAt (8 * k + b) with
    | some t => decide (s.mono < t + secU)
    | none => false)))

/-- A selected bank takes effect for this sample (R158). -/
def State.bankSwap (s : State) (p : Nat × Nat) : State :=
  if s.rd ACQ_FIR_SEL_BANK = s.rd ACQ_FIR_SEL_ACTIVE then s
  else (s.wr ACQ_FIR_SEL_ACTIVE (s.rd ACQ_FIR_SEL_BANK)).ev 0x4013 (s.rd ACQ_FIR_SEL_BANK) (p.1 % 2 ^ 32) p.2 0

/-- The samples of an instant reach the capture engine; an instant at which every enabled lane stored is in a gap ends the
block (R319). -/
def State.capInstant (s : State) (p : Nat × Nat) (word : Nat) (ws : List Nat) : State :=
  let ls := (s.capChans.map (fun c => c / 8)).filter (fun k => s.laneEn k)
  if s.capChans.all (fun c => !s.laneEn (c / 8) || wGap (nth ws c (2 ^ 27))) && !ls.isEmpty then s.blockEnd
  else s.capSample p.1 p.2 word ws

/-- How many instants the part keeps: 2.56 s at 24 kS/s, the longest span a consumer looks back over. -/
def smpKeep : Nat := 61440

/-- SAMPLE_INSTANT: an output instant falls due; `frames` are the frames of all lanes, one number per MCLK period since the last
instant's edge and oldest first, lane *k* in bits 9*k* to 9*k* + 8 with its parity bit uppermost (R151–R164). -/
def State.sampleInstant (s : State) (p : Nat × Nat) (frames : List Nat) : State :=
  let f := s.acqRate
  let t := instU f p
  let s := s.advanceTo t
  let back := if s.inc = 0 then 0 else (s.tai - t) / s.inc
  let e := edgeAfter (s.mono - back * tickU)
  let s := s.waitUntil (edgeTime e)
  let delta := min 2047 ((s.taiAt (edgeTime e) - t) / 2 ^ 28)
  let run := s.acqRuns
  let s := s.bankSwap p
  let s := if run then s.each (List.range 24) (fun s k => if s.laneEn k && s.is (ACQ_L_STAT_LOCK k) then (s.laneFrames k frames).laneDecimate k else s) else s
  let s := if run then s.each (List.range 192) (fun s c => if s.laneEn (c / 8) && s.is (ACQ_L_STAT_LOCK (c / 8)) then s.overload c frames.length else s) else s
  let s : State := { s with acq := { s.acq with edge := e, next := some (instNext f p) } }
  let s := if run then (s.settle p).laneGaps p else s
  let ws := if run then (List.range 192).map (fun c => s.sampleWord c) else List.replicate 192 (2 ^ 27)
  let smp : Smp := ⟨p.1, p.2, s.epoch, s.quality, s.ircFlag, delta, (List.range 24).map (fun k => s.laneG k), ws⟩
  let valid := ws.any (fun w => !wGap w)
  let s : State := { s with acq := { s.acq with smp := (smp :: s.acq.smp).take smpKeep, lastValid := if valid then some ⟨p.1, p.2, f, s.epoch⟩ else s.acq.lastValid,
                                                gaps := s.acq.gaps.map (fun g => { g with count := g.count + 1 }) } }
  let s := s.satMarks ws
  let s := s.each (List.range 192) (fun s c => if wGap (nth ws c (2 ^ 27)) then s else s.detect c p)
  ((s.gapSeen ws).capInstant p (delta + smp.qual * 2048 + b2n smp.irc * 8192) ws).acqStat

def execSampleInstant (frames : List Nat) (s : State) : Host.Outcome State Fault Refusal :=
  done s (if !s.acqOn then s
    else
      match s.acq.next with
      | some p => s.sampleInstant p frames
      | none => s)

/-- FIR_BANK_SELECT: a write to ACQ_FIR_SEL.BANK; the swap comes with the next sample (R158). -/
def execFirBankSelect (m : Master) (bank : Nat) (s : State) : Host.Outcome State Fault Refusal :=
  done s (s.accessW m ACQ_FIR_SEL_BANK.addr bank (fun s => s.wr ACQ_FIR_SEL_BANK bank))

/-! ### Status inputs (R165, R166) -/

/-- The accepted level of input `i`. -/
def State.stiLevel (s : State) (i : Nat) : Bool := bit s.stiLevels i == 1

/-- The accepted levels as they stood at a stamp in 1/16 ns. -/
def State.stiAt (s : State) (t16 : Nat) : Nat := ((s.acq.stiLog.find? (fun e => decide (e.1 ≤ t16))).map (fun e => e.2)).getD s.stiLevels

def State.chattering (s : State) (i : Nat) : Bool :=
  (if i < 32 then bit (s.rd ACQ_STI_CHAT_LO_CHAT) i else bit (s.rd ACQ_STI_CHAT_HI_CHAT) (i - 32)) == 1

def State.setChatter (s : State) (i : Nat) (v : Bool) : State :=
  if i < 32 then s.wr ACQ_STI_CHAT_LO_CHAT (setBits (s.rd ACQ_STI_CHAT_LO_CHAT) i 1 (b2n v))
  else s.wr ACQ_STI_CHAT_HI_CHAT (setBits (s.rd ACQ_STI_CHAT_HI_CHAT) (i - 32) 1 (b2n v))

/-- A change is accepted with the stamp of its first sample, `ago` back in 1/16 ns and with the epoch, quality and IRC flag of that
instant (R14, R165): state, capture, alarm engine, event (R320). It counts among the changes of the present second (R166). -/
def State.stiChange (s : State) (i : Nat) (lvl : Bool) (ago : Nat) : State :=
  let m := s.asOf ago
  let t16 := stampOf (s.taiAsOf ago) - ago
  let sec := secOf s.tai
  let cnt := if s.acq.stiSec = sec then s.acq.stiCnt else []
  let s : State := { s with acq := { s.acq with stiSec := sec, stiCnt := assocSet cnt i ((assoc cnt i).getD 0 + 1) } }
  let old := s.stiLevels
  let s := if i < 32 then s.wr ACQ_STI_STATE_LO_STATE (setBits (s.rd ACQ_STI_STATE_LO_STATE) i 1 (b2n lvl))
    else s.wr ACQ_STI_STATE_HI_STATE (setBits (s.rd ACQ_STI_STATE_HI_STATE) (i - 32) 1 (b2n lvl))
  let log := if s.acq.stiLog.isEmpty then [(0, old)] else s.acq.stiLog
  let s : State := { s with acq := { s.acq with stiLog := ((t16, s.stiLevels) :: log).take 4096 } }
  let s := s.cnt ACQ_STI_CHGCNT_COUNT
  let s := if s.is CAP_CFG_STI_EN then
      s.capRecord 2 m.epoch (t16 / 16000000000) (t16 / 16 % 1000000000)
        ([toByte i, toByte (b2n lvl), toByte (m.qual + 4 * b2n m.irc)] ++ zeros 5)
    else s
  let s := if s.is (ACQ_STI_CFG_LOG i) then s.ev 0x4032 i (b2n lvl) (t16 / 16000000000) (t16 / 16 % 1000000000) else s
  (s.flagArrives 0x23 i 0 lvl t16).arcFlush 255

/-- The level of an input after INV (R165). -/
def State.stiIn (s : State) (i : Nat) (raw : Bool) : Bool := raw != s.is (ACQ_STI_CFG_INV i)

/-- More than CHAT_MAX accepted changes in a second of the counter make an input chatter (R166). -/
def State.stiChatter (s : State) (i : Nat) : State :=
  let n := (assoc s.acq.stiCnt i).getD 0
  let max := s.rd ACQ_STI_GCFG_CHAT_MAX
  if max ≠ 0 ∧ max < n then (s.setChatter i true).ev 0x4030 i n 0 0 else s

/-- STATUS_INPUT_ACCEPT: the level that is, after INV, opposite to the accepted one has held for DEB µs; its stamp is that of its
first sample (R165, R166). -/
def execStatusInputAccept (i : Nat) (s : State) : Host.Outcome State Fault Refusal :=
  done s (if !s.acqOn ∨ 64 ≤ i ∨ !s.is (ACQ_STI_CFG_EN i) ∨ s.chattering i then s
    else
      let s := s.waitUntil ((s.mono + 100 * nsU - 1) / (100 * nsU) * (100 * nsU))
      (s.stiChange i (!s.stiLevel i) (s.rd (ACQ_STI_CFG_DEB i) * 16000)).stiChatter i)

/-- CHATTER_END: the raw level of a chattering input has been stable for 1 s; a level that after INV differs from the held state is
accepted with the stamp of its first sample (R166). -/
def execChatterEnd (i : Nat) (raw : Bool) (s : State) : Host.Outcome State Fault Refusal :=
  done s (if !s.acqOn ∨ 64 ≤ i ∨ !s.chattering i then s
    else
      let level := s.stiIn i raw
      let s := s.setChatter i false
      if s.is (ACQ_STI_CFG_EN i) && s.stiLevel i != level then ((s.stiChange i level 16000000000).ev 0x4031 i (b2n level) 0 0).stiChatter i
      else s.ev 0x4031 i (b2n level) 0 0)

end Sys2Proof.Machine
end

