-- ==== Sys2Proof/Machine/Phasor.lean ====
section
/-! DEFINITION. Local phasors, frequency and ROCOF, home streams, loss-of-mains detectors and sub-synchronous monitors
(R167–R182). Times called τ are in 1/3072 ns of TAI: sample instants, edge offsets and group delays are whole in that
unit. What the spec leaves open here: DEDUCED, log 17. -/

namespace Sys2Proof.Machine

/-- One second in 1/3072 ns. -/
def secT : Nat := 3072000000000

/-- The system frequency in Hz. -/
def State.f0 (s : State) : Nat := if s.is60 then 60 else 50

/-- Effective time of a sample on a channel of lane `k` (R167). -/
def smpTau (f : Nat) (x : Smp) (k : Nat) : Int :=
  ((x.sec * secT + x.n * (secT / f) + x.delta * 192 : Nat) : Int) - nth x.g k 0

/-- A point of the 2,400/s grid. -/
def gridTau (p : Nat × Nat) : Int := ((p.1 * secT + p.2 * (secT / 2400) : Nat) : Int)

/-- τ of a slot grid point. -/
def slotTau (rate : Nat) (p : Nat × Nat) : Int := ((p.1 * secT + p.2 * (secT / rate) : Nat) : Int)

/-- The counter value of a τ, rounded up. -/
def tauU (t : Int) : Nat := ((t * ((2 ^ 32 : Nat) : Int) + 3071) / 3072).toNat

/-- The samples of a channel in the present epoch with lo ≤ τ < hi, oldest first; none if one is GAP or the span is not covered. -/
def State.chWin (s : State) (c : Nat) (lo hi : Int) : Option (List (Int × Nat)) :=
  let f := s.acqRate
  let ts : Int := ((secT / f : Nat) : Int)
  let xs := (s.acq.smp.filter (fun x => x.epoch == s.epoch)).map (fun x => (smpTau f x (c / 8), x.word c))
  let w := xs.filter (fun x => decide (lo ≤ x.1) && decide (x.1 < hi))
  if xs.any (fun x => decide (x.1 ≤ lo + ts)) && xs.any (fun x => decide (hi - ts ≤ x.1)) && w.all (fun x => !wGap x.2) then some w.reverse
  else none

/-- The window of a class (0 P, 1 M, 2 rectangular) `d` from its centre, at a length T (R169). -/
def window (cls T : Nat) (d : Int) : Int :=
  if cls = 0 then fxOne - 2 * fxRat ((d.natAbs : Nat) : Int) T
  else if cls = 1 then fxRat 54 100 + fxMul (fxRat 46 100) (fxCos (fxMul (2 * fxPi) (fxRat d T)))
  else fxOne

/-- The angle 2π·f0·τ (R168). -/
def carrier (f0 : Nat) (tau : Int) : Int := fxMul (2 * fxPi) (fxRat (((f0 : Nat) : Int) * tau % (secT : Int)) secT)

/-- The internal phasor of R168 at an instant `t`, from samples given by their times from it and VALUE: the formula's value, from which the
part's own arithmetic deviates by at most 0.05 % (R178; how it does is open). -/
def phasorSum (cls f0 T : Nat) (t : Int) (w : List (Int × Int)) : Cpx :=
  let sum := w.foldl (fun (a : Int × Int × Int) x =>
    let k := window cls T x.1 * x.2
    let th := carrier f0 (t + x.1)
    (a.1 + fxMul k (fxCos th), a.2.1 - fxMul k (fxSin th), a.2.2 + window cls T x.1)) (0, 0, 0)
  let re := fxDiv (fxMul fxSqrt2 sum.1) sum.2.2
  let im := fxDiv (fxMul fxSqrt2 sum.2.1) sum.2.2
  let b := (re.natAbs + im.natAbs) / 4000
  let d := Config.phasorDev cls (t % (secT : Int)) w
  (fOfFx (re + devWithin d.1 b), fOfFx (im + devWithin d.2 b))

/-- The internal phasor of a class (0 P, 1 M, 2 rectangular over the cycle before) at an instant (R168). -/
def State.phasorAt (s : State) (cls T c : Nat) (t : Int) : Option Cpx :=
  let h : Int := ((T / 2 : Nat) : Int)
  let lo := if cls = 2 then t - (T : Int) else t - h
  let hi := if cls = 2 then t else t + h
  (s.chWin c lo hi).map (fun w => phasorSum cls s.f0 T t (w.map (fun x => (x.1 - t, wVal x.2))))

/-- Window length and half-span of a class at a reporting rate (R169). -/
def State.classT (s : State) (m : Bool) (fr : Nat) : Nat :=
  if m then max (4 * secT / max 1 fr) (3 * secT / s.f0) else 2 * secT / s.f0
def State.classH (s : State) (m : Bool) (fr : Nat) : Nat := if m then s.classT m fr / 4 else secT / (4 * s.f0)

/-! ### Corrections and sequences (R170) -/

/-- e^(j·2π/3) and its square. -/
def seqA : Cpx := (0xBF000000, 0x3F5DB3D7)
def seqA2 : Cpx := (0xBF000000, 0xBF5DB3D7)

/-- Positive, negative or zero sequence of three phasors: kind 1, 2, 3. -/
def sequence (kind : Nat) (a b c : Cpx) : Option Cpx := do
  let b' ← if kind = 1 then cMul seqA b else if kind = 2 then cMul seqA2 b else some b
  let c' ← if kind = 1 then cMul seqA2 c else if kind = 2 then cMul seqA c else some c
  let z ← cAdd (← cAdd a b') c'
  return (← fDiv z.1 0x40400000, ← fDiv z.2 0x40400000)

/-- SCALE × e^(j·ANG·10⁻⁶) applied to a phasor; ANG beyond ±3,141,593 acts as the nearer limit. -/
def chScale (g : RegFile) (c : Nat) (z : Cpx) : Option Cpx := do
  let raw := sint 24 (g.get (PHS_CH_ANG_ANG c))
  let a := if raw < -3141593 then -3141593 else if 3141593 < raw then 3141593 else raw
  let th ← fOfRat a 1000000
  let k := g.get (PHS_CH_SCALE_SCALE c)
  cMul z (← fMul k (← fCos th), ← fMul k (← fSin th))

/-- The response of the window of class P or M of length T at an offset of `df` (R170): the transform of w, 1 at no offset (DEDUCED, log 17). -/
def windowResp (m : Bool) (T : Nat) (df : Int) : Int :=
  let x := df * (T : Int) / (secT : Int)
  if m then fxDiv (fxMul (fxRat 54 100) (fxSinc x) + fxMul (fxRat 23 100) (fxSinc (x - fxOne) + fxSinc (x + fxOne))) (fxRat 54 100)
  else fxMul (fxSinc (x / 2)) (fxSinc (x / 2))

/-- The magnitude response of a moving average of `n` modulator periods at a frequency. -/
def averageResp (n : Nat) (f : Int) : Int :=
  let x := f / 9600000
  let d := fxSin (fxMul fxPi x) * (n : Int)
  if d = 0 then fxOne else ((fxDiv (fxSin (fxMul fxPi (x * (n : Int)))) d).natAbs : Nat)

/-- The decimator's magnitude response at a frequency, 1 at 0 Hz. -/
def decimResp (l : Nat × Nat × Nat) (f : Int) : Int := fxMul (averageResp l.1 f) (fxMul (averageResp l.2.1 f) (averageResp l.2.2 f))

/-- The reported phasor of a channel at frequency `f` (R170). -/
def State.chPhasor (s : State) (g : RegFile) (cls T c : Nat) (t : Int) (f : Nat) : Option Cpx := do
  let x ← s.phasorAt cls T c t
  let r := fOfFx (fxMul (windowResp (cls == 1) T (fFx f - ((s.f0 : Nat) : Int) * fxOne)) (decimResp (s.decLens (c / 8)) (fFx f)))
  chScale g c (← fDiv x.1 r, ← fDiv x.2 r)

/-- An angle difference taken to (−π, π]. -/
def fxWrap (x : Int) : Int := let y := fxTurn x; if y = -fxPi then fxPi else y

/-- Angles unwrapped: each lies within half a turn of the one before. -/
def unwrapAngles (l : List Int) : List Int :=
  (l.foldl (fun (a : List Int) x =>
    match a with
    | [] => [x]
    | y :: _ => (y + fxWrap (x - y)) :: a) []).reverse

/-- The least-squares fit of R171 to phasors at `n` grid points on each side: frequency and ROCOF. The part's own arithmetic deviates by at
most 0.5 mHz, and 0.02 Hz/s in class P or 0.01 Hz/s in class M (R178; how it does is open). -/
def freqFit (m : Bool) (f0 n : Nat) (pts : List Cpx) : Nat × Nat :=
  let psi := (unwrapAngles (pts.map (fun z => fxAtan2 (fVal z.2) (fVal z.1)))).zipIdx.map (fun x => (((x.2 : Nat) : Int) - (n : Int), x.1))
  let sum (k : Nat) : Int := psi.foldl (fun a x => a + x.1 ^ k) 0
  let mom (k : Nat) : Int := psi.foldl (fun a x => a + x.1 ^ k * x.2) 0
  let b := mom 1 * 2400 / sum 2
  let c := (sum 0 * mom 2 - sum 2 * mom 0) * 5760000 / (sum 0 * sum 4 - sum 2 * sum 2)
  let d := Config.freqDev pts
  (fOfFx ((f0 : Int) * fxOne + fxDiv b (2 * fxPi) + devWithin d.1 (fxOne.toNat / 2000)),
    fOfFx (fxDiv c fxPi + devWithin d.2 (fxOne.toNat / (if m then 100 else 50))))

/-- Frequency and ROCOF at an instant from a channel or a positive sequence (R171). -/
def State.freqAt (s : State) (cls T H ch : Nat) (seq : Bool) (t : Int) : Option (Nat × Nat) :=
  let n := H / (secT / 2400)
  let at_ (u : Int) : Option Cpx :=
    if seq then do
      sequence 1 (← s.phasorAt cls T ch u) (← s.phasorAt cls T (ch + 1) u) (← s.phasorAt cls T (ch + 2) u)
    else s.phasorAt cls T ch u
  let pts := (List.range (2 * n + 1)).map (fun (i : Nat) => at_ (t + (((i : Nat) : Int) - ((n : Nat) : Int)) * ((secT / 2400 : Nat) : Int)))
  if pts.any (fun p => p.isNone) then none else some (freqFit (cls == 1) s.f0 n (pts.map (fun p => p.getD (0, 0))))

/-- A descriptor's phasor: kind 0 the channel, at its own frequency; else a sequence of three, at the home stream's (R170). -/
def State.phdPhasor (s : State) (g : RegFile) (cls T H kind c : Nat) (t : Int) (f : Nat) : Option Cpx := do
  if kind = 0 then
    s.chPhasor g cls T c t (← s.freqAt cls T H c false t).1
  else
    sequence kind (← s.chPhasor g cls T c t f) (← s.chPhasor g cls T (c + 1) t f) (← s.chPhasor g cls T (c + 2) t f)

/-- The frequency and ROCOF halves of a column (R138, R171). -/
def State.freqPair (s : State) (r : Nat × Nat) : Nat × Nat :=
  let df := (do fSub r.1 (← fOfInt s.f0))
  ((df.map (fun d => halfWord (fToInt d 1000))).getD 0x8000, if fBad r.2 then 0x8000 else halfWord (fToInt r.2 100))

/-! ### Home streams (R172–R177) -/

/-- The values in force for a slot time in ns (R177). -/
def State.phsVals (s : State) (t : Nat) : RegFile := ((s.phs.gens.find? (fun e => decide (e.1 ≤ t))).map (fun e => e.2)).getD s.regs

/-- Descriptor `i` of a home stream. -/
def phdOf (g : RegFile) (h i : Nat) : Nat := if i % 2 = 0 then g.get (HSM_PHDL h (i / 2)) else g.get (HSM_PHDH h (i / 2))

/-- Enabled descriptors as (kind, channel). -/
def phdsOf (g : RegFile) (h : Nat) : List (Nat × Nat) :=
  (List.range 16).filterMap (fun i => let d := phdOf g h i; if bit d 10 = 1 then some (bits d 8 2, bits d 0 8) else none)

/-- Channels that a home stream's frames are made of. -/
def homeChans (g : RegFile) (h : Nat) : List Nat :=
  let f := g.get (HSM_FCH h)
  (phdsOf g h).flatMap (fun d => if d.1 = 0 then [d.2] else [d.2, d.2 + 1, d.2 + 2])
    ++ (if g.get (HSM_FSEQ h) = 1 then [f, f + 1, f + 2] else [f])

/-- The reason an enabled entry is refused, 0 for none (R173). -/
def State.homeRefused (s : State) (h : Nat) : Nat :=
  let g := s.regs
  let div := gEff g (HSM_DIV h)
  let ph (e : Nat) : Nat × Nat := (g.get (HSM_PH_BASE e), (phdsOf g e).length)
  let an (e : Nat) : Nat × Nat := (g.get (HSM_AN_BASE e), 4 * popCount 16 (g.get (HSM_SSOMASK e)))
  let meets (a b : Nat × Nat) : Bool := a.2 != 0 && b.2 != 0 && decide (a.1 < b.1 + b.2) && decide (b.1 < a.1 + a.2)
  let others := (List.range 32).filter (fun e => e != h && g.get (HSM_EN e) == 1)
  let ctxs := (List.range 4096).filter (fun c => g.get (CTX_EN c) == 1)
  let fr := s.sysRate / div
  let col := g.get (HSM_COLUMN h)
  let badCh (kind c : Nat) : Bool := decide ((if kind = 0 then 191 else 189) < c)
    || (List.range (if kind = 0 then 1 else 3)).any (fun i => !s.laneEn ((c + i) / 8))
  if s.sysRate % div != 0 || !rateOk s.sys60 fr then 1
  else if decide (32768 < (ph h).1 + (ph h).2) || decide (8192 < (an h).1 + (an h).2)
    || others.any (fun e => meets (ph h) (ph e) || meets (an h) (an e))
    || ctxs.any (fun c => meets (ph h) (g.get (CTX_PH_BASE c), g.get (CTX_PH_CNT c)) || meets (an h) (g.get (CTX_AN_BASE c), g.get (CTX_AN_CNT c))) then 2
  else if others.any (fun e => g.get (HSM_COLUMN e) == col)
    || ctxs.any (fun c => decide (c < col) && decide (col ≤ c + g.get (CTX_NPMU c))) then 3
  else if (phdsOf g h).any (fun d => badCh d.1 d.2) || badCh (g.get (HSM_FSEQ h)) (g.get (HSM_FCH h)) then 4
  else if (phdsOf g h).isEmpty then 5
  else 0

/-- An accepted entry displaces the remote context of its column; a pair it was in is no longer in force (R173). -/
def State.homeDisplace (s : State) (h : Nat) : State :=
  let c := s.rd (HSM_COLUMN h)
  if !s.is (CTX_EN c) then s
  else
    let partner := s.rd (CTX_PARTNER c)
    let paired := s.is (CTX_PAIRED c) && s.is (CTX_EN partner) && s.is (CTX_PAIRED partner) && s.rd (CTX_PARTNER partner) == c
    let s := ((s.wrBoth (CTX_EN c) 0).ctxDescriptor c).ev 0x4111 h c 0 0
    if paired then s.ev 0x3042 c partner 0 0 else s

/-- The first reporting instant of a home stream after a slot grid point: at most a second of slots on. -/
def State.homeNext (s : State) (h : Nat) (p : Nat × Nat) : Option (Nat × Nat) :=
  let r := s.rate
  ((List.range r).map (fun i => gridStep r p (i + 1))).find? (fun q =>
    let g := s.phsVals (gridNs r q)
    g.get (HSM_EN h) == 1 && q.2 % (max 1 (gEff g (HSM_DIV h))) == 0)

/-- The home streams start anew at the first reporting instants from a slot grid point on. -/
def State.homeStart (s : State) (p : Nat × Nat) : State :=
  let r := s.rate
  let before : Nat × Nat := if r = 0 then p else if p.2 = 0 then (p.1 - 1, r - 1) else (p.1, p.2 - 1)
  let l := (List.range 32).filterMap (fun h => (s.homeNext h before).map (fun q => (h, q)))
  { s with phs := { s.phs with homeAt := l } }

/-- Residue mismatches of a unit outside the lanes: 16 estimator, 17 quantity engine (R360). -/
def State.resFlags (s : State) (unit n : Nat) : State :=
  s.each (List.range n) (fun s _ => (s.cnt RED_RES_CNT_COUNT).ev 0xB030 unit 0 0 0)

/-- The largest group delay of the lanes of some channels. -/
def State.maxG (s : State) (cs : List Nat) : Int :=
  match s.acq.smp with
  | x :: _ => (cs.map (fun c => nth x.g (c / 8) 0)).foldl max 0
  | [] => 0

/-- The time-quality part of STAT (R176). -/
def tqStat (tq : Nat) : Nat :=
  if tq ≤ 3 then 1 else if tq = 4 then 2 else if tq = 5 then 3 else if tq = 6 then 4 else if tq = 7 then 5 else if tq = 8 then 6 else 7

/-- STAT of a frame that is not missing. -/
def State.homeStat (s : State) (g : RegFile) (h : Nat) (lo hi : Int) : Nat :=
  let f := s.acqRate
  let inWin (k : Nat) (x : Smp) : Bool := let t := smpTau f x k; x.epoch == s.epoch && decide (lo ≤ t) && decide (t < hi)
  let cs := homeChans g h
  let flagged := cs.any (fun c => s.acq.smp.any (fun x => inWin (c / 8) x && wFlag (x.word c)))
  let poor := cs.any (fun c => s.acq.smp.any (fun x => inWin (c / 8) x && (x.qual != 0 || x.irc)))
  let changed := match assoc s.phs.changedAt h with
    | some t => decide (s.mono < t + 60 * secU)
    | none => false
  (if s.is PHS_CFG_TEST then 2 else b2n flagged) * 2 ^ 14 + b2n poor * 2 ^ 13 + b2n changed * 2 ^ 10 + tqStat s.tqCode * 64 + s.unlkCode * 16

/-- The frame of home stream `h` for a reporting instant (R172, R174–R176). -/
def State.homeFrame (s : State) (g : RegFile) (h : Nat) (p : Nat × Nat) (flagged : Bool) : Place :=
  let col := g.get (HSM_COLUMN h)
  let tns := gridNs s.rate p
  let t := slotTau s.rate p
  let m := g.get (HSM_CLASS h) == 1
  let fr := s.rate / max 1 (gEff g (HSM_DIV h))
  let T := s.classT m fr
  let H := s.classH m fr
  let lo := t - (H : Int) - ((T / 2 : Nat) : Int)
  let hi := t + (H : Int) + ((T / 2 : Nat) : Int)
  let cls := b2n m
  let base : Place := ⟨col, h, true, 2, 0, tns, stampOf s.tai, s.epoch, s.ircFlag, false, 0, 0xC000, 0x8000, 0x8000, [], [], true, 0, 0, s.quality⟩
  let mons := bitsSet 16 (g.get (HSM_SSOMASK h))
  let whole := !flagged && (homeChans g h).all (fun c => (s.chWin c lo hi).isSome) && mons.all (fun i => s.is (PHS_SSO_STAT_READY i))
  match (if whole then s.freqAt cls T H (g.get (HSM_FCH h)) (g.get (HSM_FSEQ h) == 1) t else none) with
  | none => base
  | some f =>
    let pair := s.freqPair f
    let phs := (phdsOf g h).map (fun d => (s.phdPhasor g cls T H d.1 d.2 t f.1).getD cMiss)
    let phE := (List.range phs.length).map (fun i => let z := nth phs i cMiss; (g.get (HSM_PH_BASE h) + i, (⟨col, z.1, z.2⟩ : PhEnt)))
    let vals := mons.flatMap (fun i => [s.rd (PHS_SSO_F1 i), s.rd (PHS_SSO_A1 i), s.rd (PHS_SSO_F2 i), s.rd (PHS_SSO_A2 i)])
    let anE := (List.range vals.length).map (fun i => (g.get (HSM_AN_BASE h) + i, (⟨col, nth vals i 0⟩ : AnEnt)))
    let dig := if g.get (HSM_DIG_EN h) = 1 then s.stiAt (tns * 16) / 2 ^ g.get (HSM_DIG_BASE h) % 65536 else 0
    { base with kind := 0, dig := dig, stat := s.homeStat g h lo hi, fq := pair.1, rc := pair.2, ph := phE, an := anE }

/-- Missing and whole again: PHS_HS_MISS, and what the events of the slot will name (R175). -/
def State.homeMiss (s : State) (h : Nat) (miss : Bool) (t : Nat) : State :=
  let was := bit (s.rd PHS_HS_MISS_MISS) h == 1
  let n := (assoc s.phs.missed h).getD 0
  let s := s.wr PHS_HS_MISS_MISS (setBits (s.rd PHS_HS_MISS_MISS) h 1 (b2n miss))
  let s : State := { s with phs := { s.phs with missed := assocSet s.phs.missed h (if miss then n + 1 else 0) } }
  let x := (assoc s.phs.missAt t).getD (0, 0, 0)
  if miss && !was then { s with phs := { s.phs with missAt := assocSet s.phs.missAt t (x.1 + 2 ^ h, x.2.1, x.2.2) } }
  else if was && !miss then { s with phs := { s.phs with missAt := assocSet s.phs.missAt t (x.1, x.2.1 + 2 ^ h, max x.2.2 n) } }
  else s

/-- The events of a slot name all the home streams affected, once every home stream has gone past it (R175). -/
def State.homeTell (s : State) : State :=
  let past (t : Nat) : Bool := s.phs.homeAt.all (fun h => decide (t < gridNs s.rate h.2))
  let ready := s.phs.missAt.filter (fun x => past x.1)
  let s : State := { s with phs := { s.phs with missAt := s.phs.missAt.filter (fun x => !past x.1) } }
  s.each ready (fun s x =>
    let t := x.1
    let s := if x.2.1 = 0 then s else s.ev 0x4101 x.2.1 (t / 1000000000) (t % 1000000000) 0
    if x.2.2.1 = 0 then s else s.ev 0x4102 x.2.2.1 (t / 1000000000) (t % 1000000000) x.2.2.2)

/-- Home streams are formed: PD3 on, PHS_CFG.EN. -/
def State.phsRuns (s : State) : Bool := s.up && s.on 3 && s.is PHS_CFG_EN

/-- HOME_STREAM_COMPLETE: the last sample the fit needs has been consumed; the frame is placed with the stamp of its
completion, taken at the bound of R174 with the group delay of its own lanes. `flags` counts the flagged results of its computation (R362). -/
def execHomeStreamComplete (h flags : Nat) (s : State) : Host.Outcome State Fault Refusal :=
  done s (if !s.phsRuns ∨ s.rate = 0 then s
    else
      match assoc s.phs.homeAt h with
      | none => s
      | some p =>
        let tns := gridNs s.rate p
        let g := s.phsVals tns
        let m := g.get (HSM_CLASS h) == 1
        let fr := s.rate / max 1 (gEff g (HSM_DIV h))
        let s := s.advanceTo (tauU (slotTau s.rate p + ((s.classH m fr + s.classT m fr / 2 : Nat) : Int) + s.maxG (homeChans g h)) + 53000 * nsU)
        let s := s.resFlags 16 (min flags 2)
        let pl := s.homeFrame g h p (decide (2 ≤ flags))
        let s : State := { s with phs := { s.phs with homeAt := (match s.homeNext h p with
          | some q => assocSet s.phs.homeAt h q
          | none => assocDel s.phs.homeAt h) } }
        let s := (s.homeMiss h (pl.kind == 2) tns).homeTell.wr (HSM_LASTSTAT h) pl.stat
        if s.on 4 then (s.place pl).arcFlush 255 else s)

/-! ### Loss of mains (R179–R181) -/

/-- The fast phasor of a detector at an instant, in engineering units. -/
def State.fastPhasor (s : State) (d : Nat) (t : Int) : Option Cpx :=
  let T := secT / s.f0
  let c := s.rd (PHS_LOM_CFG_CH d)
  let y (c : Nat) : Option Cpx := do chScale s.regs c (← s.phasorAt 2 T c t)
  if s.is (PHS_LOM_CFG_SEQ d) then do sequence 1 (← y c) (← y (c + 1)) (← y (c + 2)) else y c

/-- Grid points in a half-cycle. -/
def State.halfPts (s : State) : Nat := 1200 / s.f0

/-- The instant `j` grid points before. -/
def tauBack (t : Int) (j : Nat) : Int := t - ((j * (secT / 2400) : Nat) : Int)

/-- The fast frequency `j` grid points back (R179). -/
def State.fastFreq (s : State) (d : Nat) (t : Int) (j : Nat) : Option Nat := do
  let a ← cArg (← s.fastPhasor d (tauBack t j))
  let b ← cArg (← s.fastPhasor d (tauBack t (j + s.halfPts)))
  let f0 ← fOfInt s.f0
  let w ← fWrap (← fSub a b)
  fAdd f0 (← fDiv (← fMul w f0) fPi)

/-- The fast ROCOF `j` grid points back. -/
def State.fastRocof (s : State) (d : Nat) (t : Int) (j : Nat) : Option Nat := do
  let n := s.eff (PHS_LOM_RC_RC_WIN d)
  let a ← s.fastFreq d t j
  let b ← s.fastFreq d t (j + n * s.halfPts)
  fDiv (← fSub a b) (← fOfRat n (2 * s.f0))

/-- The vector shift `j` grid points back (R180). -/
def State.fastShift (s : State) (d : Nat) (t : Int) (j : Nat) : Option Nat := do
  let cyc := 2 * s.halfPts
  let a ← cArg (← s.fastPhasor d (tauBack t j))
  let b ← cArg (← s.fastPhasor d (tauBack t (j + cyc)))
  let f0 ← fOfInt s.f0
  let fs ← (List.range (10 * cyc)).mapM (fun i => s.fastFreq d t (j + cyc + i))
  let sum ← fs.foldlM (fun acc x => fAdd acc x) 0
  let fref ← fDiv sum (← fOfInt (10 * cyc))
  let k ← fDiv (← fMul f2Pi (← fSub fref f0)) f0
  fReduce (← fSub (← fSub a b) k)

/-- READY: 12 cycles plus W of valid history (R181). -/
def State.lomReady (s : State) (d : Nat) (t : Int) : Bool :=
  let span : Int := ((12 * (secT / s.f0) + s.eff (PHS_LOM_RC_RC_WIN d) * (secT / (2 * s.f0)) : Nat) : Int)
  decide ((s.lom d).since ≤ t - span) && (s.lomChans d).all (fun c => (s.chWin c (t - span) t).isSome)

/-- A threshold crossing between two values, in 1/256 from the first to the second. -/
def crossing (thr : Nat) (v0 v1 : Option Nat) : Nat :=
  match (do
    let a ← v0
    let b ← v1
    let x ← fDiv (← fSub thr a) (← fSub b a)
    return clamp 0 256 (fToInt x 256).toNat) with
  | some n => n
  | none => 256

/-- A crossing between grid points `back` and `back + 1` points ago, in 1/16 ns. -/
def crossTime (p : Nat × Nat) (back fr : Nat) : Nat :=
  p.1 * 16000000000 + p.2 * 16000000000 / 2400 - (back * 256 + 256 - fr) * 16000000000 / (2400 * 256)

/-- BLOCKED follows |Y| (R181). -/
def State.lomBlock (s : State) (d : Nat) (y : Nat) : State :=
  let b := fLt y (s.rd (PHS_LOM_VMIN_VMIN d))
  if b = s.is (PHS_LOM_STAT_BLOCKED d) then s else (s.wr (PHS_LOM_STAT_BLOCKED d) (b2n b)).ev 0x4122 d (b2n b) y 0

/-- The ROCOF flag at a grid point; it cannot rise while the detector is not READY or is BLOCKED (R179, R181). -/
def State.lomRocof (s : State) (d : Nat) (p : Nat × Nat) (t : Int) (ready : Bool) : State :=
  let up := s.is (PHS_LOM_STAT_RC d)
  let now16 := crossTime p 0 256
  if !s.is (PHS_LOM_CFG_RC_EN d) then
    (if up then (s.wr (PHS_LOM_STAT_RC d) 0).flagArrives 0x20 d 0 false now16 else s)
  else
    match s.fastRocof d t 0 with
    | none => s
    | some r =>
      let s := s.wr (PHS_LOM_VAL_ROCOF d) (uint 16 (satS 16 (fToInt r 100)))
      let thr := fLit (s.eff (PHS_LOM_RC_RC_THR d)) 100
      let q := fLe thr (fAbs r)
      let x := s.lom d
      let n := s.eff (PHS_LOM_RC_RC_N d)
      let run := if q = up then 0 else x.rcRun + 1
      if run < n ∨ (!up ∧ (!ready ∨ s.is (PHS_LOM_STAT_BLOCKED d))) then s.setLom d { x with rcRun := run }
      else
        let v (j : Nat) : Option Nat := (s.fastRocof d t j).map fAbs
        let t16 := crossTime p (run - 1) (crossing thr (v run) (v (run - 1)))
        let s := (s.setLom d { x with rcRun := 0 }).wr (PHS_LOM_STAT_RC d) (b2n (!up))
        let s := if up then s
          else (s.cnt (PHS_LOM_TRIPS_RC d)).ev 0x4120 d (i32 (fToInt r 100)) (t16 / 16000000000) (t16 / 16 % 1000000000)
        s.flagArrives 0x20 d 0 (!up) t16

/-- The vector-shift flag at a grid point (R180): it stays up for VS_HOLD ms from its rise, and every qualifying point extends it. -/
def State.lomShift (s : State) (d : Nat) (p : Nat × Nat) (t : Int) (ready : Bool) : State :=
  let up := s.is (PHS_LOM_STAT_VS d)
  if !s.is (PHS_LOM_CFG_VS_EN d) then
    (if up then ((s.setLom d { s.lom d with holdEnd := none }).wr (PHS_LOM_STAT_VS d) 0).flagArrives 0x21 d 0 false (crossTime p 0 256) else s)
  else
    match s.fastShift d t 0 with
    | none => s
    | some v =>
      -- degrees in 0.01: 18000 ÷ π
      let cdeg : Int := (do return fToInt (← fDiv v fPi) 18000).getD 0
      let s := s.wr (PHS_LOM_VAL_SHIFT d) (uint 16 (satS 16 cdeg))
      let thr := s.eff (PHS_LOM_VS_VS_THR d)
      let thrF := (do fDiv (← fMul (fLit thr 1) fPi) (fLit 18000 1)).getD 0
      let q := fLe thrF (fAbs v)
      let x := s.lom d
      let n := s.eff (PHS_LOM_VS_VS_N d)
      let stop := s.tai + s.eff (PHS_LOM_VS_VS_HOLD d) * 1000000 * nsU
      if up then (if q then s.setLom d { x with holdEnd := some stop } else s)
      else
        let run := if q then x.vsRun + 1 else 0
        if run < n ∨ !ready ∨ s.is (PHS_LOM_STAT_BLOCKED d) then s.setLom d { x with vsRun := run }
        else
          let w (j : Nat) : Option Nat := (s.fastShift d t j).map fAbs
          let t16 := crossTime p (run - 1) (crossing thrF (w run) (w (run - 1)))
          let s := (s.setLom d { x with vsRun := 0, holdEnd := some stop }).wr (PHS_LOM_STAT_VS d) 1
          let s := (s.cnt (PHS_LOM_TRIPS_VS d)).ev 0x4121 d (i32 cdeg) (t16 / 16000000000) (t16 / 16 % 1000000000)
          s.flagArrives 0x21 d 0 true t16

/-- The source of a detector is in a gap: its newest sample is GAP. -/
def State.lomGap (s : State) (d : Nat) : Bool :=
  match s.acq.smp with
  | x :: _ => (s.lomChans d).any (fun c => wGap (x.word c))
  | [] => true

/-- A detector at a grid point: in a gap values and flags hold; an update flagged twice is dropped (R181, R362). -/
def State.lomPoint (s : State) (d flags : Nat) (p : Nat × Nat) : State :=
  let t := gridTau p
  let s := s.resFlags 16 (min flags 2)
  let gap := s.lomGap d
  let ready := !gap && s.lomReady d t
  let s := s.wr (PHS_LOM_STAT_READY d) (b2n ready)
  if 2 ≤ flags ∨ gap then s
  else
    let s := match (s.fastPhasor d t).bind cAbs with
      | some y => s.lomBlock d y
      | none => s
    (s.lomRocof d p t ready).lomShift d p t ready

/-- Channels that the detectors in use take their samples from. -/
def State.lomLanes (s : State) : List Nat :=
  ((List.range 8).filter (fun d => s.is (PHS_LOM_CFG_RC_EN d) || s.is (PHS_LOM_CFG_VS_EN d))).flatMap s.lomChans

/-- A monitor is READY once 2 s of valid history lie behind an instant (R182). -/
def State.ssoReady (s : State) (m : Nat) (t : Int) : Bool :=
  let lo := t - ((2 * secT : Nat) : Int)
  decide ((nth s.phs.sso m ⟨0, 0, 0⟩).since ≤ lo) && (s.chWin (s.rd (PHS_SSO_CFG_CH m)) lo t).isSome

/-- PHASOR_GRID_POINT: the next point of the 2,400/s grid; `flags` counts the flagged results of each detector (R168, R179–R181). -/
def execPhasorGridPoint (flags : List Nat) (s : State) : Host.Outcome State Fault Refusal :=
  done s (if !s.phsRuns then s
    else
      let p := s.phs.grid.getD (instFrom 2400 s.tai)
      let s := s.advanceTo (tauU (gridTau p + s.maxG s.lomLanes) + 53000 * nsU)
      let s : State := { s with phs := { s.phs with grid := some (instNext 2400 p) } }
      let s := s.wr PHS_STAT_RUN (b2n s.acqRuns)
      let s := s.each (List.range 8) (fun s d => s.lomPoint d (nth flags d 0) p)
      s.each ((List.range 16).filter (fun m => s.is (PHS_SSO_CFG_EN m) && !s.is (PHS_SSO_STAT_READY m))) (fun s m =>
        s.wr (PHS_SSO_STAT_READY m) (b2n (s.ssoReady m (gridTau p)))))

/-- VS_HOLD_EXPIRY: VS_HOLD ms after the last qualifying point the vector-shift flag falls (R180); during a gap it holds (R181). -/
def execVsHoldExpiry (d : Nat) (s : State) : Host.Outcome State Fault Refusal :=
  done s (if !s.phsRuns ∨ 8 ≤ d ∨ !s.is (PHS_LOM_STAT_VS d) ∨ s.lomGap d then s
    else
      match (s.lom d).holdEnd with
      | none => s
      | some e =>
        let s := s.advanceTo e
        let s := (s.setLom d { s.lom d with holdEnd := none, vsRun := 0 }).wr (PHS_LOM_STAT_VS d) 0
        s.flagArrives 0x21 d 0 false (stampOf e))

/-! ### Sub-synchronous monitors (R182) -/

def State.ssoOf (s : State) (m : Nat) : SsoState := nth s.phs.sso m ⟨0, 0, 0⟩

def State.setSso (s : State) (m : Nat) (x : SsoState) : State := { s with phs := { s.phs with sso := setNth s.phs.sso m x } }

/-- √2·|X|·cos(2πf0τ + arg X): the fundamental at τ from the P-class phasors on either side of it, their magnitude and angle interpolated
linearly; `fr` is how far τ lies from the first, in units of 2^-256 of a grid period (R182, step 1). -/
def fundamental (f0 : Nat) (tau : Int) (a b : Cpx) (fr : Int) : Int :=
  let ma := fxHypot (fFx a.1) (fFx a.2)
  let mb := fxHypot (fFx b.1) (fFx b.2)
  let pa := fxAtan2 (fVal a.2) (fVal a.1)
  let pb := fxAtan2 (fVal b.2) (fVal b.1)
  let mag := ma + fxMul (mb - ma) fr
  let ang := pa + fxMul (fxWrap (pb - pa)) fr
  fxMul fxSqrt2 (fxMul mag (fxCos (carrier f0 tau + ang)))

/-- Bin `k` of the 960-point Hann-windowed DFT: its magnitude as an RMS value (R182, step 3). -/
def hannBin (y : List Int) (k : Nat) : Int :=
  let z := y.zipIdx.foldl (fun (a : Int × Int) x =>
    let w := (fxOne - fxCos (fxMul (2 * fxPi) (fxRat (x.2 : Nat) 960))) / 2
    let th := fxMul (2 * fxPi) (fxRat ((k * x.2 % 960 : Nat) : Int) 960)
    (a.1 + fxMul (fxMul w x.1) (fxCos th), a.2 - fxMul (fxMul w x.1) (fxSin th))) (0, 0)
  fxMul fxSqrt2 (fxHypot z.1 z.2) / 480

/-- The largest peak among bins, refined by parabolic interpolation: frequency and magnitude; `far` says which frequencies count. -/
def topPeak (mags : List (Nat × Int)) (far : Int → Bool) : Option (Int × Int) :=
  let at_ (k : Nat) : Int := (assoc mags k).getD 0
  let peaks := mags.filterMap (fun p =>
    let a := at_ (p.1 - 1)
    let b := p.2
    let c := at_ (p.1 + 1)
    if b ≤ 0 ∨ b ≤ a ∨ b < c then none
    else
      let d := fxDiv (a - c) (2 * (a - 2 * b + c))
      some (((p.1 : Nat) * fxOne + d) / 2, b - fxMul (a - c) d / 4))
  (peaks.filter (fun p => far p.1)).foldl (fun (x : Option (Int × Int)) p =>
    match x with
    | some q => if q.2 < p.2 then some p else some q
    | none => some p) none

/-- F1, A1, F2 and A2 of a monitor at an instant (R182): `smp` its samples of 2 s as times and VALUE, oldest first, `ph` the P-class phasors
`j` grid points before the instant, of which the nearest formed one stands in for one that is not yet formed. The filter's coefficients are
open within the limits of step 2; the band's edges are whole bins, a peak is above its neighbours, and A1 and A2 are in % of the newest
phasor's magnitude (DEDUCED, log 17). -/
def ssoPeaks (f0 rate : Nat) (t : Int) (smp : List (Int × Int)) (ph : Nat → Option Cpx) : List Nat :=
  let step : Int := ((secT / 2400 : Nat) : Int)
  let newest := ((List.range 4900).filterMap ph).headD (0, 0)
  let res := smp.map (fun x =>
    let j := ((t - x.1) / step).toNat
    let b := (ph j).getD newest
    let a := (ph (j + 1)).getD b
    x.2 * fxOne - fundamental f0 x.1 a b (fxRat (x.1 - (t - ((j + 1 : Nat) : Int) * step)) (secT / 2400)))
  let n := rate / 480
  let taps := Config.ssoTaps rate
  let y := (List.range 960).map (fun i =>
    (taps.zip ((res.take ((i + 1) * n)).reverse)).foldl (fun a x => a + x.1 * x.2 / ((2 ^ 30 : Nat) : Int)) 0)
  let top := if f0 = 60 then 110 else 90
  let mags := (List.range (top + 1)).map (fun i => (i + 9, hannBin y (i + 9)))
  let inBand := mags.filter (fun p => decide (10 ≤ p.1) && decide (p.1 ≤ top))
  let fund := fxHypot (fFx newest.1) (fFx newest.2)
  let pct (a : Int) : Nat := if fund = 0 then 0 else fOfFx (fxDiv (100 * a) fund)
  match topPeak inBand (fun _ => true) with
  | none => [0, 0, 0, 0]
  | some (f1, a1) =>
    match topPeak inBand (fun f => decide (fxOne ≤ ((f - f1).natAbs : Nat))) with
    | none => [fOfFx f1, pct a1, 0, 0]
    | some (f2, a2) => [fOfFx f1, pct a1, fOfFx f2, pct a2]

/-- 100 ms in units of the counter. -/
def tenthU : Nat := 100000000 * nsU

/-- SSO_UPDATE: every 100 ms a monitor takes its DFT over 2 s of valid history, reports its peaks and updates its flag; an update
flagged twice is dropped (R182, R362). -/
def execSsoUpdate (m flags : Nat) (s : State) : Host.Outcome State Fault Refusal :=
  done s (if !s.phsRuns ∨ 16 ≤ m ∨ !s.is (PHS_SSO_CFG_EN m) then s
    else
      let x := s.ssoOf m
      let due := if x.due = 0 then s.tai / tenthU + 1 else x.due
      let s := s.advanceTo (due * tenthU)
      let s := s.setSso m { x with due := s.tai / tenthU + 1 }
      let x := s.ssoOf m
      let s := s.resFlags 16 (min flags 2)
      let c := s.rd (PHS_SSO_CFG_CH m)
      let t : Int := ((due * (secT / 10) : Nat) : Int) - s.maxG [c]
      let lo := t - ((2 * secT : Nat) : Int)
      match (if x.since ≤ lo then s.chWin c lo t else none) with
      | none => s.wr (PHS_SSO_STAT_READY m) 0
      | some w =>
        let s := s.wr (PHS_SSO_STAT_READY m) 1
        if 2 ≤ flags then s
        else
          let T := s.classT false 1
          let r := ssoPeaks s.f0 s.acqRate t (w.map (fun v => (v.1, wVal v.2))) (fun j => s.phasorAt 0 T c (tauBack t j))
          let v (i : Nat) : Nat := nth r i 0
          let s := (((s.wr (PHS_SSO_F1 m) (v 0)).wr (PHS_SSO_A1 m) (v 1)).wr (PHS_SSO_F2 m) (v 2)).wr (PHS_SSO_A2 m) (v 3)
          let up := s.is (PHS_SSO_STAT_FLAG m)
          let q := fLe (fLit (s.rd (PHS_SSO_THR_THR m)) 100) (v 1)
          let run := if q = up then 0 else x.run + 1
          if run < s.eff (PHS_SSO_THR_SSO_N m) then s.setSso m { x with run := run }
          else
            let s := (s.setSso m { x with run := 0 }).wr (PHS_SSO_STAT_FLAG m) (b2n (!up))
            let s := s.ev (if up then 0x4131 else 0x4130) m (i32 (fToInt (v 0) 1000)) (i32 (fToInt (v 1) 100)) 0
            s.flagArrives 0x24 m 0 (!up) (stampOf s.tai))

/-! ### Applies and steps -/

/-- A detector's history restarts (R177). -/
def State.lomRestart (s : State) (d : Nat) : State :=
  let t : Int := ((s.tai / nsU * 3072 : Nat) : Int)
  (s.setLom d { s.lom d with since := t, rcRun := 0, vsRun := 0 }).wr (PHS_LOM_STAT_READY d) 0

/-- A monitor's history restarts. -/
def State.ssoRestart (s : State) (m : Nat) : State :=
  let t : Int := ((s.tai / nsU * 3072 : Nat) : Int)
  (s.setSso m { s.ssoOf m with since := t, run := 0 }).wr (PHS_SSO_STAT_READY m) 0

/-- The values of the block in force from a slot time on are kept for the frames still to come (R177). -/
def State.phsSnap (s : State) (t : Nat) : State :=
  let g := s.regs.filter (fun p => blkOfAddr (p.1 / 32) == 7)
  { s with phs := { s.phs with gens := ((t, g) :: s.phs.gens).take 16 } }

/-- A step of the Tense counter: grids go on from the stepped time; backwards, the home streams start anew with the slots, the values in
force hold from then on, and a history begins with the samples of the new epoch (R107, R177). -/
def State.phsStep (s : State) (back : Bool) : State :=
  let s : State := { s with phs := { s.phs with grid := s.phs.grid.map (fun _ => instFrom 2400 s.tai), sso := s.phs.sso.map (fun x => { x with due := 0 }) } }
  let s : State := if !back then s
    else { s with phs := { s.phs with gens := (s.phs.gens.take 1).map (fun g => (0, g.2)), missAt := [],
                                      lom := s.phs.lom.map (fun x => { x with since := 0 }), sso := s.phs.sso.map (fun x => { x with since := 0 }) } }
  if back && s.rate != 0 then
    let g := gridOf s.rate s.nowNs
    s.homeStart (if gridNs s.rate g < s.nowNs then gridStep s.rate g 1 else g)
  else s

end Sys2Proof.Machine
end

