-- ==== Sys2Proof/Machine/Metering.lean ====
section
/-! DEFINITION. The quantity engine: integration, transfer points, intervals and signed records, pulse outputs, snapshots,
retention and sealing (R288–R316). What the spec leaves open here: DEDUCED, log 25. -/

namespace Sys2Proof.Machine

/-! ### Points -/

def mPoint0 : MPoint :=
  ⟨List.replicate 8 ⟨0, 0, 0⟩, 0, 0, 0, List.replicate 8 (0, 0), 0, 0, 0, none, 0, 0, 0, 0, none, [], none, none, none, 0, 0, false, [], 0⟩

/-- A transfer point's number. -/
def isTrf (i : Nat) : Bool := decide (256 ≤ i)

def State.pt (s : State) (i : Nat) : MPoint := (assoc s.qty.points i).getD mPoint0

def State.setPt (s : State) (i : Nat) (p : MPoint) : State := { s with qty := { s.qty with points := assocSet s.qty.points i p } }

/-- Fields that both tables have. -/
def ptEn (i : Nat) : Field := if isTrf i then TPT_EN (i - 256) else MPT_EN i
def ptFall (i : Nat) : Field := if isTrf i then TPT_FALLBACK (i - 256) else MPT_FALLBACK i
def ptRun (i : Nat) : Field := if isTrf i then TPT_RUN (i - 256) else MPT_RUN i
def ptDem (i : Nat) : Field := if isTrf i then TPT_DEMLEN (i - 256) else MPT_DEMLEN i
def ptDir (i : Nat) : Field := if isTrf i then TPT_DIR (i - 256) else MPT_DIR i
def ptRev (i : Nat) : Field := if isTrf i then TPT_REVCNT (i - 256) else MPT_REVCNT i
def ptMdLo (i : Nat) : Field := if isTrf i then TPT_MDLO (i - 256) else MPT_MDLO i
def ptMdHi (i : Nat) : Field := if isTrf i then TPT_MDHI (i - 256) else MPT_MDHI i
def ptMdTime (i : Nat) : Field := if isTrf i then TPT_MDTIME (i - 256) else MPT_MDTIME i
def ptSeal (i : Nat) : Field := if isTrf i then TPT_PSEAL (i - 256) else MPT_PSEAL i

/-- The points in the order of their records: electrical first. -/
def allPoints : List Nat := List.range 48 ++ (List.range 256).map (fun t => 256 + t)

def State.livePoints (s : State) : List Nat := allPoints.filter (fun i => s.is (ptEn i))

/-- The engine runs: PD5 on and QTY_CFG.EN. -/
def State.qtyRuns (s : State) : Bool := s.up && s.on 5 && s.is QTY_CFG_EN

/-- Steps in a cycle (R290). -/
def State.cycSteps (s : State) : Nat := if s.is60 then 200 else 240

/-- The start of a step in TAI ns. -/
def stepNs (p : Nat × Nat) : Nat := p.1 * 1000000000 + p.2 * 250000 / 3

/-! ### Gaps (R316) -/

/-- QFLAGS bit `b` is set. -/
def MPoint.flag (p : MPoint) (b : Nat) : MPoint := { p with qf := setBits p.qf b 1 1 }

/-- A gap opens on a point; another cause while one is open adds nothing. -/
def State.mGapOpen (s : State) (i cause ns : Nat) : State :=
  let p := s.pt i
  if p.gap.isSome then s
  else
    let s := s.setPt i { p.flag 0 with gap := some ⟨cause, ns, s.mono⟩, gaps := p.gaps + 1 }
    let s := if isTrf i then s else s.wr (MPT_GAP i) 1
    s.ev 0x8020 i cause (ns / 1000000000) (ns % 1000000000)

/-- The open gap closes. -/
def State.mGapClose (s : State) (i : Nat) : State :=
  let p := s.pt i
  match p.gap with
  | none => s
  | some g =>
    let s := s.setPt i { p with gap := none }
    let s := if isTrf i then s else s.wr (MPT_GAP i) 0
    s.ev 0x8021 i g.cause ((s.mono - g.mono) / (1000000 * nsU)) 0

/-! ### Pulses (R310, R311) -/

def State.pulse (s : State) (j : Nat) : Pulse := nth s.qty.pulses j pulse0

def State.setPulse (s : State) (j : Nat) (x : Pulse) : State := { s with qty := { s.qty with pulses := setNth s.qty.pulses j x } }

/-- `inc` LSBs of register `r` of a point reach the pulse outputs that follow it. -/
def State.pulseAdd (s : State) (i r inc : Nat) : State :=
  if inc = 0 then s
  else
    s.each ((List.range 16).filter (fun j => s.is (QTY_PLS_CFG_EN j) && s.rd (QTY_PLS_CFG_POINT j) == i && s.rd (QTY_PLS_CFG_REG j) == r)) (fun s j =>
      let x := s.pulse j
      let q := s.eff (QTY_PLS_QUANT_QUANT j)
      let a := (x.acc + inc) % 2 ^ 64
      let n := x.backlog + a / q
      let sat := decide (65535 < n)
      let s := s.setPulse j { x with acc := a % q, backlog := min n 65535, satEv := sat || (x.satEv && n == 65535) }
      let s := s.wr (QTY_PLS_STAT_BACKLOG j) (min n 65535)
      if sat && !x.satEv then s.ev 0x8050 j i r 0 else s)

/-- Pulse outputs may leave their inactive level (R311). -/
def State.pulsesOut (s : State) : Bool := s.is RED_STAT_DRIVING && !s.is PWR_PFAIL_STAT_PFAIL

/-- The level of PLS_OUT[j] as a pulse, before POL and OD. -/
def State.pulseLevel (s : State) (j : Nat) : Bool := s.pulsesOut && s.on 5 && (s.pulse j).active

/-- A backlog pulse of output `j` begins, or is withheld and counted in SUPP. -/
def State.pulseStart (s : State) (j : Nat) : State :=
  let x := s.pulse j
  if x.backlog = 0 ∨ x.active then s
  else
    let s := s.waitUntil x.next
    let n := x.backlog - 1
    let s := s.wr (QTY_PLS_STAT_BACKLOG j) n
    if s.pulsesOut then
      s.setPulse j { x with backlog := n, active := true, next := s.mono + s.eff (QTY_PLS_CFG_WIDTH j) * 100000 * nsU, satEv := false, heldEv := false }
    else
      let s := s.cnt (QTY_PLS_SUPP_COUNT j)
      let s := s.setPulse j { x with backlog := n, satEv := false, heldEv := true }
      if x.heldEv then s else s.ev 0x8051 j (s.rd RED_CLAIM_INFORCE) (s.rd RED_PARTNER_CLAIM) 0

/-- PULSE_START (R310, R311). -/
def execPulseStart (j : Nat) (s : State) : Host.Outcome State Fault Refusal :=
  done s (if !s.qtyRuns ∨ 16 ≤ j ∨ !s.is (QTY_PLS_CFG_EN j) then s else s.pulseStart j)

/-- PULSE_END: a pulse's WIDTH expires; the output stays inactive for at least the same time (R310). -/
def execPulseEnd (j : Nat) (s : State) : Host.Outcome State Fault Refusal :=
  done s (if !s.up ∨ !s.on 5 ∨ 16 ≤ j ∨ !(s.pulse j).active then s
    else
      let s := s.waitUntil (s.pulse j).next
      s.setPulse j { s.pulse j with active := false, next := s.mono + s.eff (QTY_PLS_CFG_WIDTH j) * 100000 * nsU })

/-! ### Registers (R294, R301) -/

/-- Adds `x`, in 2^-32 of the LSB, to register `r` of a point: wraps, and pulses. -/
def State.regAdd (s : State) (i r x : Nat) : State :=
  let p := s.pt i
  let g := nth p.regs r ⟨0, 0, 0⟩
  let t := g.v * 2 ^ 32 + g.frac + x
  let v := t / 2 ^ 32
  let w := v / 2 ^ 64
  let g' : MReg := ⟨v % 2 ^ 64, t % 2 ^ 32, (g.wraps + w) % 65536⟩
  let s := s.setPt i { p with regs := setNth p.regs r g' }
  let s := s.each (List.range w) (fun s k => (s.cnt QTY_WRAPS_COUNT).ev 0x8010 i r ((g.wraps + k + 1) % 65536) 0)
  s.pulseAdd i r (v - g.v)

/-- A counted step or accepted record with a direction: reversals (R295, R299). -/
def State.turn (s : State) (i d ns : Nat) : State :=
  let p := s.pt i
  let s := s.wr (ptDir i) d
  match p.dir with
  | none => s.setPt i { p with dir := some d }
  | some o =>
    if o = d then s
    else
      let s := s.cnt (ptRev i)
      let ms := (ns - p.start) / 1000000
      let p' := { p with dir := some d, revs := min (p.revs + 1) 65535 }
      if p.firstRev.isSome then s.setPt i p'
      else (s.setPt i { p' with firstRev := some ms }).ev 0x8011 i d ms 0

/-! ### Intervals and records (R303–R309) -/

/-- TAI − UTC in force. -/
def State.utcOfs (s : State) : Int := sint 16 (s.rd TNS_UTC_OFS)

/-- The first boundary of a point at or after a TAI second (R303). -/
def State.bndFrom (s : State) (i sec : Nat) : Nat :=
  let L : Int := ((max 1 (s.rd (ptDem i)) * 60 : Nat) : Int)
  (sec + ((-((sec : Int) - s.utcOfs)) % L).toNat)

/-- The servo leaves LOCKED or comes to it: the intervals in progress carry TQ, and the last instant without LOCKED is kept for those that
start at an instant already past (R306). -/
def State.qtyServo (s : State) (locked : Bool) : State :=
  let s : State := { s with qty := { s.qty with unlk := s.tai / nsU } }
  if locked then s
  else
    s.each (s.livePoints.filter (fun i => decide (s.tai / nsU < (s.pt i).due * 1000000000))) (fun s i => s.setPt i ((s.pt i).flag 2))

/-- An interval starts at a TAI instant in ns. -/
def State.intStart (s : State) (i ns : Nat) : State :=
  let p := s.pt i
  let tq := if s.rd TNS_STAT_STATE = 2 ∧ s.qty.unlk ≤ ns then 0 else 4
  s.setPt i { p with start := ns, startOfs := s.rd TNS_UTC_OFS, due := s.bndFrom i (ns / 1000000000 + 1),
                     base := p.regs.map (fun g => (g.v, g.wraps)), gap3 := 0, gaps := 0, revs := 0, firstRev := none,
                     qf := b2n p.gap.isSome + tq + 8 * s.rd (ptFall i), sf := 0 }

/-- An interval increment (R301). -/
def increment (g : MReg) (b : Nat × Nat) : Nat :=
  ((((g.wraps + 65536 - b.2) % 65536 * 2 ^ 64 + g.v : Nat) : Int) - (b.1 : Int)).toNat

/-- The unsigned part of an interval record whose END lies in epoch `ep`: bytes 0 to 215 (R306). -/
def State.recordBody (s : State) (i endNs ep : Nat) (sf : Nat) : List Byte :=
  let p := s.pt i
  let t := isTrf i
  [0x47, 0x4B, 0x51, 0x52, 0x01, if t then 0x02 else 0x01] ++ leBytes 2 (if t then i - 256 else i) ++ leBytes 4 p.rseq ++ leBytes 2 ep
    ++ leBytes 2 (s.rd QTY_PARAM_PARAMCNT) ++ leBytes 8 s.serialNo
    ++ leBytes 6 (p.start / 1000000000) ++ leBytes 2 (s.rd QTY_PARAM_REGGEN) ++ leBytes 4 (p.start % 1000000000)
    ++ leBytes 6 (endNs / 1000000000) ++ leBytes 2 (s.rd TNS_UTC_OFS) ++ leBytes 4 (endNs % 1000000000)
    ++ leBytes 4 ((p.gap3 + 2999999) / 3000000) ++ leBytes 2 (min p.gaps 65535) ++ leBytes 2 p.revs
    ++ leBytes 4 (p.firstRev.getD 0xFFFFFFFF) ++ [toByte (s.rd (ptDem i)), toByte p.qf, toByte sf, toByte (s.rd QTY_SIGN_KEYSLOT)]
    ++ p.regs.flatMap (fun g => leBytes 8 g.v) ++ p.regs.flatMap (fun g => leBytes 2 g.wraps)
    ++ (List.zipWith increment p.regs p.base).flatMap (fun x => leBytes 8 x) ++ beBytes 8 p.prevLink

/-- Signs a record: its SFLAGS, and its signature (R307). -/
def State.signRecord (s : State) (i endNs ep : Nat) : State × List Byte :=
  let p := s.pt i
  let slot := s.rd QTY_SIGN_KEYSLOT
  let bare := s.recordBody i endNs ep (setBits p.sf 0 1 1) ++ zeros 64
  if !s.is QTY_SIGN_EN then (s, bare)
  else
    match s.keyUse slot 2 [3] none with
    | some r => ((s.keyRefuse slot 2 r 3 none).ev 0x8030 i p.rseq slot 0, bare)
    | none =>
      let b := s.recordBody i endNs ep p.sf
      (s.keyUsed slot, b ++ (Config.ecdsaSign ((s.curKey slot).getD []) b ++ zeros 64).take 64)

/-- A record enters the ring; a full ring loses its oldest (R308), and the archive takes an entry (R329). -/
def State.recordPut (s : State) (b : List Byte) (endNs ep : Nat) : State :=
  let old := s.qty.ring
  let s := if old.length < 576 then s
    else
      let o := old.headD []
      (s.cnt QTY_REC_LOST_COUNT).ev 0x8031 (byteAt o 5 / 2 * 256 + leAt o 6 2) (leAt o 8 4) 0 0
  let ring := (if old.length < 576 then old else old.drop 1) ++ [b]
  let s : State := { s with qty := { s.qty with ring := ring } }
  let s := s.wr QTY_REC_STAT_COUNT ring.length
  if s.arcOn && s.is ARC_CFG_QTY_EN then s.arcWrite 3 0 ep 0 (endNs / 1000000000) (endNs % 1000000000) b else s

/-- The demand of an interval against MD (R309). -/
def State.demand (s : State) (i endNs : Nat) : State :=
  let p := s.pt i
  let inc := increment (nth p.regs 0 ⟨0, 0, 0⟩) (nth p.base 0 (0, 0))
  let len := endNs - p.start
  let d := if len = 0 then 0 else inc * (if isTrf i then 3600000000000 else 3600000000) / len
  let md := s.rd (ptMdLo i) + s.rd (ptMdHi i) * 2 ^ 32
  if md < d then ((s.wr (ptMdLo i) (d % 2 ^ 32)).wr (ptMdHi i) (d / 2 ^ 32)).wr (ptMdTime i) (endNs / 1000000000) else s

/-- The interval of a point closes at a TAI instant and the next begins at another (the same but for a backward step); `irr` sets
TIMEIRR, and END lies in epoch `ep` (R14, R303–R309). -/
def State.intClose (s : State) (i endNs nextNs : Nat) (irr : Bool) (ep : Nat) : State :=
  let p := s.pt i
  let p := if irr || p.startOfs != s.rd TNS_UTC_OFS then p.flag 7 else p
  let p := if s.is (ptFall i) then { (p.flag 3).flag 0 with gap3 := (endNs - p.start) * 3 } else p
  let s := s.setPt i p
  let (s, b) := s.signRecord i endNs ep
  let s := (s.demand i endNs).recordPut b endNs ep
  let s := s.setPt i { s.pt i with rseq := (p.rseq + 1) % 2 ^ 32, prevLink := Config.sha256 (b.take 216) / 2 ^ 192 % 2 ^ 64 }
  s.intStart i nextNs

/-- A span that was passed over without integration: the intervals whose boundaries it holds close with TIMEIRR and the span in
GAPMS; with more than 64 boundaries the interval in progress goes on to the first boundary after it, as one record (R305, R313). -/
def State.spanClose (fuel : Nat) (i a b : Nat) (s : State) : State :=
  let p := s.pt i
  let bnd := p.due * 1000000000
  let from_ := max a p.start
  match fuel with
  | 0 => s.setPt i { p with gap3 := p.gap3 + (b - from_) * 3 }
  | f + 1 =>
    if b < bnd then s.setPt i { p with gap3 := p.gap3 + (b - from_) * 3 }
    else
      let L := max 1 (s.rd (ptDem i)) * 60
      if 64 * L ≤ b / 1000000000 - p.due then
        s.setPt i { (p.flag 7) with gap3 := p.gap3 + (b - from_) * 3, due := s.bndFrom i (b / 1000000000 + 1) }
      else
        let s := s.setPt i { p with gap3 := p.gap3 + (bnd - from_) * 3 }
        State.spanClose f i a b (s.intClose i bnd bnd true s.epoch)

/-- Passes a span over for every enabled point. -/
def State.spanAll (s : State) (a b : Nat) : State := s.each s.livePoints (fun s i => State.spanClose 70 i a b s)

/-! ### Retention (R312, R313) -/

/-- Writes a copy into the place whose turn it is. -/
def State.retCopy (s : State) : State :=
  let seq := (s.qty.copySeq + 1) % 2 ^ 32
  let k := seq % 2
  let c : MCopy := ⟨seq, s.qty.points, s.qty.pulses, s.qty.lastStep, true⟩
  let s : State := { s with qty := { s.qty with copySeq := seq, copies := setNth s.qty.copies k (some c), copyAt := s.mono } }
  s.wr (if k = 0 then QTY_RET_STAT_A_OK else QTY_RET_STAT_B_OK) 1

/-- RETENTION_COPY: the routine copy of every second (R312). -/
def execRetentionCopy (s : State) : Host.Outcome State Fault Refusal :=
  done s (if !s.qtyRuns then s else (s.waitUntil (s.qty.copyAt + secU)).retCopy)

/-- PD5 loses its contents; records, copies and sealed values stay in PD0 (R78, R312). -/
def State.qtyOff (s : State) : State :=
  { s with qty := { s.qty with points := [], pulses := List.replicate 16 pulse0, next := none, lastStep := 0, snaps := [], paused := none, resAt := [] } }

/-- The valid copies with their places, the later sequence first. -/
def State.copiesLater (s : State) : List MCopy :=
  let cs := s.qty.copies.filterMap (fun c => c)
  match cs with
  | [a, b] => if laterSerial b.seq a.seq then [b, a] else [a, b]
  | _ => cs

/-- The points as they start again from a copy: what only PD5 held is gone (R312). -/
def MPoint.fresh (p : MPoint) : MPoint :=
  { p with win := [], cyc := none, segs := none, dir := none, gap := none, seqKnown := false, res := [], resN := 0 }

/-- Restore: registers and interval state come back from the later valid copy, and the span since is passed over (R313). -/
def State.qtyRestore (s : State) (cause : Nat) : State :=
  let s := s.qtyOff
  let cs := s.copiesLater
  let now := s.nowNs
  let s : State := { s with qty := { s.qty with copyAt := s.mono } }
  let s := (s.wr QTY_RET_STAT_A_OK (b2n (match nth s.qty.copies 0 none with
      | some c => c.ok
      | none => false))).wr QTY_RET_STAT_B_OK (b2n (match nth s.qty.copies 1 none with
      | some c => c.ok
      | none => false))
  match cs.find? (fun c => c.ok) with
  | none =>
    let gen := (s.rd QTY_PARAM_REGGEN + 1) % 65536
    let s := s.wr QTY_PARAM_REGGEN gen
    let s := s.ev 0x8042 gen 0 0 0
    s.each allPoints (fun s i =>
      let s := (s.setPt i mPoint0).intStart i now
      s.setPt i ((s.pt i).flag 5))
  | some c =>
    let first := match cs with
      | x :: _ => x.ok
      | [] => true
    let lostMs := (now - c.lastStep) / 1000000
    let s : State := { s with qty := { s.qty with pulses := c.pulses.map (fun x => { x with active := false, next := 0 }), lastStep := c.lastStep,
                                                  points := c.points.map (fun p => (p.1, p.2.fresh)) } }
    let s := s.each (List.range 16) (fun s j => s.wr (QTY_PLS_STAT_BACKLOG j) (s.pulse j).backlog)
    let s := if first then s.ev 0x8040 c.seq lostMs 0 0 else s.ev 0x8041 c.seq lostMs 0 0
    s.each allPoints (fun s i =>
      let p := s.pt i
      let p := if first then p else p.flag 4
      let p := if s.rd TNS_STAT_STATE = 2 ∧ s.qty.unlk ≤ c.lastStep then p else p.flag 2
      let s := if isTrf i then s.wr (TPT_LASTSEQ (i - 256)) p.lastSeq else s
      if !s.is (ptEn i) then s.setPt i p
      else
        let s := s.setPt i p
        let s := s.mGapOpen i cause c.lastStep
        if c.lastStep < now then State.spanClose 70 i c.lastStep now s else s)

/-- The engine starts to step from now; while PFAIL_N is asserted it is held, as a pause (R84). -/
def State.qtyStart (s : State) : State :=
  if !s.qtyRuns then s
  else
    let s : State := { s with qty := { s.qty with next := some (instFrom 12000 s.tai) } }
    if !s.is PWR_PFAIL_STAT_PFAIL then s
    else
      let s := s.each s.livePoints (fun s i => s.mGapOpen i 2 s.nowNs)
      { s with qty := { s.qty with paused := some s.mono, lastStep := s.nowNs } }

/-- PD5 goes off with its copy taken: every enabled point has a gap of cause 3 (R78, R316). -/
def State.qtyPowerOff (s : State) : State :=
  let s := s.each s.livePoints (fun s i => s.mGapOpen i 3 s.nowNs)
  s.retCopy.qtyOff

/-- PD5 comes back: the gap of its absence closes, and that since the copy runs to the first valid step. -/
def State.qtyPowerOn (s : State) : State :=
  let opened := s.copiesLater.headD ⟨0, [], [], 0, false⟩
  let s := s.each opened.points (fun s p =>
    match p.2.gap with
    | some g => if g.cause = 3 then s.ev 0x8021 p.1 3 ((s.mono - g.mono) / (1000000 * nsU)) 0 else s
    | none => s)
  (s.qtyRestore 4).qtyStart

/-! ### Integration (R290–R296) -/

/-- The channels of the elements of a point: voltage and current. -/
def State.elements (s : State) (i : Nat) : List (Nat × Nat) :=
  let l := [(s.rd (MPT_VCH0 i), s.rd (MPT_ICH0 i)), (s.rd (MPT_VCH1 i), s.rd (MPT_ICH1 i)), (s.rd (MPT_VCH2 i), s.rd (MPT_ICH2 i))]
  l.take (match s.rd (MPT_WIRING i) with
    | 0 => 3
    | 1 => 2
    | _ => 1)

/-- The samples at and before an instant, newest first. -/
def State.smpFrom (s : State) (sec n : Nat) : List Smp := s.acq.smp.dropWhile (fun x => !(x.sec == sec && x.n == n))

/-- A sample of a channel with its interpolation taps is free of GAP (R290). -/
def tapsOk (c : Nat) (l : List Smp) : Bool := decide (5 ≤ l.length) && (l.take 5).all (fun x => !wGap (x.word c))

/-- The instants of a step, as sample lists. -/
def State.stepSmps (s : State) (p : Nat × Nat) : List (List Smp) :=
  if s.is ACQ_CFG_RATE then [s.smpFrom p.1 (2 * p.2), s.smpFrom p.1 (2 * p.2 + 1)] else [s.smpFrom p.1 p.2]

/-- The quarter period in samples (R293). -/
def State.quarter (s : State) : Nat := s.cycleSamples / 4

/-- A step is valid for a point (R290). -/
def State.stepValid (s : State) (i : Nat) (p : Nat × Nat) : Bool :=
  let q := s.quarter
  (s.stepSmps p).all (fun l => (s.elements i).all (fun e => tapsOk e.1 l && tapsOk e.2 l && tapsOk e.1 (l.drop q)))

/-- Boundary `j` of a channel; B0 is 0. -/
def State.bound (s : State) (c j : Nat) : Nat := if j = 0 then 0 else s.rd (QTY_COR_B_BOUND c j)

/-- I ≥ B × (1000 + h) ÷ 1000 for a current given by its sum of squares over `n` samples. -/
def geBound (sq n b : Nat) (h : Int) : Bool :=
  let k := ((b : Int) * (1000 + h)).toNat
  decide (n * k * k ≤ sq * 1000000)

/-- The segment of a channel for a cycle's current (R292). -/
def State.segNext (s : State) (i c : Nat) (old : Option Nat) (sq n : Nat) : Nat :=
  let h : Int := (s.rd (MPT_SEGHYST i) : Nat)
  let highest (js : List Nat) (h : Int) : Option Nat := (js.reverse).find? (fun j => geBound sq n (s.bound c j) h)
  match old with
  | none => (highest (List.range 8) 0).getD 0
  | some k =>
    match highest ((List.range 8).filter (fun j => decide (k < j))) h with
    | some j => j
    | none => if geBound sq n (s.bound c k) (-h) then k else (highest (List.range k) (-h)).getD 0

/-- The segments of a point's channels for the cycle of a step, chosen from the cycle's own current (R292). -/
def State.segChoose (s : State) (i : Nat) (p : Nat × Nat) : State :=
  let pt := s.pt i
  let nc := s.cycSteps
  let cyc := (p.1, p.2 / nc)
  if pt.cyc = some cyc ∧ pt.segs.isSome then s
  else
    let steps := ((List.range nc).map (fun j => (p.1, p.2 / nc * nc + j))).filter (fun q => s.stepValid i q)
    let one (e : Nat × Nat) : Nat × Nat :=
      steps.foldl (fun a q => (s.stepSmps q).foldl (fun a l => match l with
        | x :: _ => let v := (wVal (x.word e.2)).natAbs; (a.1 + v * v, a.2 + 1)
        | [] => a) a) (0, 0)
    let es := s.elements i
    let cur := es.map one
    let old (k : Nat) : Option Nat := pt.segs.map (fun l => nth l k 0)
    let seg (k : Nat) : Nat :=
      let e := nth es (k % 3) (0, 0)
      let i2 := nth cur (k % 3) (0, 1)
      if k % 3 < es.length then s.segNext i (if k < 3 then e.1 else e.2) (old k) i2.1 i2.2 else 0
    let new := (List.range 6).map seg
    let moved := match pt.segs with
      | some l => ((List.range 6).filter (fun k => nth l k 0 != nth new k 0)).length
      | none => 0
    let s := s.setPt i { pt with cyc := some cyc, segs := some new }
    let s := s.wr (MPT_SEG i) ((List.range 6).foldl (fun a k => a + nth new k 0 * 8 ^ k) 0)
    s.cntN QTY_SEGCHG_COUNT moved

/-- 4-tap Lagrange interpolation between the second and the third of four points, newest first, at the fraction `u` from the third
towards the second. -/
def lagrange4 (u : Int) (x : List Int) : Int :=
  let a := u + fxOne
  let b := u - fxOne
  let c := u - 2 * fxOne
  let h := [fxMul (fxMul a u) b / 6, -(fxMul (fxMul a u) c / 2), fxMul (fxMul a b) c / 2, -(fxMul (fxMul u b) c / 6)]
  (List.zipWith (fun x y => x * y) h x).foldl (fun a y => a + y) 0

/-- A number in fixed point to the nearest integer; the spec states no rounding of ties. -/
def roundOpen (x : Int) : Int :=
  let k := (2 * x + fxOne) / (2 * fxOne)
  if 2 * x + fxOne = k * (2 * fxOne) ∧ !Config.corTie x then k - 1 else k

/-- A sample and the four before it, newest first, delayed by two samples, advanced by `ph` µrad at f0, and scaled (R291). -/
def corrected (ph gain : Int) (f0 rate : Nat) (x : List Int) : Int :=
  let adv := fxDiv (fxRat (ph * (rate : Int)) 1000000) (2 * fxPi * (f0 : Int))
  let y := if 0 ≤ ph then lagrange4 adv x else lagrange4 (fxOne + adv) (x.drop 1)
  roundOpen (y * (16777216 + gain) / 16777216)

/-- A corrected sample of a channel in a segment (R291): PHASE beyond ±10,000 acts as the nearer limit. -/
def State.corr (s : State) (c seg : Nat) (l : List Smp) : Int :=
  let ph := sint 16 (s.rd (QTY_COR_P_PHASE c seg))
  let ph := if ph < -10000 then -10000 else if 10000 < ph then 10000 else ph
  corrected ph (sint 24 (s.rd (QTY_COR_G_GAIN c seg))) s.f0 s.acqRate ((l.take 5).map (fun x => wVal (x.word c)))

/-- The element products of a valid step (R293). -/
def State.stepSums (s : State) (i : Nat) (p : Nat × Nat) : List MSum :=
  let segs := (s.pt i).segs.getD []
  let q := s.quarter
  let es := s.elements i
  (List.range es.length).map (fun k =>
    let e := nth es k (0, 0)
    let sv := nth segs k 0
    let si := nth segs (k + 3) 0
    (s.stepSmps p).foldl (fun (a : MSum) l =>
      let v := s.corr e.1 sv l
      let c := s.corr e.2 si l
      let d := s.corr e.1 sv (l.drop q)
      ⟨a.p + v * c, a.q + d * c, a.i2 + c * c, a.v2 + v * v⟩) ⟨0, 0, 0, 0⟩)

def MSum.add (a b : MSum) : MSum := ⟨a.p + b.p, a.q + b.q, a.i2 + b.i2, a.v2 + b.v2⟩

/-- Sums of several steps, element by element. -/
def sumSteps (l : List (List MSum)) : List MSum :=
  match l with
  | [] => []
  | x :: rest => rest.foldl (fun a y => List.zipWith MSum.add a y) x

/-- A ratio rounded to the nearest integer, ties up. -/
def roundUp (n d : Int) : Int := if d = 0 then 0 else (2 * n + d) / (2 * d)

/-- A valid step is counted or is below START (R293–R295). -/
def State.countStep (s : State) (i : Nat) (p : Nat × Nat) (sums : List MSum) : State :=
  let pt := s.pt i
  let win := (sums :: pt.win).take s.cycSteps
  let t := sumSteps win
  let per := s.acqRate / 12000
  let D : Int := ((win.length * per : Nat) : Int)
  let s := s.setPt i { pt with win := win, res := if pt.res.isEmpty then sums else List.zipWith MSum.add pt.res sums, resN := pt.resN + per }
  let st : Int := ((s.rd (MPT_START i) * s.rd (MPT_START i) : Nat) : Int)
  if !t.any (fun e => decide (st * D ≤ e.i2)) then s.wr (MPT_NOLOAD i) 1
  else
    let s := s.wr (MPT_NOLOAD i) 0
    let sg : Int := if s.is (MPT_DIRINV i) then -1 else 1
    let P := sg * t.foldl (fun a e => a + e.p) 0
    let Q := sg * t.foldl (fun a e => a + e.q) 0
    let kp : Int := ((s.rd (MPT_KPLO i) + s.rd (MPT_KPHI i) * 2 ^ 32 : Nat) : Int)
    let den := D * ((2 ^ 32 : Nat) : Int)
    let eP := roundUp (P * kp) den
    let eQ := roundUp (Q * kp) den
    let eS := roundUp ((isqrtBits 128 (P * P + Q * Q).toNat : Int) * kp) den
    let rev := if 0 < eP then false else if eP < 0 then true else (s.pt i).dir == some 1
    let s := if eP = 0 then s else s.turn i (b2n rev) (stepNs p)
    let s := s.regAdd i (if rev then 1 else 0) eP.natAbs
    let s := s.regAdd i (if 0 ≤ eQ then (if rev then 3 else 2) else if rev then 4 else 5) eQ.natAbs
    let s := s.regAdd i (if rev then 7 else 6) eS.toNat
    let used := (s.stepSmps p).filterMap (fun l => l.head?)
    let chans := (s.elements i).flatMap (fun e => [e.1, e.2])
    let s := if used.any (fun x => x.irc) then s.setPt i ((s.pt i).flag 1) else s
    if used.any (fun x => chans.any (fun c => bits (x.word c) 24 2 != 0)) then s.setPt i { s.pt i with sf := setBits (s.pt i).sf 1 1 1 } else s

/-- One step of one electrical point: a gap step changes no register, no direction and no window (R290). -/
def State.pointStep (s : State) (i : Nat) (p : Nat × Nat) : State :=
  if s.is (ptFall i) then s
  else if s.stepValid i p then
    let s := s.mGapClose i
    let s := s.wr (MPT_RUN i) 1
    let s := s.segChoose i p
    s.countStep i p (s.stepSums i p)
  else
    let s := (s.mGapOpen i 1 (stepNs p)).wr (MPT_RUN i) 0
    s.setPt i { s.pt i with win := [], segs := none, gap3 := (s.pt i).gap3 + 250000 }

/-- Copies registers and wrap counters into a master's bank (R302). -/
def State.snapCopy (s : State) (m : Master) : State :=
  let s := s.each (List.range 48) (fun s i =>
    let r := (s.pt i).regs
    s.each (List.range 8) (fun s k =>
      let g := nth r k ⟨0, 0, 0⟩
      let s := (s.wr (forM m (QTY_SE_R_LO_VALUE i k)) (g.v % 2 ^ 32)).wr (forM m (QTY_SE_R_HI_VALUE i k)) (g.v / 2 ^ 32)
      s.wr (forM m (if k % 2 = 0 then QTY_SE_W_WRAP i (k / 2) else QTY_SE_W_WRAP1 i (k / 2))) g.wraps))
  let s := s.each (List.range 256) (fun s t =>
    let r := (s.pt (256 + t)).regs
    s.each (List.range 4) (fun s k =>
      let g := nth r k ⟨0, 0, 0⟩
      let s := (s.wr (forM m (QTY_ST_R_LO_VALUE t k)) (g.v % 2 ^ 32)).wr (forM m (QTY_ST_R_HI_VALUE t k)) (g.v / 2 ^ 32)
      s.wr (forM m (if k % 2 = 0 then QTY_ST_W_WRAP t (k / 2) else QTY_ST_W_WRAP1 t (k / 2))) g.wraps))
  let ns := s.qty.lastStep
  let s := (s.wr (forM m QTY_SNAP_SEC_SEC) (ns / 1000000000)).wr (forM m QTY_SNAP_NS_NS) (ns % 1000000000)
  (s.wr (forM m QTY_SNAP_STAT_EPOCH) s.qty.lastEp).wr (forM m QTY_SNAP_STAT_DONE) 1

/-- Snapshots requested before this step boundary are taken. -/
def State.snapServe (s : State) : State :=
  let l := s.qty.snaps
  let s : State := { s with qty := { s.qty with snaps := [] } }
  s.each l (fun s m => s.snapCopy m)

/-- METER_SNAPSHOT: a write of 1 to QTY_SNAP; the copy is taken at the next step boundary, or at once while nothing steps (R302). -/
def execMeterSnapshot (m : Master) (s : State) : Host.Outcome State Fault Refusal :=
  done s (s.accessW m QTY_SNAP_GO.addr 1 (fun s =>
    let s := s.wr (forM m QTY_SNAP_STAT_DONE) 0
    if s.qtyRuns && s.qty.paused.isNone && s.qty.next.isSome then
      (if s.qty.snaps.contains m then s else { s with qty := { s.qty with snaps := s.qty.snaps ++ [m] } })
    else s.snapCopy m))

/-- An integration step of every enabled electrical point, intervals whose boundary it reaches closed first (R290, R303). -/
def State.intStep (s : State) (p : Nat × Nat) : State :=
  let s := s.each (s.livePoints.filter (fun i => !isTrf i)) (fun s i =>
    let due := (s.pt i).due
    let s := if due * 1000000000 ≤ stepNs p then s.intClose i (due * 1000000000) (due * 1000000000) false s.epoch else s
    s.pointStep i p)
  let s : State := { s with qty := { s.qty with next := some (instNext 12000 p), lastStep := stepNs p, lastEp := s.epoch } }
  s.snapServe

/-- When the samples of a step have been taken with the cycle that follows it (R292). -/
def State.stepDue (s : State) (p : Nat × Nat) : Nat := instU 12000 p + (s.cycSteps + 1) * (secU / 12000)

/-- A step flagged four times: PD5 is switched off and on (R362). -/
def State.residueRestart (s : State) (p : Nat × Nat) : State :=
  let s := s.ev 0xB033 (p.1 % 2 ^ 32) p.2 0 0
  let s := s.qtyPowerOff
  let s := { s with regs := dropDomain false 5 s.regs, bufs := dropDomain true 5 s.bufs, pend := dropPend 5 s.pend }
  let s := (s.ev 0x0021 5 0 0 0).ev 0x0020 5 0 0 0
  s.qtyPowerOn

/-- INTEGRATION_STEP: the next step is integrated one cycle after its samples; `flags` counts the flagged computations of it
(R290–R295, R362). -/
def execIntegrationStep (flags : Nat) (s : State) : Host.Outcome State Fault Refusal :=
  done s (if !s.qtyRuns ∨ s.qty.paused.isSome then s
    else
      match s.qty.next with
      | none => s
      | some p =>
        let s := s.advanceTo (s.stepDue p)
        let s := s.resFlags 17 (min flags 4)
        if 4 ≤ flags then s.residueRestart p else s.intStep p)

/-! ### Results (R296) -/

/-- A value in float32, NaN when it cannot be formed. -/
def orNan (x : Option Nat) : Nat := x.getD fMiss

/-- The newest indicative slot of a column: one that expects it. -/
def State.newestSlot (s : State) (col : Nat) : Option Slot :=
  s.ccd.ring.foldl (fun a e =>
    if e.2.st ≠ 5 ∨ (assoc e.2.cols col).isNone then a
    else
      match a with
      | none => some e.2
      | some b => if laterSerial e.2.serial b.serial then some e.2 else some b) none

/-- The results of one period of a point. -/
def State.results (s : State) (i : Nat) : State :=
  let pt := s.pt i
  let n : Int := (pt.resN : Int)
  let vs := some (s.rd (MPT_VSCALE i))
  let is_ := some (s.rd (MPT_ISCALE i))
  let mul (a b : Option Nat) : Option Nat := do fMul (← a) (← b)
  let rms (x : Int) (k : Option Nat) : Option Nat := if n ≤ 0 then none else mul (do fSqrt (← fOfRat x pt.resN)) k
  let s := s.each (List.range 3) (fun s k =>
    match pt.res.drop k with
    | e :: _ => (s.wr (MPT_VRMS i k) (orNan (rms e.v2 vs))).wr (MPT_IRMS i k) (orNan (rms e.i2 is_))
    | [] => (s.wr (MPT_VRMS i k) fMiss).wr (MPT_IRMS i k) fMiss)
  let sg : Int := if s.is (MPT_DIRINV i) then -1 else 1
  let P := sg * pt.res.foldl (fun a e => a + e.p) 0
  let Q := sg * pt.res.foldl (fun a e => a + e.q) 0
  let pw (x : Int) : Option Nat := if n ≤ 0 then none else mul (fOfRat x pt.resN) (mul vs is_)
  let sp := pw (isqrtBits 128 (P * P + Q * Q).toNat : Int)
  let s := ((s.wr (MPT_P i) (orNan (pw P))).wr (MPT_Q i) (orNan (pw Q))).wr (MPT_S i) (orNan sp)
  let s := s.wr (MPT_PF i) (orNan (do fDiv (← pw P) (← sp)))
  let h := s.rd (MPT_HOME i)
  let col := s.rd (HSM_COLUMN h)
  let sl := if s.is (MPT_HOME_EN i) && s.on 4 && s.is (HSM_EN h) then s.newestSlot col else none
  let fq := sl.map (fun x => (x.colAt col).2.2.1)
  let s := s.wr (MPT_FREQ i) (orNan (do
    let w ← fq
    if w = 0x8000 then none else fAdd (← fOfInt s.f0) (← fqHz w)))
  let s := s.each (List.range 3) (fun s k => s.wr (MPT_ANG i k) (orNan (do
    let x ← sl
    if decide (k < (s.elements i).length) then cArg (← cMul (x.phAt (s.rd (MPT_VPH i) + k)) (cConj (x.phAt (s.rd (MPT_IPH i) + k)))) else none)))
  s.setPt i { s.pt i with res := [], resN := 0 }

/-- METER_RESULTS: every 200 ms of the counter, the display results of a point over the valid steps of the period (R296). -/
def execMeterResults (p : Nat) (s : State) : Host.Outcome State Fault Refusal :=
  done s (if !s.qtyRuns ∨ 48 ≤ p ∨ !s.is (MPT_EN p) then s
    else
      let u := 200000000 * nsU
      let s := s.advanceTo (((assoc s.qty.resAt p).getD (s.tai / u) + 1) * u)
      let s : State := { s with qty := { s.qty with resAt := assocSet s.qty.resAt p (s.tai / u) } }
      s.results p)

/-! ### Transfer points (R298–R300) -/

/-- A datagram or a record is refused; the numbers of the reasons are not given. -/
def State.flowBad (s : State) (n src id : Nat) : State :=
  let (r, s) := s.draw
  (s.cnt QTY_FLOW_BAD_COUNT).ev 0x8062 n src id r

/-- Every interval of a point whose boundary lies before a TAI instant in ns closes. -/
def State.closeUpTo (fuel : Nat) (i ns : Nat) (s : State) : State :=
  match fuel with
  | 0 => s
  | f + 1 =>
    let due := (s.pt i).due * 1000000000
    if due < ns then State.closeUpTo f i ns (s.intClose i due due false s.epoch) else s

/-- One record of a datagram (R299, R300): the point it names takes it, or it is refused alone. -/
def State.flowRecord (s : State) (n src : Nat) (e : RxEntry) (r : List Byte) : State :=
  let id := leAt r 0 4
  let seq := leAt r 4 4
  let dur := leAt r 8 4
  let qty := leAt r 12 8
  let en := leAt r 20 8
  let fl := leAt r 28 2
  match (List.range 256).find? (fun t => s.is (TPT_EN t) && s.rd (TPT_FLOWID t) == id) with
  | none => s.flowBad n src id
  | some t =>
    if s.rd (TPT_PORT t) + 4 ≠ n ∨ s.rd (TPT_SRCIP t) ≠ src then s.flowBad n src id
    else
      let i := 256 + t
      let known := (s.pt i).seqKnown
      let last := s.rd (TPT_LASTSEQ t)
      if known && !laterSerial seq last then s.cnt (TPT_DUPREC t)
      else
        let ns := e.stamp / 16
        let stale := decide (e.epoch < s.epoch)
        let s := if stale then s else s.closeUpTo (ns / 60000000000 + 1 - (s.pt i).due / 60) i ns
        let miss := if known then (seq + 2 ^ 32 - last - 1) % 2 ^ 32 else 0
        let s := if miss = 0 then s
          else
            let s := s.cntN (TPT_MISSREC t) miss
            let open_ := (s.pt i).gap.isNone
            let s := s.ev 0x8060 i ((last + 1) % 2 ^ 32) miss 0
            let s := if open_ then (s.mGapOpen i 5 ns).mGapClose i else s
            if open_ then s else s.setPt i { (s.pt i).flag 0 with gaps := (s.pt i).gaps + 1 }
        let s := (s.wr (TPT_LASTSEQ t) seq).wr (TPT_RUN t) 1
        let s := if s.is (TPT_STALE t) then (s.wr (TPT_STALE t) 0).ev 0x8064 i seq 0 0 else s
        let p := s.pt i
        let p := { p with seqKnown := true, lastSeq := seq, lastAt := s.mono }
        let p := if stale then p.flag 7 else p
        let est := decide (fl % 8 / 2 ≠ 0)
        let p := if est || decide (ns < p.start + dur * 1000000) then p.flag 6 else p
        let p := if e.irc then p.flag 1 else p
        let s := s.setPt i p
        let s := if (s.pt i).gap.isSome then s.mGapClose i else s
        let s := if est then s.cnt (TPT_EST t) else s
        let d0 := (fl + s.rd (TPT_DIRINV t)) % 2
        let d := if qty = 0 ∧ en = 0 then ((s.pt i).dir).getD 0 else d0
        let s := if qty = 0 ∧ en = 0 then s else s.turn i d ns
        let (x, s) := s.draw
        let rate (v : Nat) : Nat := if dur = 0 then x % 2 ^ 32 else orNan (fOfRat (v * 1000) dur)
        let s := (s.wr (TPT_FLOW t) (rate qty)).wr (TPT_POWER t) (rate en)
        if s.is (TPT_FALLBACK t) then s
        else
          let s := s.regAdd i d (qty * 2 ^ 32)
          if s.rd (TPT_KIND t) = 0 then s.regAdd i (2 + d) (en * 2 ^ 32) else s

/-- A flow-computer datagram (R298). -/
def State.flowDatagram (s : State) (n : Nat) (e : RxEntry) : State :=
  match parseIp e.bytes with
  | none => s
  | some ip =>
    let b := (parseUdp e.bytes ip).payload
    let k := byteAt b 7
    let ok := beAt b 0 4 == 0x474B4652 && byteAt b 6 == 1 && decide (1 ≤ k) && decide (k ≤ 8) && leAt b 4 2 == 12 + 32 * k
      && leAt b 4 2 == b.length && leAt b (b.length - 4) 4 == crc32c (b.take (b.length - 4))
    if !ok then s.flowBad n ip.src 0
    else s.each (List.range k) (fun s r => s.flowRecord n ip.src e (slice b (8 + 32 * r) 32))

/-- FLOW_DATAGRAM: the oldest datagram that the Parse unit has passed on from field port `n` (R134, R298). While accumulation is stopped
(R84) it waits (DEDUCED, log 25). -/
def execFlowDatagram (n : Nat) (s : State) : Host.Outcome State Fault Refusal :=
  done s (if !s.qtyRuns ∨ s.qty.paused.isSome then s
    else
      match s.ing.flow.find? (fun x => x.1 == n) with
      | none => s
      | some x =>
        let s : State := { s with ing := { s.ing with flow := (s.ing.flow.takeWhile (fun y => y.1 != n)) ++ (s.ing.flow.dropWhile (fun y => y.1 != n)).drop 1 } }
        s.flowDatagram n x.2)

/-- TRANSFER_STALE: a point without a record for TMO seconds becomes STALE (R300). -/
def execTransferStale (t : Nat) (s : State) : Host.Outcome State Fault Refusal :=
  done s (if !s.qtyRuns ∨ 256 ≤ t ∨ !s.is (TPT_EN t) ∨ s.is (TPT_STALE t) then s
    else
      let at0 := (s.pt (256 + t)).lastAt
      let s := s.waitUntil (at0 + s.eff (TPT_TMO t) * secU)
      (s.wr (TPT_STALE t) 1).ev 0x8063 (256 + t) ((s.mono - at0) / secU) 0 0)

/-! ### Interval close, records, demand, seal -/

/-- A boundary that a pending leap second moves waits for it (R109, R303). -/
def State.leapHolds (s : State) (sec : Nat) : Bool :=
  match s.tns.leapAt with
  | some t => decide (t ≤ sec) && decide (sec ≤ t + 1)
  | none => false

/-- A point's interval may close at its boundary: steps up to it integrated, or no frame stamped up to it waits (R304). -/
def State.mayClose (s : State) (i : Nat) : Bool :=
  let due := (s.pt i).due
  !s.leapHolds due &&
    (if isTrf i then
        [4, 5].all (fun n => decide (due * 16000000000 < nth s.ccd.stamps n 0) || (s.port n).fifo.all (s.after (due * 16000000000)))
        && s.ing.flow.all (fun x => s.after (due * 16000000000) x.2)
     else
      match s.qty.next with
      | some p => decide (due ≤ p.1)
      | none => false)

/-- INTERVAL_CLOSE: the earliest boundary closes for every point it is a boundary of, electrical points first; a copy is taken
and the records are signed (R304). -/
def execIntervalClose (s : State) : Host.Outcome State Fault Refusal :=
  done s (if !s.qtyRuns ∨ s.qty.paused.isSome then s
    else
      let ps := s.livePoints
      match ps with
      | [] => s
      | i :: rest =>
        let b := rest.foldl (fun a j => min a (s.pt j).due) (s.pt i).due
        let s := s.advanceTo (b * secU)
        let go := ps.filter (fun j => (s.pt j).due == b && s.mayClose j)
        if go.isEmpty then s
        else (s.each go (fun s j => s.intClose j (b * 1000000000) (b * 1000000000) false s.epoch)).retCopy)

/-- RECORD_POP: a write of 1 to QTY_REC_POP removes the oldest unread record (R308). -/
def execRecordPop (m : Master) (s : State) : Host.Outcome State Fault Refusal :=
  done s (s.accessW m QTY_REC_POP_POP.addr 1 (fun s =>
    let ring := s.qty.ring.drop 1
    ({ s with qty := { s.qty with ring := ring } } : State).wr QTY_REC_STAT_COUNT ring.length))

/-- MD_RESET: a write of a point number clears its maximum demand (R309). -/
def execMdReset (m : Master) (p : Nat) (s : State) : Host.Outcome State Fault Refusal :=
  done s (s.accessW m QTY_MD_RST_POINT.addr p (fun s =>
    let i := p % 512
    if 48 ≤ i ∧ i < 256 then s
    else
      let old := s.rd (ptMdLo i)
      let s := ((s.wr (ptMdLo i) 0).wr (ptMdHi i) 0).wr (ptMdTime i) 0
      let s := s.setPt i { s.pt i with sf := setBits (s.pt i).sf 2 1 1 }
      s.ev 0x8070 i (mNum m) old 0))

/-- QTY_SEAL.SEALED as its voted copies give it; the safe value is 1 (R314). -/
def State.qtySealed (s : State) : Bool := s.rdV 1 QTY_SEAL_SEALED != 0

/-- SEAL_WRITE: the first write of 1 to QTY_SEAL sets the metrology seal (R314). -/
def execSealWrite (m : Master) (v : Nat) (s : State) : Host.Outcome State Fault Refusal :=
  done s (s.accessW m QTY_SEAL_SEALED.addr v (fun s =>
    if s.qtySealed then s.ev 0xD011 QTY_SEAL_SEALED.addr v (mNum m) 0
    else if v % 2 = 1 then s.wrV QTY_SEAL_SEALED 1 else s))

/-! ### Entries, parameters and start-up (R289, R297, R315) -/

def demLens : List Nat := [1, 2, 3, 4, 5, 6, 10, 12, 15, 20, 30, 60]

/-- A channel's correction boundaries ascend strictly. -/
def State.boundsUp (s : State) (c : Nat) : Bool := (List.range 6).all (fun b => decide (s.rd (QTY_COR_B_BOUND c (b + 1)) < s.rd (QTY_COR_B_BOUND c (b + 2))))

/-- Why an enabled entry is refused, 0 for none. -/
def State.pointRefused (s : State) (i : Nat) : Nat :=
  if isTrf i then
    let t := i - 256
    if s.rd (TPT_KIND t) = 3 then 1
    else if !demLens.contains (s.rd (TPT_DEMLEN t)) then 4
    else if (List.range 256).any (fun u => u != t && s.is (TPT_EN u) && s.rd (TPT_FLOWID u) == s.rd (TPT_FLOWID t)) then 6
    else 0
  else
    let cs := (s.elements i).flatMap (fun e => [e.1, e.2])
    if s.rd (MPT_WIRING i) = 3 then 1
    else if cs.any (fun c => decide (191 < c) || !s.laneEn (c / 8) || 1 < (cs.filter (fun x => x == c)).length) then 2
    else if s.rd (MPT_KPLO i) + s.rd (MPT_KPHI i) = 0 then 3
    else if !demLens.contains (s.rd (MPT_DEMLEN i)) then 4
    else if cs.any (fun c => !s.boundsUp c) then 5
    else 0

/-- A point that an apply has enabled begins its first interval now; REGRESET waits for that interval (R313). -/
def State.pointBegin (s : State) (i : Nat) : State :=
  let reset := bit (s.pt i).qf 5 == 1
  let s := (s.setPt i { (s.pt i).fresh with lastAt := s.mono }).intStart i s.nowNs
  let s := if reset then s.setPt i ((s.pt i).flag 5) else s
  if s.qty.paused.isSome then s.mGapOpen i 2 s.nowNs else s

/-- The sealed fields of a point in word order. -/
def sealFields (i : Nat) : List Field :=
  if isTrf i then
    let t := i - 256
    [TPT_EN t, TPT_KIND t, TPT_DIRINV t, TPT_PORT t, TPT_FLOWID t, TPT_SRCIP t, TPT_DEMLEN t]
  else
    [MPT_EN i, MPT_WIRING i, MPT_DIRINV i, MPT_VCH0 i, MPT_VCH1 i, MPT_VCH2 i, MPT_ICH0 i, MPT_ICH1 i, MPT_ICH2 i, MPT_KPLO i, MPT_KPHI i,
      MPT_START i, MPT_SEGHYST i, MPT_DEMLEN i]

/-- The correction table of a channel. -/
def corFields (c : Nat) : List Field :=
  (List.range 7).map (fun b => QTY_COR_B_BOUND c (b + 1)) ++ (List.range 8).map (fun k => QTY_COR_G_GAIN c k) ++ (List.range 8).map (fun k => QTY_COR_P_PHASE c k)

/-- All sealed fields of a point. -/
def State.sealAll (s : State) (i : Nat) : List Field :=
  sealFields i ++ (if isTrf i then [] else
    [MPT_VCH0 i, MPT_VCH1 i, MPT_VCH2 i, MPT_ICH0 i, MPT_ICH1 i, MPT_ICH2 i].flatMap (fun f => corFields (s.rd f)))

/-- The seal code is recomputed at a start-up; `good` are the keys of the sealed fields that came from passing SEALED sections
(R315). -/
def State.sealCheck (s : State) (good : List Nat) (i : Nat) : State :=
  let fs := s.sealAll i
  let code := (Config.sealCode (fs.map (fun f => s.rd f))).toNat
  let old := s.rd (ptSeal i)
  let whole := fs.all (fun f => good.contains (fieldKey f))
  let s := s.wr (ptFall i) 0
  if code = old then s
  else if whole || !s.qtySealed then
    let n := (s.rd QTY_PARAM_PARAMCNT + 1) % 65536
    ((s.wr (ptSeal i) code).wr QTY_PARAM_PARAMCNT n).ev 0x8004 (b2n (isTrf i)) (i % 256) code n
  else (s.wr (ptFall i) 1).ev 0x8003 (b2n (isTrf i)) (i % 256) old code

/-- Points in parameter fallback have a gap of cause 6. -/
def State.fallGaps (s : State) : State :=
  s.each (s.livePoints.filter (fun i => s.is (ptFall i))) (fun s i => (s.setPt i { s.pt i with gap := none }).mGapOpen i 6 s.nowNs)

/-! ### Supply failure and steps of the counter (R84, R85, R305) -/

/-- Accumulation stops at the next step boundary, with a copy (R84). -/
def State.qtyPause (s : State) : State :=
  if !s.on 5 then s
  else if !s.qtyRuns then s.retCopy
  else
    let s := s.advanceTo (instU 12000 (instFrom 12000 s.tai))
    let s := match s.qty.next with
      | some p => if s.stepDue p ≤ s.tai then s.intStep p else s
      | none => s
    let s := s.each s.livePoints (fun s i => s.mGapOpen i 2 s.nowNs)
    ({ s with qty := { s.qty with paused := some s.mono } } : State).retCopy

/-- Accumulation resumes; the pause is a gap, and intervals it passed over close (R85). -/
def State.qtyResume (s : State) : State :=
  match s.qty.paused with
  | none => s
  | some _ =>
    let a := s.qty.lastStep
    let s : State := { s with qty := { s.qty with paused := none } }
    if !s.qtyRuns then s else
    let s := s.spanAll a s.nowNs
    let s := s.each (s.livePoints.filter isTrf) (fun s i => s.mGapClose i)
    s.qtyStart

/-- Steps whose span began before a step of the counter are integrated first. -/
def State.drainSteps (fuel endNs : Nat) (s : State) : State :=
  match fuel with
  | 0 => s
  | f + 1 =>
    match s.qty.next with
    | none => s
    | some p => if stepNs p < endNs then State.drainSteps f endNs (s.intStep p) else s

/-- What was sampled before a step of the counter at a TAI instant in ns is integrated before it. -/
def State.qtyDrain (s : State) (a : Nat) : State :=
  if !s.qtyRuns ∨ s.qty.paused.isSome then s else State.drainSteps 500 a s

/-- A forward step from one TAI time in ns to the present one: the passed span closes intervals with TIMEIRR (R305). -/
def State.qtyForward (s : State) (a : Nat) : State :=
  if !s.qtyRuns ∨ s.qty.paused.isSome then s
  else
    let s := s.each s.livePoints (fun s i => s.setPt i ((s.pt i).flag 7))
    (s.spanAll a s.nowNs).qtyStart

/-- A backward step: the interval in progress closes at the step tick, and a new one runs from the stepped value (R305); END lies in epoch `ep`. -/
def State.qtyBackward (s : State) (a ep : Nat) : State :=
  if !s.qtyRuns ∨ s.qty.paused.isSome then s
  else
    (s.each s.livePoints (fun s i => s.intClose i a s.nowNs true ep)).qtyStart

/-- A leap second moves the boundaries still to come (R303). -/
def State.qtyLeap (s : State) : State :=
  s.each s.livePoints (fun s i => s.setPt i { (s.pt i) with due := s.bndFrom i (max (secOf s.tai) ((s.pt i).start / 1000000000 + 1)) })

end Sys2Proof.Machine
end

