-- ==== Sys2Proof/Machine/Tense.lean ====
section
/-! DEFINITION. Tense: the increment, snapshots, the servo and its sources, the pulses, steps of the counter and leap seconds
(R86–R100, R105–R109). Which bound a slew runs at, and what a source's first grandmaster counts as: DEDUCED, log 40. -/

namespace Sys2Proof.Machine

/-! ### The increment (R87) -/

/-- The clamp of the increment for a limit in ppm: lower bound rounded up, upper bound down. -/
def incLow (ppm : Nat) : Nat := (tickU * (1000000 - ppm) + 999999) / 1000000
def incHigh (ppm : Nat) : Nat := tickU * (1000000 + ppm) / 1000000

/-- Writes the increment, clamped; a clamp records event 0x1013 with its cause. -/
def State.setInc (s : State) (v cause : Nat) : State :=
  let lim := s.eff TNS_INC_LIM_PPM
  let c := clamp (incLow lim) (incHigh lim) v
  let s := (s.wr TNS_INC_LO_FRAC (c % 2 ^ 32)).wr TNS_INC_HI_NS (c / 2 ^ 32)
  if c = v then s else s.ev 0x1013 (v / 2 ^ 32) (v % 2 ^ 32) lim cause

/-- A new TNS_INC_LIM clamps the increment in force. -/
def State.incApply (s : State) : State := s.setInc s.inc 3

/-! ### Snapshots (R89) -/

/-- The counter and its marks go into a master's snapshot. -/
def State.snapshot (s : State) (m : Master) : State :=
  let sec := secOf s.tai
  let s := ((s.wr (forM m TNS_SEC_HI_SEC) (sec / 2 ^ 32)).wr (forM m TNS_SEC_LO_SEC) (sec % 2 ^ 32)).wr (forM m TNS_NS_NS) (nsOf s.tai)
  let s := (s.wr (forM m TNS_FRAC_FRAC) (s.tai % nsU)).wr (forM m TNS_SNAP_Q_EPOCH) s.epoch
  (s.wr (forM m TNS_SNAP_Q_QUAL) s.quality).wr (forM m TNS_SNAP_Q_IRC) (b2n s.boot.ircFlag)

/-! ### Sources and priorities (R92, R93) -/

/-- Source 1 to 4. -/
def State.src (s : State) (n : Nat) : TSource := if n = 0 then tSource0 else nth s.tns.srcs (n - 1) tSource0

def State.setSrc (s : State) (n : Nat) (x : TSource) : State :=
  if n = 0 then s else { s with tns := { s.tns with srcs := setNth s.tns.srcs (n - 1) x } }

/-- The enable of a source's input. -/
def State.srcEn (s : State) (n : Nat) : Bool :=
  if n = 1 then s.is TNS_DOMA_CFG_EN else if n = 2 then s.is TNS_DOMB_CFG_EN else if n = 3 then s.is TNS_IRIG_CFG_EN
  else if n = 4 then s.is TNS_PPSI_CFG_EN else false

/-- The sources of TNS_CTRL.PRIO, highest first. -/
def State.prioList (s : State) : List Nat :=
  ((List.range 4).map (fun i => bits (s.rd TNS_CTRL_PRIO) (4 * i) 4)).filter (fun n => n != 0 && decide (n ≤ 4))

/-- The valid source that stands highest, 0 for none. -/
def State.bestSrc (s : State) : Nat := (s.prioList.find? (fun n => (s.src n).valid)).getD 0

/-- The standby PTP domain: that which was not the active source last (R96, DEDUCED, log 41). -/
def State.standby (s : State) : Nat := 3 - s.tns.domAct

/-- ALT_OK holds while every condition of R97 holds. -/
def State.altOk (s : State) : State :=
  let b := s.standby
  let x := s.src b
  s.wr TNS_STAT_ALT_OK (b2n (s.srcEn b && x.valid && x.measured && x.incSet))

/-- PPS_OUT is driven in this servo state (R100). -/
def State.ppsOn (s : State) : Bool :=
  let st := s.rd TNS_STAT_STATE
  s.red.live && s.is TNS_PPSO_CFG_EN &&
    (match s.rd TNS_PPSO_CFG_MODE with
     | 0 => true
     | 1 => st == 2 || st == 3
     | _ => st == 2)

/-- A pulse ends at once where PPS_OUT is no longer driven: the pin is held at its inactive level. -/
def State.ppsCheck (s : State) : State := if s.ppsOn then s else { s with tns := { s.tns with ppsActive := false } }

/-- The level of the PPS_OUT pin: its active level is low with POL 1. -/
def State.ppsPin (s : State) : Bool := s.tns.ppsActive != s.is TNS_PPSO_CFG_POL

/-- A source becomes valid or invalid: event 0x1005, whose reason numbers the spec does not give. -/
def State.srcValid (s : State) (n : Nat) (v : Bool) : State :=
  let x := s.src n
  if x.valid == v then s
  else
    let x := if v then { x with valid := true, validAt := s.mono, measured := false, incSet := false }
      else { x with valid := false, announced := false, good := 0, measured := false, incSet := false, peer := none }
    let (r, s) := (s.setSrc n x).draw
    (s.ev 0x1005 n (b2n v) r 0).altOk

/-! ### Servo states (R94) -/

/-- A servo state is entered. -/
def State.servo (s : State) (st : Nat) : State :=
  let was := s.rd TNS_STAT_STATE
  if st = was then s
  else
    let s := if was = 2 ∨ st = 2 then s.qtyServo (decide (st = 2)) else s
    let s := (s.mark 0).wr TNS_STAT_STATE st
    let s : State := if was = 2 then { s with tns := { s.tns with leftAt := s.mono } } else s
    let s : State := if st = 1 then { s with tns := { s.tns with run := 0 } } else s
    let s : State := if st = 2 then { s with tns := { s.tns with everLocked := true } } else s
    s.ppsCheck.health

/-- The PTP domain that is not standby. The other has no increment in TNS_INC_ALT yet when they change places (R97). -/
def State.setDom (s : State) (n : Nat) : State :=
  if n = s.tns.domAct then s
  else
    let s := s.each [1, 2] (fun s k => s.setSrc k { s.src k with incSet := false })
    { s with tns := { s.tns with domAct := n } }

/-- The active source changes (event 0x1001). A change to none carries an open offset. -/
def State.setActive (s : State) (n : Nat) : State :=
  let was := s.rd TNS_STAT_SRC
  if n = was then s
  else
    let s := s.wr TNS_STAT_SRC n
    let s := if n = 1 ∨ n = 2 then s.setDom n else s
    let (o, s) := if n = 0 then s.draw else (i32 (s.src n).offset, s)
    (s.ev 0x1001 n was o 0).altOk

/-- No source is valid any more: LOCKED becomes HOLDOVER (R94). A source transferred to that stands in no place of PRIO stays active
while it is valid. -/
def State.sourceLost (s : State) : State :=
  if s.bestSrc ≠ 0 ∨ (s.src (s.rd TNS_STAT_SRC)).valid then s
  else
    let was := s.rd TNS_STAT_SRC
    let s := if s.rd TNS_STAT_STATE = 2 then
        let s := s.servo 3
        s.ev 0x1003 was s.tqCode 0 0
      else s
    s.setActive 0

/-! ### Corrections: slew and step (R105–R108) -/

/-- No slew runs, and the increment is the estimate. -/
def State.slewOff (s : State) : State :=
  (({ s with tns := { s.tns with slewEnd := none } } : State).wr TNS_STAT_SLEW 0).setInc s.tns.est 0

/-- The increment of a slew: TNS_INC_LIM away from the estimate, or the bound of R87 where that lies nearer (DESIGN CHOICE, log 40). -/
def State.slewInc (s : State) (c : Int) : Nat :=
  let lim := s.eff TNS_INC_LIM_PPM
  let d := tickU * lim / 1000000
  clamp (incLow lim) (incHigh lim) (if c < 0 then s.tns.est - d else s.tns.est + d)

/-- A slew of `c` ns replaces what was left of another; none starts where the estimate leaves no room (DESIGN CHOICE, log 40). -/
def State.slew (s : State) (c : Int) : State :=
  let v := s.slewInc c
  let d := if c < 0 then s.tns.est - v else v - s.tns.est
  if c = 0 ∨ d = 0 then s.slewOff
  else
    let s := s.setInc v 0
    let n := (c.natAbs * nsU + d - 1) / d
    let s : State := { s with tns := { s.tns with slewEnd := some (s.mono + n * tickU) } }
    (s.wr TNS_STAT_SLEW 1).ev 0x1012 (i32 c) ((n * 25 + 9999) / 10000) 0 0

/-- SLEW_END: the correction has been absorbed, and the increment returns to the estimate (R105). -/
def execSlewEnd (s : State) : Host.Outcome State Fault Refusal :=
  done s (
    match s.tns.slewEnd with
    | none => s
    | some t =>
      if !s.up then s else (s.waitUntil t).slewOff)

/-- The counter wraps at 2^48 seconds. -/
def taiMod : Nat := 2 ^ 48 * secU

/-- A step leaves LOCKED for ACQUIRING and restarts the count of 16 (R94). -/
def State.stepServo (s : State) : State :=
  let st := s.rd TNS_STAT_STATE
  let s : State := { s with tns := { s.tns with run := 0 } }
  if st = 2 then s.servo 1 else s

/-- PPS_OUT's next edge lies at the first top of a second, less ADV, after now. -/
def State.ppsArm (s : State) : State :=
  { s with tns := { s.tns with ppsNext := (s.tai + s.rd TNS_PPSO_CFG_ADV * nsU) / secU + 1 } }

/-- The edge of PPS_OUT. -/
def State.ppsEdge (s : State) : State :=
  let s := s.ppsArm
  if s.ppsOn then { s with tns := { s.tns with ppsActive := true, ppsEnd := s.mono + s.eff TNS_PPSO_CFG_WIDTH * 1000000 * nsU } } else s

/-- PPS_OUT_EDGE (R100, R394). -/
def execPpsOutEdge (s : State) : Host.Outcome State Fault Refusal :=
  done s (if !s.up then s else (s.advanceTo (s.tns.ppsNext * secU - s.rd TNS_PPSO_CFG_ADV * nsU)).ppsEdge)

/-- PPS_OUT_END (R100). -/
def execPpsOutEnd (s : State) : Host.Outcome State Fault Refusal :=
  done s (if s.up && s.tns.ppsActive then
      let s := s.waitUntil s.tns.ppsEnd
      { s with tns := { s.tns with ppsActive := false } }
    else s)

/-! ### Leap seconds (R109) -/

/-- The TAI second at which a leap second takes effect that is announced now: `del` for a deleted one. -/
def State.leapSec (s : State) (del : Bool) : Nat :=
  let ofs := s.rd TNS_UTC_OFS
  (((secOf s.tai - ofs) / 86400 + 1) * 86400 + ofs) - b2n del

/-- A source announces a leap second: 1 inserted, 2 deleted. -/
def State.leapPend (s : State) (leap : Nat) : State :=
  if leap = 0 ∨ s.tns.leapAt.isSome then s
  else
    let s : State := { s with tns := { s.tns with leapAt := some (s.leapSec (leap == 2)) } }
    (s.wr TNS_UTC_LSP 1).wr TNS_UTC_LSDIR (b2n (leap == 2))

/-- The pending leap second takes effect. -/
def State.leapNow (s : State) : State :=
  if s.tns.leapAt.isNone then s
  else
    let old := s.rd TNS_UTC_OFS
    let dir := s.rd TNS_UTC_LSDIR
    let new := if dir = 0 then (old + 1) % 65536 else (old + 65535) % 65536
    let s : State := { s with tns := { s.tns with leapAt := none }, ing := { s.ing with lastLeap := some s.mono, oldOfs := old } }
    let s := ((s.wrBoth TNS_UTC_OFS new).wr TNS_UTC_LSP 0).wr TNS_UTC_LSOCC (1 - s.rd TNS_UTC_LSOCC)
    let s := s.ev 0x1040 new dir 0 0
    if s.on 5 then s.qtyLeap else s

/-- LEAP_SECOND. -/
def execLeapSecond (s : State) : Host.Outcome State Fault Refusal :=
  done s (
    match s.tns.leapAt with
    | some t => if s.up then (s.advanceTo (t * secU)).leapNow else s
    | none => s)

/-- A source gives TAI − UTC (event 0x1041). -/
def State.utcTake (s : State) (n : Nat) (ofs : Option Nat) : State :=
  match ofs with
  | none => s
  | some v =>
    let old := s.rd TNS_UTC_OFS
    if v % 65536 = old then s
    else
      let s := (s.wrBoth TNS_UTC_OFS v).ev 0x1041 (v % 65536) n 0 0
      match s.tns.leapAt with
      | some _ => { s with tns := { s.tns with leapAt := some (s.leapSec (s.is TNS_UTC_LSDIR)) } }
      | none => s

/-! ### Steps (R106–R108, R202, R203) -/

/-- The size of the step in TNS_STEP_SEC and TNS_STEP_NS, in ns. -/
def State.stepNsOf (s : State) : Int := sint 32 (s.rd TNS_STEP_SEC_SEC) * 1000000000 + (s.rd TNS_STEP_NS_NS : Int)

/-- Slots whose speculation and commit points have both been passed have no speculation point (R202). -/
def State.noSpecPassed (s : State) : State :=
  let now := s.nowNs
  s.each s.ccd.ring (fun s e =>
    let x := e.2
    match x.specAt with
    | some t => if x.st = 2 ∧ !x.released ∧ t ≤ now ∧ x.commitAt ≤ now then s.setSlot e.1 { x with specAt := none, noSpec := true } else s
    | none => s)

/-- The slot times passed over whose commit point is not later than now, and the grid after them. -/
def State.passedSkips (s : State) : List Nat × (Nat × Nat) :=
  let f := s.rate
  let now := s.nowNs
  let late : Bool := match s.ccd.lastOpen with
    | some (e, _, c) => e == s.epoch && decide (now < c)
    | none => false
  let w := s.eff CCD_WAIT_WAIT
  let ix (g : Nat × Nat) : Nat := g.1 * f + g.2
  let n := if late then 0 else ix (gridOf f now) + 1 - w - ix s.ccd.grid
  ((List.range n).map (fun i => gridNs f (gridStep f s.ccd.grid i)), gridStep f s.ccd.grid n)

/-- The next slot instant: a point of an open slot, or a slot time (R191). -/
def State.slotAt (s : State) : Nat :=
  match s.firstPoint with
  | some (u, _, _) => min u s.nextSlotNs
  | none => s.nextSlotNs

/-- That instant falls due: points before a slot time of the same instant. -/
def State.slotOne (s : State) : State :=
  match s.firstPoint with
  | some (u, c, pos) =>
    if u ≤ s.nextSlotNs then
      (match s.slot pos with
       | some sl => if c = 0 then s.commitPoint pos sl else s.specPoint pos sl
       | none => s)
    else s.slotDue s.ccd.grid
  | none => s.slotDue s.ccd.grid

/-- The instants of the counter that a forward step passes over, with what each is: 0 a leap second, 1 a slot instant, 2 an entry of the
delay list, 3 an edge of PPS_OUT. -/
def State.passed (s : State) : List (Nat × Nat) :=
  let leap := match s.tns.leapAt with
    | some l => [(l * secU, 0)]
    | none => []
  let slot := if s.slotsRun then [(s.slotAt * nsU, 1)] else []
  let dly := match s.sch.dly with
    | e :: _ => if s.on 4 then [(e.due, 2)] else []
    | [] => []
  (leap ++ slot ++ dly ++ [(s.tns.ppsNext * secU - s.rd TNS_PPSO_CFG_ADV * nsU, 3)]).filter (fun p => decide (p.1 ≤ s.tai))

/-- The instants passed over fall due in time order (R106); of one instant, in the order of their numbers. -/
def State.stepCatch (fuel : Nat) (s : State) : State :=
  match fuel with
  | 0 => s
  | n + 1 =>
    match s.passed with
    | [] => s
    | p :: r =>
      let f := r.foldl (fun a x => if x.1 < a.1 then x else a) p
      State.stepCatch n (if f.2 = 0 then s.leapNow else if f.2 = 1 then s.slotOne else if f.2 = 2 then s.delayFirst else s.ppsEdge)

/-- The slot times that a forward step skips (R202). -/
def State.stepSlotsForward (s : State) : State :=
  if !s.slotsRun then s
  else
    let s := s.noSpecPassed
    let (ts, g) := s.passedSkips
    let s : State := { s with ccd := { s.ccd with grid := g, o := if ts.isEmpty then s.ccd.o else ts.getLast? } }
    if s.ccd.paused then s else s.skipRun ts s.epoch 1

/-- The slots once every instant passed over has fallen due. -/
def State.stepSlotsEnd (s : State) : State := if s.slotsRun then (s.heldSkip.heldStat).arcFlush 255 else s

/-- Concord on a backward step: every open slot is aborted and every held slot time ends, as one dead range (R107, R203). -/
def State.stepSlotsBack (s : State) (oldEpoch : Nat) : State × Nat :=
  if !s.slotsRun then (s, 0)
  else
    let order := s.openOrder
    let held := s.ccd.helds.map (fun h => h.t)
    let ts := order.map (fun e => e.2.t) ++ held
    let dead := match ts with
      | [] => s.ccd.dead
      | t :: r => (⟨r.foldl min t, r.foldl max t, oldEpoch⟩ :: s.ccd.dead).take 16
    let s := s.each order (fun s e =>
      match s.slot e.1 with
      | some sl => s.abortSlot e.1 sl 1
      | none => s)
    let s : State := { s with ccd := { s.ccd with helds := [] } }
    let s := (s.skipRun held oldEpoch 3).heldStat.earlyStale
    let g := gridOf s.rate s.nowNs
    let s : State := { s with ccd := { s.ccd with dead := dead, grid := gridStep s.rate g 1, o := some (gridNs s.rate g), stamps := s.ccd.stamps.map (fun _ => 0) } }
    (s.arcFlush 255, order.length)

/-- The window of the recorder's limits ends on the tick of a step. -/
def State.stepRate (s : State) (fwd : Bool) : State :=
  if s.log.running && (!fwd || decide (s.log.rateEnd ≤ s.tai)) then s.rateWindowEnd else s

/-- The step in TNS_STEP_SEC and TNS_STEP_NS is applied on this core tick (R106–R108). -/
def State.stepNow (s : State) (m : Nat) : State :=
  let c := s.stepNsOf
  let sec := s.rd TNS_STEP_SEC_SEC
  let ns := s.rd TNS_STEP_NS_NS
  if c = 0 then s
  else
    let a := s.nowNs
    let s := s.qtyDrain a
    if 0 < c then
      let x := (s.tai + c.natAbs * nsU) % taiMod
      let s := s.mark ((x : Int) - (s.tai : Int))
      let s : State := { s with tai := x }
      let s := (s.cnt TNS_STEP_CNT_FWD).ev 0x1010 sec ns s.epoch m
      let s := s.stepServo.stepSlotsForward
      let s := (State.stepCatch 4096 s).stepSlotsEnd
      ((s.qtyForward a).acqStep.phsStep false).stepRate true
    else
      let e := s.epoch
      let x := (s.tai + taiMod - c.natAbs * nsU % taiMod) % taiMod
      let s := (s.mark ((x : Int) - (s.tai : Int))).wr TNS_EPOCH_EPOCH (e + 1)
      let s : State := { s with tai := x }
      let (s, n) := s.stepSlotsBack e
      let s := (s.cnt TNS_STEP_CNT_BACK).ev 0x1011 sec ns s.epoch n
      let s := s.stepServo.delayBack (c.natAbs * nsU) sec ns
      (((s.qtyBackward a e).acqStep.phsStep true).stepRate false).ppsArm

/-- A correction of the servo: slewed within TNS_STEP_MAX, else stepped (R105–R107). -/
def State.correct (s : State) (c : Int) : State :=
  if c.natAbs ≤ s.eff TNS_STEP_MAX_NS then s.slew c
  else
    let sec := c / 1000000000
    let s := (s.wr TNS_STEP_SEC_SEC (i32 sec)).wr TNS_STEP_NS_NS (c % 1000000000).toNat
    s.slewOff.tick.stepNow 0

/-- The offset between a source selected and the counter is applied. -/
def State.correctTo (s : State) (n : Nat) : State := if (s.src n).measured then s.correct (s.src n).offset else s

/-- The transfer of R97: on this core tick TNS_INC takes TNS_INC_ALT, and the standby domain becomes active. Its offset is then applied
(`correctTo`). -/
def State.transfer (s : State) : State :=
  let b := s.standby
  let a := s.tns.domAct
  let st := s.rd TNS_STAT_STATE
  let s := if st = 0 ∨ st = 3 ∨ st = 4 then s.servo 1 else s
  let s := s.setInc (s.rd TNS_INC_ALT_HI_NS * 2 ^ 32 + s.rd TNS_INC_ALT_LO_FRAC) 2
  let s : State := { s with tns := { s.tns with est := s.inc } }
  (((s.setActive b).ev 0x1020 a b (i32 (s.src b).offset) 0).setDom b).altOk

/-! ### Writes that take effect at the next core tick (R87, R89, R97, R106–R108) -/

/-- What such a write does on that tick: the increment with the cause of R87, the transfer, a step with its master's number, a snapshot. -/
inductive TickOp where
  | inc (v cause : Nat)
  | xfer
  | step (m : Nat)
  | snap (m : Master)
  deriving DecidableEq, Repr

/-- The next core tick, with what the writes of one cycle do on it: increments, the transfer, which leaves TNS_INC_ALT in force, the
step, and snapshots of the stepped counter. Then the offset of a domain transferred to is applied. Two step commands of one cycle
are one write of one register, and the host's stands (R23). -/
def State.tickOps (s : State) (l : List TickOp) : State :=
  let l := l.filter (fun o => match o with
    | .step _ => s.stepNsOf != 0
    | _ => true)
  if l.isEmpty then s
  else
    let s := l.foldl (fun s o => match o with
      | .inc v c => s.setInc v c
      | _ => s) s.tick
    let go := l.contains .xfer
    let b := s.standby
    let s := if go then s.transfer else s
    let s := match l.reverse.findSome? (fun o => match o with
        | .step m => some m
        | _ => none) with
      | some m => s.stepNow m
      | none => s
    let s := l.foldl (fun s o => match o with
      | .snap m => s.snapshot m
      | _ => s) s
    if go then s.correctTo b else s

/-- A write access whose effect comes at the next core tick: what it does as it is served, and that effect. -/
def State.accessOp (s : State) (m : Master) (a v : Nat) (eff : State → State × List TickOp) : State × List TickOp :=
  let ok := s.up && (busFail s m true 4 a).isNone
  let s := s.accessW m a v (fun s => s)
  if ok then eff s else (s, [])

/-- A write of TNS_INC: a low word alone waits for its high word. -/
def State.incWrite (s : State) (m : Master) (lo hi : Option Nat) : State × List TickOp :=
  match lo, hi with
  | none, none => (s, [])
  | some l, none => s.accessOp m TNS_INC_LO_FRAC.addr l (fun s => ({ s with tns := { s.tns with loHeld := some (l % 2 ^ 32) } }, []))
  | _, some h =>
    s.accessOp m (if lo.isSome then TNS_INC_LO_FRAC.addr else TNS_INC_HI_NS.addr) (lo.getD h) (fun s =>
      let low := (lo.map (fun v => v % 2 ^ 32)).getD (s.tns.loHeld.getD (s.rd TNS_INC_LO_FRAC))
      ({ s with tns := { s.tns with loHeld := none } }, [.inc (h % 16 * 2 ^ 32 + low) (mNum m)]))

/-- A write of 1 to TNS_XFER; refused while ALT_OK is 0 (R97). -/
def State.xferWrite (s : State) (m : Master) : State × List TickOp :=
  s.accessOp m TNS_XFER_GO.addr 1 (fun s =>
    if s.is TNS_STAT_XFER then (s, [])
    else if s.is TNS_STAT_ALT_OK then (s, [.xfer])
    else
      let b := s.standby
      let r := if !s.srcEn b then 1 else if !(s.src b).valid then 2 else 3
      (s.ev 0x1022 b r (mNum m) 0, []))

/-- A write of 1 to TNS_STEP_CMD. -/
def State.stepWrite (s : State) (m : Master) : State × List TickOp :=
  s.accessOp m TNS_STEP_CMD_GO.addr 1 (fun s => (s, [.step (mNum m)]))

/-- A write of 1 to TNS_SNAP. -/
def State.snapWrite (s : State) (m : Master) : State × List TickOp :=
  s.accessOp m TNS_SNAP_GO.addr 1 (fun s => (s, [.snap m]))

/-- The core tick after a write. -/
def tickAfter (r : State × List TickOp) : State := r.1.tickOps r.2

/-- TNS_INC_WRITE: the increment changes at the first core tick after its high word; a low word alone waits for it. -/
def execTnsIncWrite (m : Master) (lo hi : Option Nat) (s : State) : Host.Outcome State Fault Refusal :=
  done s (tickAfter (s.incWrite m lo hi))

/-- TIME_SNAPSHOT: a write of 1 to TNS_SNAP captures the counter at the next core tick. -/
def execTimeSnapshot (m : Master) (s : State) : Host.Outcome State Fault Refusal := done s (tickAfter (s.snapWrite m))

/-- TIME_STEP_FORWARD: a write of 1 to TNS_STEP_CMD with a step that is not negative; one of zero has no effect. -/
def execTimeStepForward (m : Master) (s : State) : Host.Outcome State Fault Refusal :=
  done s (if s.stepNsOf < 0 then s else tickAfter (s.stepWrite m))

/-- TIME_STEP_BACKWARD: a write of 1 to TNS_STEP_CMD with a negative step. -/
def execTimeStepBackward (m : Master) (s : State) : Host.Outcome State Fault Refusal :=
  done s (if s.stepNsOf < 0 then tickAfter (s.stepWrite m) else s)

/-- DOMAIN_TRANSFER: a write of 1 to TNS_XFER (R97). -/
def execDomainTransfer (m : Master) (s : State) : Host.Outcome State Fault Refusal := done s (tickAfter (s.xferWrite m))

/-! ### Selection -/

/-- A source is selected: between the PTP domains by a transfer, else with its own estimate (R93, R94, R97). -/
def State.select (s : State) (n : Nat) : State :=
  if n = 0 ∨ n = s.rd TNS_STAT_SRC then s
  else
    let st := s.rd TNS_STAT_STATE
    let s := if st = 0 ∨ st = 3 ∨ st = 4 then s.servo 1 else s
    if n = s.standby ∧ (s.rd TNS_STAT_SRC = s.tns.domAct) ∧ s.is TNS_STAT_ALT_OK then s.tickOps [.xfer]
    else
      let s := s.setActive n
      let s : State := if n ≤ 2 ∧ (s.src n).measured then { s with tns := { s.tns with est := (s.src n).inc } } else s
      s.correctTo n

/-! ### Servo updates (R91–R96) -/

/-- IEEE 1344 time-quality code in ns: 0 locked, 1 to 11 ten to the power of the code less one. -/
def irigError (q : Nat) : Nat := if q = 0 then 0 else if q ≤ 11 then 10 ^ (q - 1) else 10 ^ 11

/-- A PTP domain's message: Announce, peer delay, validity, grandmaster, and until when each keeps it valid (R92, R96). -/
def State.ptpUpdate (s : State) (x : ServoMeas) : State :=
  let o := s.src x.source
  let ann := o.announced || x.announce
  let peer := if x.peer.isSome then x.peer else o.peer
  let good := if ann && peer.isSome then o.good + 1 else o.good
  let s := s.setSrc x.source { o with announced := ann, good := good, lastAt := s.mono, peer := peer, uncert := x.uncert, filt := x.filt,
                                      gm := if x.announce then some x.gm else o.gm,
                                      annDue := if x.announce then s.mono + 3 * x.annNs * nsU else o.annDue,
                                      syncDue := s.mono + 4 * x.syncNs * nsU,
                                      peerDue := if x.peer.isSome then s.mono + 4 * x.peerNs * nsU else o.peerDue }
  let s := match o.gm with
    | some g => if x.announce ∧ g ≠ x.gm then s.ev 0x1021 x.source (x.gm / 2 ^ 32) x.gm x.gmClass else s
    | none => s
  if !o.valid ∧ ann ∧ 4 ≤ good then s.srcValid x.source true else s

/-- The measured offset of a source and its estimate, and the increment the servo writes for the standby domain on every update of it; only
what is measured while the source is valid counts for R97. -/
def State.measure (s : State) (x : ServoMeas) (c : Int) : State :=
  let o := s.src x.source
  if 2 < x.source then (if o.valid then s.setSrc x.source { o with offset := c, measured := true, inc := x.inc } else s)
  else
    let s := s.setSrc x.source { o with offset := c, measured := o.valid, inc := x.inc, incSet := o.valid && x.source == s.standby }
    let s := if x.source = s.standby then (s.wr TNS_INC_ALT_LO_FRAC (x.inc % 2 ^ 32)).wr TNS_INC_ALT_HI_NS (x.inc / 2 ^ 32) else s
    s.altOk

/-- E of an update made in LOCKED, from which holdover starts (R91). -/
def State.holdFrom (s : State) (n : Nat) : State :=
  let o := s.src n
  if s.rd TNS_STAT_STATE = 2 then { s with tns := { s.tns with holdE := o.uncert + o.filt } } else s

/-- The update of the active source: offset, increment, correction and state (R94). The update that selects a source is not one of the
16 (DESIGN CHOICE, log 40). -/
def State.activeUpdate (s : State) (x : ServoMeas) (c : Int) : State :=
  let s := s.wr TNS_OFFSET_NS (i32 (satS 32 c))
  let s : State := { s with tns := { s.tns with est := x.inc } }
  let s := if s.is TNS_STAT_SLEW then s else s.setInc x.inc 0
  let stepped := decide (s.eff TNS_STEP_MAX_NS < c.natAbs)
  let s := if c = 0 ∧ !s.is TNS_STAT_SLEW then s else s.correct c
  if stepped then s
  else
    let run := if c.natAbs ≤ s.eff TNS_SERVO_LOCK_THR then s.tns.run + 1 else 0
    let s : State := { s with tns := { s.tns with run := run } }
    let s := if s.rd TNS_STAT_STATE = 1 ∧ 16 ≤ run then (s.servo 2).ev 0x1002 x.source (i32 (satS 32 c)) 0 0 else s
    s.holdFrom x.source

/-- SERVO_UPDATE: the servo's update on a source's Sync, frame or pulse. For sources 3 and 4 the offset is that of the stamp
taken. -/
def execServoUpdate (x : ServoMeas) (s : State) : Host.Outcome State Fault Refusal :=
  done s (if !s.up || !s.srcEn x.source then s
    else
      let s := if x.source ≤ 2 then s.ptpUpdate x
        else s.setSrc x.source { s.src x.source with filt := x.filt }
      let c := if x.source ≤ 2 then x.offset else (s.src x.source).offset
      let s := s.measure x c
      let act := s.rd TNS_STAT_SRC
      let s := if (s.src act).valid then s else s.select s.bestSrc
      let own := s.rd TNS_STAT_SRC
      let ptp := x.source ≤ 2 ∧ (s.src x.source).valid ∧ (own = x.source ∨ 2 < own)
      let s := if ptp then s.utcTake x.source x.utcOfs else s
      let s := if ptp then s.leapPend x.leap else s
      if own = x.source ∧ own = act then s.activeUpdate x c
      else if own = x.source then (s.wr TNS_OFFSET_NS (i32 (satS 32 c))).holdFrom x.source
      else s)

/-- When a source's limit of R92 runs out: of a PTP domain the first of its three, 2 s after an IRIG-B frame, 1 s + 100 µs after an edge of
PPS_IN. -/
def State.srcDue (s : State) (n : Nat) : Nat :=
  let o := s.src n
  if n ≤ 2 then min o.annDue (min o.syncDue o.peerDue) else if n = 3 then o.lastAt + 2 * secU else o.lastAt + 1000100000 * nsU

/-- SOURCE_TIMEOUT: a source becomes invalid as its limit runs out (R92). -/
def execSourceTimeout (src : Nat) (s : State) : Host.Outcome State Fault Refusal :=
  done s (if !s.up ∨ src = 0 ∨ 4 < src then s
    else
      let o := s.src src
      let s := s.waitUntil (s.srcDue src)
      let s : State := if src = 4 then { s with tns := { s.tns with ppsLast := none } } else if src = 3 then { s with tns := { s.tns with irigLast := none } } else s
      if o.valid then (s.srcValid src false).sourceLost
      else s.setSrc src { o with announced := false, good := 0, peer := none })

/-- The valid sources above the active one, with the instant at which each has been valid for REVERT seconds. -/
def State.reverts (s : State) : List (Nat × Nat) :=
  let act := s.rd TNS_STAT_SRC
  ((s.prioList.takeWhile (fun n => n != act)).filter (fun n => (s.src n).valid)).map (fun n => (n, (s.src n).validAt + s.rd TNS_CTRL_REVERT * secU))

/-- REVERT_EXPIRY: a source above the active one has stayed valid for REVERT seconds and is selected (R93). -/
def execRevertExpiry (s : State) : Host.Outcome State Fault Refusal :=
  done s (if !s.up || s.rd TNS_STAT_SRC = 0 then s
    else
      match s.reverts with
      | [] => s
      | r :: rs =>
        let t := rs.foldl (fun a p => min a p.2) r.2
        let s := s.waitUntil t
        match s.reverts.find? (fun p => decide (p.2 ≤ s.mono)) with
        | some p => s.select p.1
        | none => s)

/-- HOLDOVER_EXPIRY: HOLD_MAX seconds pass in HOLDOVER (R94). -/
def execHoldoverExpiry (s : State) : Host.Outcome State Fault Refusal :=
  done s (if s.up && s.rd TNS_STAT_STATE == 3 && s.is TNS_HOLD_HOLD_MAX then
      let s := s.waitUntil (s.tns.leftAt + s.rd TNS_HOLD_HOLD_MAX * secU)
      (s.servo 4).ev 0x1004 ((s.mono - s.tns.leftAt) / secU) 0 0 0
    else s)

/-! ### PPS_IN and IRIG-B (R98, R99) -/

/-- The stamp of an input edge `ago` sixteenths of a ns back: 6 ns of input path and the cable delay are taken off. -/
def State.inStamp (s : State) (ago delay : Nat) : Nat := stampOf (s.taiAsOf ago) - ago - 16 * (6 + delay)

/-- A pulse is accepted: its stamp, and its edge in 1/16 ns of `mono`. -/
def State.ppsTake (s : State) (st edge : Nat) : State :=
  let s : State := { s with tns := { s.tns with ppsLast := some edge } }
  let o := s.src 4
  let good := o.good + 1
  let s := s.setSrc 4 { o with good := good, lastAt := edge * 2 ^ 28, uncert := 100 }
  let s := if !o.valid ∧ 3 ≤ good then s.srcValid 4 true else s
  let irig := if (s.src 3).valid && (s.src 3).measured then (s.src 3).offset else 0
  let sec := roundDiv ((st : Int) + 16 * irig) 16000000000
  let c := roundDiv (sec * 16000000000 - (st : Int)) 16
  s.setSrc 4 { s.src 4 with offset := c, measured := (s.src 4).valid }

/-- PPS_IN_EDGE: the active edge lies `ago` back (1/16 ns), its pulse is `width` ns wide (R98). The interval to the last accepted edge is
one of passed time: a step of the counter between the two does not change it. -/
def execPpsInEdge (ago width : Nat) (s : State) : Host.Outcome State Fault Refusal :=
  done s (if !s.up || !s.is TNS_PPSI_CFG_EN then s
    else
      let st := s.inStamp ago (s.rd TNS_PPSI_CFG_DELAY)
      let edge := stampOf s.mono - ago
      let gap := s.tns.ppsLast.map (fun l => (edge : Int) - (l : Int))
      let reject (s : State) (why : Nat) : State :=
        let (us, s) := match gap with
          | some g => (i32 (g / 16000), s)
          | none => s.draw
        let o := s.src 4
        (s.setSrc 4 { o with good := if o.valid then o.good else 0 }).ev 0x1030 why (width / 1000) us 0
      if width < 1000 ∨ 900000000 < width then reject s 1
      else
        match gap with
        | some g => if 1600000 < (g - 16000000000).natAbs then reject s 2 else s.ppsTake st edge
        | none => s.ppsTake st edge)

/-- An IRIG-B frame is good: its time against the stamp of its marker. -/
def State.irigTake (s : State) (f : IrigFrame) : State :=
  let o := s.src 3
  let good := o.good + 1
  let s := s.setSrc 3 { o with good := good, lastAt := s.mono, uncert := irigError f.quality }
  let s := if !o.valid ∧ 2 ≤ good then s.srcValid 3 true else s
  let utc : Int := if s.is TNS_IRIG_CFG_UTC then (f.sec : Int) else (f.sec : Int) + f.offset
  let act := s.rd TNS_STAT_SRC = 3
  let s := if act then s.utcTake 3 f.ofs else s
  let s := if act && f.ext then s.leapPend f.leap else s
  let st := s.inStamp f.ago (s.rd TNS_IRIG_CFG_DELAY)
  let c := roundDiv ((utc + (s.rd TNS_UTC_OFS : Int)) * 16000000000 - (st : Int)) 16
  s.setSrc 3 { s.src 3 with offset := c, measured := (s.src 3).valid }

/-- IRIGB_FRAME: a frame is complete; it is used with the stamp of its marker, or rejected (R92, R99). Its time of day is held against
the frame before it, be that one rejected or not (DESIGN CHOICE, log 40). -/
def execIrigbFrame (f : IrigFrame) (s : State) : Host.Outcome State Fault Refusal :=
  done s (if !s.up || !s.is TNS_IRIG_CFG_EN then s
    else
      let last := s.tns.irigLast
      let s : State := { s with tns := { s.tns with irigLast := some f.sec } }
      let drop (s : State) (why good : Nat) : State :=
        let o := s.src 3
        (s.setSrc 3 { o with good := if o.valid then o.good else good }).ev 0x1031 why 0 0 0
      if s.is TNS_IRIG_CFG_REQ1344 && !f.ext then drop s 3 0
      else if f.ext && !f.parityOk then drop s 1 0
      else
        match last with
        | some l => if f.sec = l + 1 then s.irigTake f else drop s 2 1
        | none => s.irigTake f)

/-! ### Start (R49 step 8, R86) -/

/-- Step 8: the counter takes the RTC seconds, and the servo is FREE. -/
def State.tenseStart (s : State) : State :=
  let s : State := { s with tai := s.rtc / secU * secU % taiMod }
  let s : State := { s with tns := tense0 }
  s.ppsArm

/-- The servo resumes in HOLDOVER after an activation, with no source valid (R381). -/
def State.tenseResume (s : State) : State :=
  let s := s.each [1, 2, 3, 4] (fun s n => s.srcValid n false)
  let s : State := { s with tns := { s.tns with slewEnd := none, ppsLast := none, irigLast := none } }
  let s := s.wr TNS_STAT_SLEW 0
  let was := s.rd TNS_STAT_SRC
  let s := if s.rd TNS_STAT_STATE = 3 then s
    else
      let s := s.servo 3
      ({ s with tns := { s.tns with leftAt := s.mono } } : State).ev 0x1003 was s.tqCode 0 0
  s.setActive 0

end Sys2Proof.Machine
end

