-- ==== Sys2Proof/Machine/Power.lean ====
section
/-! DEFINITION. The clock monitor, fail-over and commanded clock changes, clock gates, the power domains and what each loses and
takes up again, and PFAIL_N (R65–R80, R84, R85). Which windows count as trips, and what a domain holds after it is switched on
at run time: DEDUCED, log 42, DESIGN CHOICE, log 43. -/

namespace Sys2Proof.Machine

/-! ### Clock state (R67–R75) -/

/-- CLK_STAT as one word. -/
def State.clkStat (s : State) : Nat :=
  s.rd CLK_STAT_STATE + 8 * s.rd CLK_STAT_REF_OK + 16 * s.rd CLK_STAT_IRC_STABLE + 32 * s.rd CLK_STAT_PLL_LOCK + 64 * s.rd CLK_STAT_SW_BUSY

/-- The gates of a mask of units are shut. -/
def State.gatesShut (s : State) (mask : Nat) : State :=
  { s with gate := { s.gate with opened := s.gate.opened - (s.gate.opened &&& mask) } }

/-- What follows a change of CLK_STAT.STATE: in IRC-direct the lanes are gated and the DRAM is in self-refresh, and lanes with a job get
their clock again as it ends (R71); dispatch is held or resumed and health follows (R275, R351); with the reference
selected, stamps lose the IRC flag and the trim moves again (R69, R90). -/
def State.clkState (s : State) (st : Nat) : State :=
  let was := s.ircDirect
  let s := (s.mark 0).wr CLK_STAT_STATE st
  let s := if st = 1 then s.gatesShut 0x2FFFF
    else if was then s.each ((List.range 16).filter (fun l => (s.laneJob l).isSome)) (fun s l => s.gateOpen l)
    else s
  let s : State := if st = 0 then { s with boot := { s.boot with ircFlag := false, trimFrozen := false, trimAt := s.mono } } else s
  let s := if was && st != 1 then s.dramBack else s
  s.holdCheck.health

/-- The forced path's release: 2 IRC cycles pass, which the counter adds at once; the domains run on the IRC (R70). -/
def State.forcedRelease (s : State) : State :=
  let d := 40 * nsU
  let back := if s.boot.stage = .pending then s.boot.resume else if s.boot.stage = .hung then .run else s.boot.stage
  let s : State := { s with tai := if back = .run then s.tai + d else s.tai, mono := s.mono + d, rtc := s.rtc + d }
  let s : State := { s with boot := { s.boot with stage := back } }
  let s := (s.wr CLK_STAT_SW_BUSY 0).setNmi SYS_NMI_CAUSE_CLKFAIL
  if back = .run then (s.clkState 1).acqTrip else s.wr CLK_STAT_STATE 1

/-- The domains run from the reference, or are on their way to or from it. -/
def State.onRef (s : State) : Bool := s.rd CLK_STAT_STATE == 0 || s.rd CLK_STAT_STATE == 3

/-- A trip of the monitor (R70, R73, R74): counted and recorded; with the reference selected the domains go to the IRC, or wait
for it with every clock held. PLL_LOCK falls at every such trip, at a window trip too (DESIGN CHOICE, log 42). In step 7 the root PLL then
cannot lock to the reference, and its time runs out (DEDUCED, log 42). -/
def State.trip (s : State) (code p0 p1 p2 : Nat) : State :=
  let ref := s.onRef
  let s := ((s.cnt CLK_MON_TRIPS_TRIPS).ev code p0 p1 p2 0).mark 0
  let s : State := { s with boot := { s.boot with tripped := true, tripAt := s.mono, trimFrozen := true, ircFlag := true, windows := 0 } }
  let s := s.wr CLK_STAT_REF_OK 0
  if !ref then s
  else
    let s := s.wr CLK_STAT_PLL_LOCK 0
    if s.is CLK_STAT_IRC_STABLE then s.forcedRelease
    else
      ({ s with boot := { s.boot with
          stage := .pending, resume := if s.boot.stage = .pll then .pll else .run } } : State).wr CLK_STAT_STATE 4

/-- The monitor is armed: since step 6. -/
def State.armed (s : State) : Bool := s.up || s.boot.stage == .hung || s.boot.stage == .pll

/-- A window of 500 IRC cycles ends with a count (R67, R73). Its index since arming counts the windows that have passed (DEDUCED,
log 42). -/
def State.windowEnd (s : State) (count : Nat) : State :=
  let s := s.waitUntil (s.boot.windowAt + 10000 * nsU)
  let passed := max 1 ((s.mono - s.boot.windowAt) / (10000 * nsU))
  let ix := s.boot.windowIdx + passed - 1
  let s : State := { s with boot := { s.boot with windowAt := s.boot.windowAt + passed * (10000 * nsU), windowIdx := (ix + 1) % 2 ^ 32 } }
  let s := s.wr CLK_MON_CNT_COUNT count
  if 3 ≤ ((count : Int) - 500).natAbs then
    if s.boot.tripped then { s with boot := { s.boot with windows := 0 } }
    else s.trip 0x0001 count ix s.clkStat
  else
    let n := s.boot.windows + 1
    let s : State := { s with boot := { s.boot with windows := n } }
    if n < 100 ∨ s.is CLK_STAT_REF_OK then s
    else
      let s := s.wr CLK_STAT_REF_OK 1
      if s.boot.tripped then
        ({ s with boot := { s.boot with tripped := false } } : State).ev 0x0006 (s.usSince s.boot.tripAt) 0 0 0
      else s

/-- MISSING_EDGE_TRIP (R68): the missing-edge detector, or the delay line while the IRC is not running, trips. In the first window of
step 6 it makes that window a failing one (R50; DEDUCED, log 42). -/
def execMissingEdgeTrip (s : State) : Host.Outcome State Fault Refusal :=
  done s (if s.boot.stage = .window then { s with boot := { s.boot with tripped := true } }
    else if !s.armed || s.boot.tripped then s else s.trip 0x0002 (s.rd CLK_STAT_IRC_STABLE) s.clkStat 0)

/-- FALLSTART_COMPLETE: the IRC has become stable after so many of its cycles, and the forced path completes (R74). -/
def execFallstartComplete (cycles : Nat) (s : State) : Host.Outcome State Fault Refusal :=
  done s (if s.boot.stage ≠ .pending then s
    else
      let s := (s.dark (cycles * 20 * nsU)).wr CLK_STAT_IRC_STABLE 1
      (s.forcedRelease.setNmi SYS_NMI_CAUSE_FALLSTART).ev 0x0003 cycles 0 0 0)

/-- IRC_RELOCK_DONE: with FO_RELOCK the root PLL locks to the IRC, and the domains return to the tree (R72). -/
def execIrcRelockDone (us : Nat) (s : State) : Host.Outcome State Fault Refusal :=
  done s (if !s.up || s.rd CLK_STAT_STATE != 1 || !s.is CLK_CTRL_FO_RELOCK || !s.boot.ircFlag || s.is CLK_STAT_PLL_LOCK then s
    else
      let s := s.waitUntil (s.mono + us * 1000 * nsU)
      ((s.wr CLK_STAT_PLL_LOCK 1).clkState 2).ev 0x0004 us 0 0 0)

/-- IRC_TRIM: once per second, after 100 good windows and with the PLL locked to the reference (R69). -/
def execIrcTrim (code : Nat) (s : State) : Host.Outcome State Fault Refusal :=
  done s (if !s.up || s.boot.trimFrozen || s.boot.windows < 100 || s.rd CLK_STAT_STATE != 0 || !s.is CLK_STAT_PLL_LOCK then s
    else
      let s := s.waitUntil (s.boot.trimAt + secU)
      ({ s with boot := { s.boot with trimAt := s.mono } } : State).wr CLK_IRC_TRIM_TRIM code)

/-- A CLK_SW command: ignored while a change waits or a fail-over is pending; a change to a source that does not run hangs, and
the domains get no clock (R75). -/
def State.clkSw (s : State) (target : Nat) : State :=
  if s.is CLK_STAT_SW_BUSY || s.rd CLK_STAT_STATE == 4 then s.ev 0x0007 target s.clkStat 0 0
  else
    let s : State := { s with boot := { s.boot with swTarget := target } }
    let irc := s.is CLK_STAT_IRC_STABLE
    let s := (s.wr CLK_STAT_SW_BUSY 1).clkState 3
    if target ≠ 1 && !irc then { s with boot := { s.boot with stage := .hung } } else s

/-- CLK_SW_RETURN_REF (R73). -/
def execClkSwReturnRef (m : Master) (s : State) : Host.Outcome State Fault Refusal :=
  done s (s.accessW m CLK_SW_TARGET.addr 1 (fun s => s.clkSw 1))

/-- CLK_SW_IRC_DIRECT (R75). -/
def execClkSwIrcDirect (m : Master) (s : State) : Host.Outcome State Fault Refusal :=
  done s (s.accessW m CLK_SW_TARGET.addr 2 (fun s => s.clkSw 2))

/-- CLK_SW_PLL_ON_IRC (R75). -/
def execClkSwPllOnIrc (m : Master) (s : State) : Host.Outcome State Fault Refusal :=
  done s (s.accessW m CLK_SW_TARGET.addr 3 (fun s => s.clkSw 3))

/-- The IRC stops while IRC_EN is 0 and the reference is selected (CLK_CTRL); with IRC_EN it starts, and IRC_STABLE says when it
runs. -/
def State.ircFollow (s : State) : State :=
  if s.rd CLK_STAT_STATE = 0 && !s.is CLK_CTRL_IRC_EN then s.wr CLK_STAT_IRC_STABLE 0 else s

/-- CLOCK_SWITCH_COMPLETE: the change completes (R73, R75). A return waits while the reference does not pass, and until an IRC that it
starts is stable. -/
def execClockSwitchComplete (cycles : Nat) (s : State) : Host.Outcome State Fault Refusal :=
  done s (if !s.up || !s.is CLK_STAT_SW_BUSY || (s.boot.swTarget == 1 && (s.boot.tripped || !s.is CLK_STAT_IRC_STABLE)) then s
    else
      let t := s.boot.swTarget
      let s := s.waitUntil (s.mono + cycles * 5 * nsU)
      let s := s.wr CLK_STAT_SW_BUSY 0
      let s := if t = 2 then s else s.wr CLK_STAT_PLL_LOCK 1
      let s := (s.clkState (if t = 1 then 0 else t - 1)).ev 0x0005 t cycles 0 0
      if t = 1 then s.acqReturn.ircFollow else s.acqTrip)

/-! ### Clock gates (R76, R77) -/

/-- A unit's gate is held open by CLK_GATE_CFG, or its unit has work. -/
def State.gateWanted (s : State) (u : Nat) : Bool :=
  if u < 16 then s.is CLK_GATE_CFG_LANES_ON || (s.laneJob u).isSome
  else if u = 16 then s.is CLK_GATE_CFG_ELS_ON || !s.els.isEmpty
  else if u = 17 then s.is CLK_GATE_CFG_PHY_ON || s.fab.dpOp != 0
  else s.is CLK_GATE_CFG_HOST_ON

/-- The instant from which a unit may be gated: 4 µs without a request of the DRAM PHY, 100 µs without a transaction of the host
logic. -/
def State.gateIdle (s : State) (u : Nat) : Nat :=
  if u = 17 then s.gate.phyAt + 4000 * nsU else if u = 18 then s.gate.hostAt + 100000 * nsU else 0

/-- GATE_CLOSE: a quiesced unit without demand has its gate closed, once it has been idle. -/
def execGateClose (unit : Nat) (s : State) : Host.Outcome State Fault Refusal :=
  done s (if !s.up || 18 < unit || s.gateWanted unit then s
    else
      let s := s.waitUntil (s.gateIdle unit)
      { s with gate := { s.gate with opened := setBits s.gate.opened unit 1 0 } })

/-- The Elision engine is reset: its queue and its registers are lost. Frames and archive entries wait for a place again, capture blocks
are written as they are, and coded input is dropped (DESIGN CHOICE, log 31). -/
def State.elsReset (s : State) : State :=
  let jobs := s.els
  let s := s.each s.ing.coded (fun s w =>
    let (r, s) := s.draw
    s.codedDrop w.ctx r)
  let frames := jobs.filterMap (fun j => match j.kind with
    | .frame x => some (s.mono, x)
    | _ => none)
  let s : State := { s with
    regs := s.regs.filter (fun p => blkOfAddr (p.1 / 32) != 14), els := [], ing := { s.ing with coded := [] }
    pub := { s.pub with codeWait := frames ++ s.pub.codeWait } }
  s.each jobs (fun s j => match j.kind with
    | .block b => ((s.cnt ELS_BYPASS_COUNT).ev 0x9032 4 (s.rd CAP_BSEQ_SEQ) 0 0).blockWrite b none
    | _ => s)


/-! ### What a domain loses (R13, R78) -/

/-- Words of the Elision queue that belong to another unit. -/
def elsKeep (p : ElsKind → Bool) (l : List ElsJob) : List ElsJob := elsStart (l.filter (fun j => p j.kind))

/-- The units of R76 in a domain, as a mask. -/
def domUnits (k : Nat) : Nat := if k = 4 then 0xFFFF else if k = 6 then 0x30000 else if k = 7 then 0x40000 else 0

/-- The units of a domain have no gate open and none to be reset. -/
def State.gatesDrop (s : State) (k : Nat) : State :=
  let s := s.gatesShut (domUnits k)
  { s with gate := { s.gate with reset := s.gate.reset - (s.gate.reset &&& domUnits k) } }

/-- The state of a domain's units is lost, the registers of its blocks with it; with `locks` the LOCK bits too. -/
def State.clearDom (s : State) (locks : Bool) (k : Nat) : State :=
  let s := s.gatesDrop k
  let s : State := { s with regs := dropDomain locks k s.regs, bufs := dropDomain true k s.bufs, pend := dropPend k s.pend }
  match k with
  | 1 =>
    { s with
      log := { recorder0 with nextSeq := s.log.nextSeq, lg := s.log.lg, lgHead := s.log.lgHead }, tns := tense0, red := redund0,
      fwu := { update0 with trialCnt := s.fwu.trialCnt, reject := s.fwu.reject }, fab := { fabric0 with msix := [] } }
  | 2 =>
    { s with
      ports := List.replicate 6 port0, ing := { ingest0 with lastLeap := s.ing.lastLeap, oldOfs := s.ing.oldOfs }, pub := publish0,
      tns := { s.tns with tsq := List.replicate 4 tsQueue0 },
      els := elsKeep (fun j => match j with
        | .decode => false
        | .frame _ => false
        | _ => true) s.els }
  | 3 => { s with acq := acquire0, phs := phasor0 }
  | 4 =>
    { s with
      ccd := concord0, sch := sched0, ana := analytics0, cap := { s.cap with arcWait := none },
      red := { s.red with audits := [], audSlots := [], audBufs := [] },
      els := elsKeep (fun j => match j with
        | .archive _ => false
        | _ => true) s.els }
  | 5 => s.qtyOff
  | 6 =>
    let frames := s.els.filterMap (fun j => match j.kind with
      | .frame x => some (s.mono, x)
      | _ => none)
    { s with
      cap := capture0, els := [], dram := [],
      ing := { s.ing with reasm := [], coded := [] },
      pub := { s.pub with codeWait := frames ++ s.pub.codeWait },
      ccd := { s.ccd with ckS := s.ccd.ckS.filter (fun c => !c.dram), ckI := s.ccd.ckI.filter (fun c => !c.dram) } }
  | 7 => { s with fab := { s.fab with dpHeld := none, dpOp := 0, dpAddr := 0, dpLen := 0, qspiErr := false, msix := [] } }
  | _ => s

/-- A unit forced shut is reset as its gate next opens; nothing can tell that from a reset at once, since every access and request opens
it first (R77). A lane's job goes back to the scheduler. -/
def State.unitReset (s : State) (unit : Nat) : State :=
  if unit < 16 then s.laneForced unit
  else if unit = 16 then s.elsReset
  else if unit = 18 then s.clearDom false 7
  else s

/-- QUIESCE_TIMEOUT: the unit's access is aborted with KIND 0x7, its gate is forced, and it is reset as it next opens. -/
def execQuiesceTimeout (unit addr : Nat) (m : Master) (write : Bool) (s : State) : Host.Outcome State Fault Refusal :=
  done s (if !s.up ∨ 18 < unit ∨ bit s.gate.opened unit = 0 then s
    else
      let s := ((s.errResp m write 4 addr 7).cnt CLK_FORCED_CNT_FORCED).ev 0x0011 unit addr (mNum m) 0
      let s := s.unitReset unit
      { s with gate := { s.gate with opened := setBits s.gate.opened unit 1 0, reset := setBits s.gate.reset unit 1 1 } })

/-! ### What a domain takes up (R35, R78, R189, R288, R317) -/

/-- In service: the service of R64 has started. -/
def State.inService (s : State) : Bool := s.rd SYS_BOOT_STAT_PHASE == 9

/-- The slot grid starts at the first slot time after now, with the rate and TIME_BASE of the registers (R183). Before service there
is no latest slot time fallen due (R146). -/
def State.ccdStart (s : State) : State :=
  let s := (s.wr CCD_STAT_RATE_ACT (s.rd CCD_CFG_RATE)).wr CCD_STAT_FSYS_ACT (s.rd CCD_CFG_FSYS)
  let f := s.rate
  let g := gridOf f s.nowNs
  let s : State := { s with ccd := { s.ccd with tbase := s.rd CCD_TBASE_TBASE, grid := gridStep f g 1, o := if s.inService then some (gridNs f g) else none } }
  let s : State := { s with sch := { s.sch with stestAt := s.mono } }
  let s := s.genSync.credits
  s.wr CCD_CKPT_SIZE_BYTES (ckptSize s.regs)

/-- Partition sizes are taken into force (R317, R325). -/
def State.capInit (s : State) : State :=
  let s : State := { s with cap := { s.cap with parts := partFields.map (fun f => s.rd f), restart := true, arestart := true } }
  (s.wr CAP_CAPACITY_INST s.capacity).capStat

/-- Descriptors learnt from a CFG-3 are judged anew as PD6 goes off or comes on (R139). -/
def State.cfg3Use (s : State) : State :=
  if s.on 2 then s.each (s.ing.lastCfg.filter (fun p => p.2 == 3)) (fun s p => s.ctxDescriptor p.1) else s

/-- The units of a domain start on the values in force. -/
def State.startDom (s : State) (k : Nat) : State :=
  match k with
  | 2 => (List.range 4096).foldl (fun s c => if s.is (CTX_EN c) then s.ctxDescriptor c else s) s
  | 3 =>
    let s := s.acqStart.acqStat
    let s : State := { s with phs := { s.phs with grid := some (instFrom 2400 s.tai) } }
    s.phsSnap 0
  | 4 =>
    let s := s.ccdStart
    let s := if s.inService then { s with ccd := { s.ccd with started := true } } else s
    let s := if s.on 3 then s.homeStart s.ccd.grid else s
    s.almPins.holdCheck
  | 5 => s.qtyPowerOn
  | 6 => s.cfg3Use.capInit
  | _ => s

/-! ### Switching (R78, R80) -/

/-- PWR_DOMAIN_EN governs the domains: not before step 12, nor in held mode, limited service or recovery. -/
def State.settled (s : State) : Bool :=
  let p := s.rd SYS_BOOT_STAT_PHASE
  p == 2 || p == 8 || p == 9

/-- The domain to be switched next and whether on: switch-offs first, PD7 to PD2, then switch-ons from PD2 up. -/
def State.nextSwitch (s : State) : Option (Nat × Bool) :=
  if !s.settled then none else
  let on := s.rd PWR_STAT_ON
  let offs := ([7, 6, 5, 4, 3, 2].filter (fun k => bit on k == 1 && bit s.wanted k == 0)).map (fun k => (k, false))
  let ons := ([2, 3, 4, 5, 6, 7].filter (fun k => bit on k == 0 && bit s.wanted k == 1 && bit s.boot.pwrFail k == 0)).map (fun k => (k, true))
  (offs ++ ons).head?

/-- PWR_STAT.BUSY marks the domain being switched. -/
def State.switchBusy (s : State) : State :=
  s.wr PWR_STAT_BUSY (match s.nextSwitch with
    | some (k, _) => 2 ^ k
    | none => 0)

/-- Before the switch of a domain opens: what other units see of it. -/
def State.beforeOff (s : State) (k : Nat) : State :=
  match k with
  | 2 => s.zlDown 1
  | 5 => s.qtyPowerOff
  | 6 => s.each s.ing.coded (fun s w => s.codedDrop w.ctx 1)
  | _ => s

/-- After the switch has opened: an archive entry that waited is not written (R329), pins of PD4 fall. -/
def State.afterOff (s : State) (k : Nat) (waiting : Option Nat) : State :=
  match k with
  | 4 => s.almPins
  | 6 => (match waiting with
    | some n => (s.cnt ARC_SKIPPED_COUNT).ev 0x9020 n 1 0 0
    | none => s).cfg3Use
  | _ => s

/-- A domain goes off (R78, event 0x0021). -/
def State.domainOff (s : State) (k : Nat) : State :=
  let s := s.beforeOff k
  let waiting := s.cap.arcWait
  let s := (s.wr PWR_STAT_ON (setBits (s.rd PWR_STAT_ON) k 1 0)).clearDom false k
  ((s.afterOff k waiting).ev 0x0021 k 0 0 0).switchBusy.health

/-- A domain comes on with its blocks at their reset values (R78, event 0x0020). -/
def State.domainOn (s : State) (k : Nat) : State :=
  let s := (s.wr PWR_STAT_ON (setBits (s.rd PWR_STAT_ON) k 1 1)).clearDom false k
  let s := s.switchBusy.ev 0x0020 k 0 0 0
  (s.startDom k).health

/-- DOMAIN_SWITCH_STEP: the domain being switched completes; one that does not power stays off with event 0x0104 (R62, R78). -/
def execDomainSwitchStep (ok : Bool) (s : State) : Host.Outcome State Fault Refusal :=
  done s (if !s.up then s
    else
      match s.nextSwitch with
      | none => s
      | some (k, false) => s.domainOff k
      | some (k, true) =>
        if ok then s.domainOn k
        else
          let s : State := { s with boot := { s.boot with pwrFail := setBits s.boot.pwrFail k 1 1 } }
          (s.switchBusy.ev 0x0104 k 0 0 0).health)

/-- A new PWR_DOMAIN_EN is in force: switching begins (R80). -/
def State.pwrApply (s : State) : State := ({ s with boot := { s.boot with pwrFail := 0 } } : State).switchBusy

/-! ### PFAIL_N (R84, R85) -/

/-- PFAIL_ASSERT. -/
def execPfailAssert (s : State) : Host.Outcome State Fault Refusal :=
  done s (if !s.up || s.is PWR_PFAIL_STAT_PFAIL then s
    else
      let s := ((s.wr PWR_PFAIL_STAT_PFAIL 1).wr PWR_PFAIL_STAT_COPY_DONE 0).cnt PWR_PFAIL_CNT_COUNT
      ({ s with boot := { s.boot with pfailAt := s.mono } } : State).qtyPause)

/-- PFAIL_COPY_DONE: the copy is complete so many µs after PFAIL_N; cause 0x0108. -/
def execPfailCopyDone (us : Nat) (s : State) : Host.Outcome State Fault Refusal :=
  done s (if !s.up || !s.is PWR_PFAIL_STAT_PFAIL || s.is PWR_PFAIL_STAT_COPY_DONE then s
    else
      let s := (s.waitUntil (s.boot.pfailAt + us * 1000 * nsU)).wr PWR_PFAIL_STAT_COPY_DONE 1
      (s.lgLive 0x0108 1 0 0 0).ev 0x0040 us 0 0 0)

/-- PFAIL_RELEASE: PFAIL_N has been high for 10 ms; accumulation resumes. -/
def execPfailRelease (s : State) : Host.Outcome State Fault Refusal :=
  done s (if !s.up || !s.is PWR_PFAIL_STAT_PFAIL then s
    else
      let ms := (s.mono - s.boot.pfailAt) / (1000000 * nsU)
      ((s.wr PWR_PFAIL_STAT_PFAIL 0).qtyResume).ev 0x0041 ms 0 0 0)

end Sys2Proof.Machine
end

