-- ==== Sys2Proof/Machine/Apply.lean ====
section
/-! DEFINITION. What a table entry is refused for and when it is judged, the apply strobe, and what a block does as it moves its
pending copy into its active values (R35, R36, R133, R173, R240, R277, R289). When entries are judged, and in what order within
one apply: DESIGN CHOICE, log 44. -/

namespace Sys2Proof.Machine

/-! ### Buffers -/

/-- A register file with the values of another written over it. -/
def overlay (base top : RegFile) : RegFile := top.foldl (fun r p => assocSet r p.1 p.2) base

/-- The part as its buffers would make it: what an entry written through a table port is judged against. -/
def State.bufView (s : State) : State := { s with regs := overlay s.regs s.bufs }

/-- The buffered values of a block. -/
def State.blockBufs (s : State) (b : Nat) : RegFile := s.bufs.filter (fun p => blkOfAddr (p.1 / 32) == b)

/-- The block has RWA or RWV fields (R36). -/
def blkBuffered (b : Nat) : Bool :=
  (regsOf b).any (fun r => ((List.range r.n1).any (fun i => (List.range r.n2).any (fun j => (r.fields i j).any (fun f => f.acc == .rwa || f.acc == .rwv)))))
    || b == 5 || b == 7 || b == 9 || b == 11 || b == 12

/-! ### What an entry is refused for -/

/-- The enabling field of an entry. -/
def entryEn (b t e : Nat) : Field :=
  match b, t with
  | 5, _ => CTX_EN e
  | 7, _ => HSM_EN e
  | 9, 0 => DER_EN e
  | 9, 1 => WAT_EN e
  | 9, 2 => ALM_EN e
  | 9, 3 => NOD_EN e
  | 9, _ => BRA_EN e
  | 11, _ => OST_EN e
  | 12, 0 => MPT_EN e
  | _, _ => TPT_EN e

/-- The identifiers of two contexts are equal. -/
def ctxSameId (g : RegFile) (c e : Nat) : Bool :=
  match fmtClass (g.get (CTX_FORMAT c)) with
  | 0 => g.get (CTX_IDCODE c) == g.get (CTX_IDCODE e)
  | 2 => g.get (CTX_SID c) == g.get (CTX_SID e) && g.get (CTX_SVID_LEN c) == g.get (CTX_SVID_LEN e)
  | _ => g.get (CTX_SID c) == g.get (CTX_SID e)

/-- The keys of two contexts conflict (R133). -/
def ctxConflict (g : RegFile) (c e : Nat) : Bool :=
  fmtClass (g.get (CTX_FORMAT c)) == fmtClass (g.get (CTX_FORMAT e)) && ctxSameId g c e
    && (g.get (CTX_IPANY c) == 1 || g.get (CTX_IPANY e) == 1 || g.get (CTX_SRCIP c) == g.get (CTX_SRCIP e))
    && (g.get (CTX_PORTANY c) == 1 || g.get (CTX_PORTANY e) == 1 || g.get (CTX_UDPPORT c) == g.get (CTX_UDPPORT e))

/-- Why an enabled context is refused, 0 for none (R133). -/
def State.ctxRefused (s : State) (c : Nat) : Nat :=
  let g := s.regs
  let div := gEff g (CTX_DIV c)
  let fmt := g.get (CTX_FORMAT c)
  let n := g.get (CTX_NPMU c)
  let en (e : Nat) : Bool := g.get (CTX_EN e) == 1
  let more := (List.range n).map (fun j => c + 1 + j)
  if 4 ≤ fmt then 1
  else if s.sysRate % div != 0 || !rateOk s.sys60 (s.sysRate / div) then 2
  else if 32768 < g.get (CTX_PH_BASE c) + g.get (CTX_PH_CNT c) ∨ 8192 < g.get (CTX_AN_BASE c) + g.get (CTX_AN_CNT c) then 3
  else if n ≠ 0 && (fmt == 2 || more.any (fun e => decide (4095 < e) || en e || (s.homeOfCol e).isSome)) then 4
  else if (List.range 7).any (fun j => decide (j < c) && en (c - 1 - j) && decide (j + 1 ≤ g.get (CTX_NPMU (c - 1 - j)))) then 4
  else if (s.homeOfCol c).isSome then 6
  else if (List.range 4096).any (fun e => e != c && en e && ctxConflict g c e) then 5
  else 0

/-- Why an enabled entry is refused, 0 for none; a stream's size is judged where `size` says so. -/
def State.entryReason (s : State) (b t e : Nat) (size : Bool) : Nat :=
  match b, t with
  | 5, _ => s.ctxRefused e
  | 7, _ => s.homeRefused e
  | 9, 0 => (derRefused s.regs e).getD 0
  | 9, 1 => (watRefused s.regs e).getD 0
  | 9, 2 => (almRefused s.regs e).getD 0
  | 9, 3 => 0
  | 9, _ => (braRefused s.regs e).getD 0
  | 11, _ => (s.ostRefused s.regs e size).getD 0
  | 12, 0 => s.pointRefused e
  | 12, _ => s.pointRefused (256 + e)
  | _, _ => 0

/-- The event of a refusal. -/
def State.entryEvent (s : State) (b t e r : Nat) : State :=
  match b, t with
  | 5, _ => s.ev 0x3041 e r 0 0
  | 7, _ => s.ev 0x4110 e r 0 0
  | 9, 0 => s.ev 0x6001 e r 0 0
  | 9, 1 => s.ev 0x6002 e r 0 0
  | 9, 2 => s.ev 0x6003 e r 0 0
  | 9, _ =>
    let (k, s) := s.draw
    s.ev 0x6004 t e k 0
  | 11, _ => s.ev 0x2101 e r 0 0
  | _, _ => s.ev 0x8002 t e r 0

/-- An entry has just been written into the buffers: an enabled one that breaks a condition is stored with EN at 0. -/
def State.entryStored (s : State) (b t e : Nat) : State :=
  let en := entryEn b t e
  let v := s.bufView
  if b = 17 ∨ !v.is en then s
  else
    let r := v.entryReason b t e false
    if r = 0 then s else (s.wrBuf en 0).entryEvent b t e r

/-- The table entry a key belongs to. -/
def keyEntry (b k : Nat) : Option (Nat × Nat) :=
  let a := k / 32
  if 2 ^ 32 ≤ a && decide (a < 2 ^ 43) && (a / 2 ^ 32 - 1) / 8 == b then some ((a / 2 ^ 32 - 1) % 8, a % 2 ^ 32 / 256) else none

/-- The entries of a block whose values differ between two register files, in ascending order; `mine` says which keys may differ. -/
def changedEntries (b : Nat) (pend old : RegFile) : List (Nat × Nat) :=
  (pend.filterMap (fun p =>
    match keyEntry b p.1 with
    | some x => if (fieldsAny (p.1 / 32)).any (fun f => f.lo == p.1 % 32 && old.get f != p.2) then some x else none
    | none => none)).eraseDups

/-- The changed entries that are enabled are judged one after another on the values in force, none of those still to be judged
standing in the way of another; an accepted home stream displaces the context of its column. -/
def State.judge (s : State) (b : Nat) (l : List (Nat × Nat)) : State :=
  let live := l.filter (fun p => s.is (entryEn b p.1 p.2))
  let s := s.each live (fun s p => s.wr (entryEn b p.1 p.2) 0)
  s.each live (fun s p =>
    let en := entryEn b p.1 p.2
    let v := s.wr en 1
    let r := v.entryReason b p.1 p.2 true
    if r ≠ 0 then (s.wrBuf en 0).entryEvent b p.1 p.2 r
    else if b = 7 then v.homeDisplace p.2
    else v)

/-- Each stream's largest frame is computed from the allocations in force, and one beyond its limit disables the stream (R277). -/
def State.pubSizes (s : State) : State :=
  s.each (List.range 64) (fun s o =>
    if !s.is (OST_EN o) then s.wr (OST_FRAMESIZE o) 0
    else if ostLimit s.regs o < s.frameSize s.regs o then
      ((s.wrBoth (OST_EN o) 0).wr (OST_FRAMESIZE o) 0).ev 0x2101 o 5 0 0
    else s.wr (OST_FRAMESIZE o) (s.frameSize s.regs o))

/-! ### What each block does with new values; `old` are those before -/

/-- A field has another value than before. -/
def State.newVal (s : State) (old : RegFile) (f : Field) : Bool := s.rd f != old.get f

def State.tnsApply (s : State) (old : RegFile) : State :=
  let s := if s.newVal old TNS_INC_LIM_PPM then s.incApply else s
  let off := [1, 2, 3, 4].filter (fun n => (s.src n).valid && !s.srcEn n)
  let s := s.each off (fun s n => s.srcValid n false)
  let s := if off.isEmpty then s else s.sourceLost
  let s := if [TNS_PPSO_CFG_EN, TNS_PPSO_CFG_ADV].any (s.newVal old) then s.ppsArm else s
  s.ppsCheck.altOk

def State.netApply (s : State) (old : RegFile) : State :=
  s.each (List.range 6) (fun s n =>
    let s := if s.newVal old (NET_P_CFG_MODE n) || s.newVal old (NET_P_CFG_AN n) then s.portModeChange n else s
    let s := if s.stationOk n then s else s.txFlush n
    let s := if s.newVal old (NET_P_PLCA_NODE_ID n) && s.rd (NET_P_PLCA_NODE_ID n) == 0 && s.portMode n == 9 && s.is (NET_P_STAT_LINK n) then
        (s.wr (NET_P_STAT_PLCA_ACT n) 1).setPort n { s.port n with lastBeacon := s.mono, fell := false }
      else s
    s.fifoLevel n)

/-- A pair that is not in force is recorded for each member whose entry changed or that was in one (R144). -/
def State.pairEvents (s : State) (changed : List Nat) (was : List (Nat × Nat)) : State :=
  let cs := (List.range 4096).filter (fun c =>
    (changed.contains c || was.any (fun p => p.1 == c)) && s.is (CTX_EN c) && s.is (CTX_PAIRED c) && (s.pairOf c).isNone)
  let s := s.each cs (fun s c => s.ev 0x3042 c (s.rd (CTX_PARTNER c)) 0 0)
  { s with ing := { s.ing with accept := s.ing.accept.filter (fun p => match s.pairOf p.1 with
      | some q => decide (p.1 < q)
      | none => false) } }

/-- The pairs in force. -/
def State.pairs (s : State) : List (Nat × Nat) := (List.range 4096).filterMap (fun c => (s.pairOf c).map (fun p => (c, p)))

/-- Words 8–16 of a context: its descriptor. -/
def descFields (c : Nat) : List Field :=
  (List.range 8).flatMap (fun b => [CTX_FMT c b, CTX_FNOM60 c b, CTX_PHNMR c b, CTX_ANNMR c b, CTX_DGNMR c b]) ++ [CTX_TIME_BASE c]

/-- The conversion store holds 1 and 0 for a context whose descriptor is not learnt (R138). -/
def State.convClear (s : State) (c : Nat) : State :=
  let out (b n : Nat) (p : Nat) : Bool := decide (p < b) || decide (b + n ≤ p)
  { s with ing := { s.ing with conv := s.ing.conv.filter (fun p => out (s.rd (CTX_PH_BASE c)) (s.rd (CTX_PH_CNT c)) p.1),
                               aconv := s.ing.aconv.filter (fun p => out (s.rd (CTX_AN_BASE c)) (s.rd (CTX_AN_CNT c)) p.1) } }

def State.ingApply (s : State) (old : RegFile) (was : List (Nat × Nat)) (changed : List (Nat × Nat)) : State :=
  let s := s.judge 5 changed
  let s := s.each changed (fun s x =>
    let c := x.2
    let desc := (descFields c).any (s.newVal old)
    let s := if desc then s.wr (CTX_LEARNT c) 0 else s
    let s := if desc || [CTX_PH_BASE c, CTX_PH_CNT c, CTX_AN_BASE c, CTX_AN_CNT c].any (s.newVal old) then s.convClear c else s
    let s := s.ctxDescriptor c
    if s.is (CTX_EN c) && old.get (CTX_EN c) == 0 then
      let s : State := { s with ing := { s.ing with spdu := assocDel s.ing.spdu c, cfgChg := s.ing.cfgChg.filter (fun x => x != c),
                                                    claims := assocDel s.ing.claims c, heardAt := assocDel s.ing.heardAt c } }
      if s.rd (CTX_FORMAT c) ≤ 1 then s.requestCfg c none else s
    else s)
  let s : State := { s with ing := { s.ing with tcp := s.ing.tcp.filter (fun t => s.is (CTX_EN t.ctx)), reasm := s.ing.reasm.filter (fun p => s.is (CTX_EN p.1)) } }
  s.pairEvents (changed.map (fun x => x.2)) was

/-- LEN and SH of a lane. -/
def laneFields (k : Nat) : List Field := [ACQ_L_DEC1_LEN k, ACQ_L_DEC1_SH k, ACQ_L_DEC2_LEN k, ACQ_L_DEC2_SH k, ACQ_L_DEC3_LEN k, ACQ_L_DEC3_SH k]

/-- New acquisition values (R159, R161): a gap of cause 5 or 6 opens, and a sync is armed; the instants go on while acquisition is disabled,
so that its GAP samples count. A lane enabled again settles on its own; one whose MCLK is now held low loses lock. -/
def State.acqApply (s : State) (old : RegFile) : State :=
  let lens := (List.range 24).filter (fun k => (laneFields k).any (s.newVal old))
  let s := s.each lens (fun s k => s.acqGdly k)
  if !s.acqOn then s
  else
    let wasOn := old.get ACQ_CFG_EN == 1
    let rate := s.newVal old ACQ_CFG_RATE
    let s : State := if rate then { s with acq := { s.acq with smp := [], next := s.acq.next.map (fun _ => instFrom s.acqRate s.tai) } } else s
    let s :=
      if !s.is ACQ_CFG_EN then
        (if wasOn then (s.gapAll 6).syncArm else if rate || !lens.isEmpty then s.syncArm else s)
      else if !wasOn then s.acqStart
      else if rate || !lens.isEmpty then
        (s.gapAll 5).syncArm
      else s
    let off := (List.range 24).filter (fun k => bit (old.get ACQ_LANE_EN_EN) k == 1 && !s.laneEn k)
    let s := s.each off (fun s k => if s.is ACQ_CFG_EN then s.gapOpen 6 (2 ^ k) else s)
    let back := (List.range 24).filter (fun k => bit (old.get ACQ_LANE_EN_EN) k == 0 && s.laneEn k)
    let s := s.each back (fun s k => (s.setAcqLane k { s.lane k with ahead := [] }).laneReset k (edgeAfter s.mono))
    (s.lanesLost (some 3)).acqStat

def lomFields (d : Nat) : List Field :=
  [PHS_LOM_CFG_CH d, PHS_LOM_CFG_SEQ d, PHS_LOM_CFG_RC_EN d, PHS_LOM_CFG_VS_EN d, PHS_LOM_RC_RC_THR d, PHS_LOM_RC_RC_WIN d, PHS_LOM_RC_RC_N d,
   PHS_LOM_VS_VS_THR d, PHS_LOM_VS_VS_N d, PHS_LOM_VS_VS_HOLD d, PHS_LOM_VMIN_VMIN d]

def ssoFields (m : Nat) : List Field := [PHS_SSO_CFG_CH m, PHS_SSO_CFG_EN m, PHS_SSO_THR_THR m, PHS_SSO_THR_SSO_N m]

/-- New phasor-estimation values, from slot time `t` on (R173, R177). -/
def State.phsApply (s : State) (old : RegFile) (was : List (Nat × Nat)) (changed : List (Nat × Nat)) (t : Nat) : State :=
  let s := s.judge 7 changed
  let s := s.each changed (fun s x =>
    let h := x.2
    let s := (s.wr (HSM_NPH h) (s.homeNph h)).wr (HSM_NAN h) (s.homeNan h)
    { s with phs := { s.phs with changedAt := assocSet s.phs.changedAt h s.mono } })
  let s := s.each ((List.range 8).filter (fun d => (lomFields d).any (s.newVal old))) (fun s d => s.lomRestart d)
  let s := s.each ((List.range 16).filter (fun m => (ssoFields m).any (s.newVal old))) (fun s m => s.ssoRestart m)
  let s : State := if s.is PHS_CFG_EN && old.get PHS_CFG_EN == 0 then { s with phs := { s.phs with grid := some (instFrom 2400 s.tai) } } else s
  let s := s.phsSnap t
  let r := s.rate
  let g := s.ccd.grid
  let before : Nat × Nat := if g.2 = 0 then (g.1 - 1, r - 1) else (g.1, g.2 - 1)
  let s := if r = 0 then s else s.each changed (fun s x =>
    let h := x.2
    let keep := match assoc s.phs.homeAt h with
      | some q => decide (gridNs r q < t)
      | none => false
    if keep then s
    else { s with phs := { s.phs with homeAt := match s.homeNext h before with
        | some q => assocSet s.phs.homeAt h q
        | none => assocDel s.phs.homeAt h } })
  s.pairEvents [] was

/-- A blank slot, for the evaluation of what depends on no slot. -/
def slot0 : Slot :=
  ⟨0, 0, 0, 0, 0, 0, 0, 0, 0, none, 0, none, false, 0, false, false, 0, 0, [], [], [], [], 0, 0, false, false, false, none, [], false, none, none, none,
    [], [], false, false, [], false⟩

/-- The channels of enabled watch signals that their band disables, each recorded once per apply (R243). -/
def State.bandEvents (s : State) : State :=
  let x : EvCtx := ⟨s, s.regs, slot0, ⟨[], [], []⟩, true⟩
  let der := (x.derived []).res
  s.each ((List.range 1024).filter (fun w => s.is (WAT_EN w))) (fun s w =>
    let d := (x.watIn der w).div
    s.each ((List.range 4).filter (fun i => bit (s.rd (WAT_BAND_EN w)) i == 1 && !chanOn s.regs w i s.sysRate d))
      (fun s i => s.ev 0x6012 w i (chanBand s.regs w i) (s.sysRate / d)))

/-- Direct definitions are carried or reset as they change (R263). -/
def State.dirApply (s : State) (old : RegFile) (d : Nat) : State :=
  let was := almDirect (old.get (ALM_SOURCE d)) && old.get (ALM_EN d) == 1
  if !was then s
  else if almChanged s.regs old d || !s.is (ALM_EN d) then
    let act := (s.dir d).act
    let s := (s.delayDrop (.timer d)).setDir d ⟨false, none, false⟩
    let s := s.latchClear d
    let s := if act && s.is (ALM_EN d) then s.ev 0x6033 d 0 0 0 else s
    if act then (s.wr (ALM_ACT_I d) 0).setDrive d false 2 0 0 (s.firingAt 1 d (stampOf s.tai) false) else s
  else
    match (s.dir d).since with
    | none => s
    | some t16 =>
      let dur := s.rd (if (s.dir d).act then ALM_OFF_DUR d else ALM_ON_DUR d)
      s.delayAdd (t16 * 2 ^ 28 + dur * 100000 * nsU) (.timer d)

def State.anaApply (s : State) (old : RegFile) (changed : List (Nat × Nat)) : State :=
  let s := s.judge 9 changed
  let s := s.bandEvents
  (s.each (changed.filter (fun x => x.1 == 2)) (fun s x => s.dirApply old x.2)).almPins

/-- New output-stream entries: CFGCNT, the time of the change, and TXON of a stream that becomes enabled (R276, R285). -/
def State.pubApply (s : State) (old : RegFile) (changed : List (Nat × Nat)) (t : Nat) : State :=
  let s := s.judge 11 changed
  s.each changed (fun s x =>
    let o := x.2
    let s := s.wr (OST_CFGCNT o) (s.rd (OST_CFGCNT o) + 1)
    let s : State := { s with pub := { s.pub with changedAt := assocSet s.pub.changedAt o s.mono } }
    let on := s.is (OST_EN o) && s.rd (OST_FORMAT o) == 0
    let was := old.get (OST_EN o) == 1 && old.get (OST_FORMAT o) == 0
    let v := if on && was then s.is (OST_TXON o) else on && s.is (OST_AUTOSTART o)
    if b2n v = s.rd (OST_TXON o) then s
    else (s.setTxon o (t - 1) v).ev 0x2102 o (b2n v) (t / 1000000000) (t % 1000000000))

/-- New metering values (R289–R295): points judged, begun, or without a previous segment. -/
def State.qtyApply (s : State) (old : RegFile) (changed : List (Nat × Nat)) : State :=
  let chans := (List.range 192).filter (fun c => (corFields c).any (s.newVal old))
  let uses (i : Nat) : Bool := [MPT_VCH0 i, MPT_VCH1 i, MPT_VCH2 i, MPT_ICH0 i, MPT_ICH1 i, MPT_ICH2 i].any (fun f => chans.contains (s.rd f))
  let more := ((List.range 48).filter (fun i => s.is (MPT_EN i) && uses i && !changed.contains (0, i))).map (fun i => (0, i))
  let l := changed ++ more
  let s := s.judge 12 l
  let s := s.each l (fun s x =>
    let i := x.1 * 256 + x.2
    let s := s.setPt i { s.pt i with segs := none }
    if !s.is (ptEn i) then (s.mGapClose i).wr (ptRun i) 0
    else if old.get (ptEn i) = 0 then s.pointBegin i
    else if s.newVal old (ptDem i) then s.setPt i { s.pt i with due := s.bndFrom i (secOf s.tai + 1) }
    else s)
  if s.is QTY_CFG_EN && old.get QTY_CFG_EN == 0 then s.qtyStart else s

/-- New capture values (R318, R325): a change of MODE marks the next record, captures exist in triggered mode only, and dead
time ends where the new values let the writer go on. -/
def State.capApply (s : State) (old : RegFile) : State :=
  let mode := s.newVal old CAP_CFG_MODE
  let s : State := if mode then { s with cap := { s.cap with restart := true } } else s
  let s := if mode && s.rd CAP_CFG_MODE != 1 then s.each (List.range 64) (fun s i => s.captFree i) else s
  let size := s.newVal old CAP_CFG_BLK_INST || (List.range 6).any (fun i => s.newVal old (CAP_CHMASK_MASK i))
  let s := s.wr CAP_CAPACITY_INST s.capacity
  let s := if size then
      let s := s.postClamp (s.rdBuf CAP_POST_POST)
      s.wr CAP_POST_POST (s.rdBuf CAP_POST_POST)
    else s
  (if s.capMode = 0 then s.deadDrop else s.deadEnd).capStat

/-- New pairing values (R350–R354). -/
def State.redApply (s : State) : State :=
  let s := if s.pairEn then s else s.zlDown 1
  (s.announce (s.rd RED_HEALTH_HELD)).driveCompare.health.almPins

/-! ### The apply (R35) -/

/-- The blocks that work in slots. -/
def slotBlks : List Nat := [7, 8, 9, 10, 11]

/-- Block `b` moves its pending copy into its active values. -/
def State.applyBlock (s : State) (b t : Nat) : State :=
  match assoc s.pend b with
  | none => s
  | some pend =>
    let s := if b = 13 then s.blockEnd else s
    let old := s.regs
    let was := if b = 5 ∨ b = 7 then s.pairs else []
    let changed := changedEntries b pend old
    let s : State := { s with regs := overlay s.regs pend, pend := assocDel s.pend b }
    let s := s.wr SYS_APPLY_STAT_PEND (setBits (s.rd SYS_APPLY_STAT_PEND) b 1 0)
    match b with
    | 1 => s.ircFollow
    | 2 => s.pwrApply
    | 3 => s.tnsApply old
    | 4 => s.netApply old
    | 5 => s.ingApply old was changed
    | 6 => s.acqApply old
    | 7 => s.phsApply old was changed t
    | 9 => s.anaApply old changed
    | 11 => s.pubApply old changed t
    | 12 => s.qtyApply old changed
    | 13 => s.capApply old
    | 16 => s.redApply
    | _ => s

/-- Several blocks apply together (event 0xD021). -/
def State.applySet (s : State) (bs : List Nat) (t serial : Nat) : State :=
  if bs.isEmpty then s
  else
    let s := s.each bs (fun s b => s.applyBlock b t)
    s.ev 0xD021 (maskOf 20 (fun b => bs.contains b)) serial 0 0

/-- The pending blocks that satisfy a test. -/
def State.pendBlks (s : State) (p : Nat → Bool) : List Nat := (List.range 20).filter (fun b => (assoc s.pend b).isSome && p b)

/-- The blocks that work in slots apply at slot time `t`; the sizes of the streams follow the allocations (R35, R277). -/
def State.slotApply (s : State) (t : Nat) : State :=
  let s := s.applySet (s.pendBlks (fun b => slotBlks.contains b)) t (s.rd CCD_NEXT_SERIAL_SERIAL)
  s.pubSizes.wr CCD_CKPT_SIZE_BYTES (ckptSize s.regs)

/-- The other blocks apply within 4 fabric cycles of the strobe. -/
def State.nowApply (s : State) (p : Nat → Bool) : State :=
  let bs := s.pendBlks (fun b => p b && !slotBlks.contains b)
  if bs.isEmpty then s else (s.ticks 8).applySet bs 0 0

/-- The strobe of SYS_APPLY: each block's buffer is copied into its pending copy; a pending copy not yet taken is replaced with
event 0xD020 (R35, R36). -/
def State.strobe (s : State) (mask : Nat) : State :=
  let bs := (List.range 20).filter (fun b => bit mask b == 1 && blkBuffered b && s.on (blkDom b))
  let again := bs.filter (fun b => (assoc s.pend b).isSome)
  let s : State := { s with pend := bs.foldl (fun l b => assocSet l b (s.blockBufs b)) s.pend }
  let s := s.wr SYS_APPLY_STAT_PEND (maskOf 20 (fun b => bit (s.rd SYS_APPLY_STAT_PEND) b == 1 || bs.contains b))
  if again.isEmpty then s else s.ev 0xD020 (maskOf 20 (fun b => again.contains b)) mask 0 0

/-- APPLY_STROBE: a write to SYS_APPLY. -/
def execApplyStrobe (m : Master) (mask : Nat) (s : State) : Host.Outcome State Fault Refusal :=
  done s (s.accessW m SYS_APPLY_MASK.addr mask (fun s => s.strobe mask))

/-- A point at or before the next slot time has still to be handled. -/
def State.slotWaits (s : State) : Bool :=
  match s.firstPoint with
  | some p => decide (p.1 ≤ s.nextSlotNs)
  | none => false

/-- APPLY_TAKE_EFFECT: the blocks of the mask that wait apply: those that work in slots at the next slot time, or at once in
service without a slot grid; the others within 4 fabric cycles. -/
def execApplyTakeEffect (blks : Nat) (s : State) : Host.Outcome State Fault Refusal :=
  done s (if !s.up then s
    else
      let s := s.nowApply (fun b => bit blks b == 1)
      if !(s.pendBlks (fun b => bit blks b == 1 && slotBlks.contains b)).isEmpty && s.inService then
        if s.slotsRun then
          (if s.slotWaits then s
          else
            let t := s.nextSlotNs
            (s.advanceTo (t * nsU)).slotApply t)
        else s.slotApply s.nowNs
      else s)

/-- SLOT_OPEN: the next slot time falls due, once every point at or before it has been handled; the blocks that work in slots
apply, the slot opens or is held, and held slots whose commit point has come are skipped (R35, R189–R191, R201). -/
def execSlotOpen (s : State) : Host.Outcome State Fault Refusal :=
  done s (if !s.slotsRun || s.slotWaits then s
    else
      let t := s.nextSlotNs
      let s := ((s.advanceTo (t * nsU)).slotApply t).heldSkip.heldStat
      (s.slotDue s.ccd.grid).arcFlush 0)

end Sys2Proof.Machine
end

