-- ==== Sys2Proof/Machine/Image.lean ====
section
/-! DEFINITION. What the boot ROM and the firmware read from the NOR flash: boot header, firmware banks, settings images, the
overlay of the images and what each item is rejected for, and the writing of the values loaded (R53–R63, R377, R378, R383, R384).
How entries, unknown tags and fields without an image value are judged: DEDUCED, log 46. -/

namespace Sys2Proof.Machine

/-! ### The boot header (R53, R54) -/

/-- A boot-header copy as it is read; HOSTPORT is its bit 0. -/
structure Header where
  seq : Nat
  active : Nat
  trial : Nat
  flagsA : Nat
  flagsB : Nat
  ospi : Nat
  port : Nat
  deriving DecidableEq, Repr

def headerBase (k : Nat) : Nat := 0x10000 * k

/-- The copy `k`, if its MAGIC and CRC are correct. -/
def State.header (s : State) (k : Nat) : Option Header :=
  let h := s.norRead (headerBase k) 64
  if leAt h 0 4 ≠ 0x48424B47 ∨ leAt h 60 4 ≠ crc32c (h.take 60) then none
  else some ⟨leAt h 4 4, byteAt h 8, byteAt h 9, byteAt h 10, byteAt h 11, byteAt h 12, byteAt h 15 % 2⟩

/-- The bank the header names. -/
def Header.bank (h : Header) : Nat := if h.active = 0 then 0 else 1

def Header.flags (h : Header) (b : Nat) : Nat := if b = 0 then h.flagsA else h.flagsB

/-- Of two numbers the later one: 0 the first, 1 the second; where neither is later the choice is open. -/
def State.pickLater (s : State) (a b : Nat) : Nat × State :=
  if laterSerial a b then (0, s) else if laterSerial b a then (1, s)
  else
    let (v, s) := s.draw
    (v % 2, s)

/-- The copy in use, if one is valid. -/
def State.headerPick (s : State) : Option (Nat × Header) × State :=
  match s.header 0, s.header 1 with
  | some a, some b =>
    let (k, s) := s.pickLater a.seq b.seq
    (some (k, if k = 0 then a else b), s)
  | some a, none => (some (0, a), s)
  | none, some b => (some (1, b), s)
  | none, none => (none, s)

/-- The 64 bytes of a header copy; the fields of the read mode are those given. -/
def headerBytes (h : Header) (mode : List Byte) : List Byte :=
  let body := leBytes 4 0x48424B47 ++ leBytes 4 h.seq ++ [toByte h.active, toByte h.trial, toByte h.flagsA, toByte h.flagsB] ++ mode.take 4 ++ zeros 44
  body ++ leBytes 4 (crc32c body)

/-! ### Firmware banks (R377, R378) -/

def bankBase (b : Nat) : Nat := 0x100000 + 0x800000 * b

/-- The staging area. -/
def stagingBase : Nat := 0x1100000

def fwKeySlot (m : List Byte) : Nat := byteAt m 5
def fwNblk (m : List Byte) : Nat := leAt m 6 2
def fwVersion (m : List Byte) : Nat := leAt m 8 4
def fwRollback (m : List Byte) : Nat := byteAt m 12
def fwSrdMin (m : List Byte) : Nat := byteAt m 13
def fwSrdMax (m : List Byte) : Nat := byteAt m 14
def fwSmigMin (m : List Byte) : Nat := byteAt m 15
def fwLen (m : List Byte) : Nat := leAt m 16 4

/-- The manifest at a base. -/
def State.manifest (s : State) (base : Nat) : List Byte := s.norRead base 0x400

/-- MAGIC, MVER, NBLK or LEN is wrong. -/
def manifestBad (m : List Byte) : Bool :=
  let n := fwNblk m
  leAt m 0 4 != 0x57464B47 || byteAt m 4 != 1 || n == 0 || decide (127 < n) || decide (fwLen m ≤ (n - 1) * 65536) || decide (n * 65536 < fwLen m)

/-- A signature under a key slot: the use is refused and recorded, or the keys the slot offers are tried. -/
def State.verifySig (s : State) (slot world user : Nat) (msg sig : List Byte) : Bool × State :=
  match s.keyUse slot world [4] none with
  | some r => (false, s.keyRefuse slot world r user none)
  | none => ((s.verifyKeys slot).any (fun k => Config.ecdsaVerify k msg sig), s.keyUsed slot)

/-- Verifies the image at a base: what fails, as event 0xC101 gives it, or none. -/
def State.verifyBank (s : State) (base : Nat) : Option Nat × State :=
  let m := s.manifest base
  if manifestBad m then (some 0, s)
  else
    let n := fwNblk m
    match (List.range n).find? (fun i => crc32c (s.norRead (base + 0x10000 * (i + 1)) 0x10000) != leAt m (0x40 + 4 * i) 4) with
    | some i => (some (i + 1), s)
    | none =>
      if Config.sha256 (s.norRead (base + 0x10000) (fwLen m)) ≠ beAt m 0x20 32 then (some 0xFFFF, s)
      else
        let (ok, s) := s.verifySig (fwKeySlot m) 3 4 (m.take 0x3C0) (slice m 0x3C0 64)
        if !ok then (some 0xFFFF, s)
        else if fwRollback m < s.key.rollback then (some 0xFFFE, s)
        else (none, s)

/-- FWU_VER_A and B, FWU_ROLLBACK and FWU_STAT as the flash, the fuses and PD0 give them. -/
def State.fwuShow (s : State) : State :=
  let ver (b : Nat) : Nat :=
    let m := s.manifest (bankBase b)
    if leAt m 0 4 = 0x57464B47 then fwVersion m else 0
  (((s.wr FWU_VER_A_VERSION (ver 0)).wr FWU_VER_B_VERSION (ver 1)).wr FWU_ROLLBACK_COUNT s.key.rollback).wr FWU_STAT_REJECT (b2n (s.fwu.reject != 0))

/-- SYS_RST_CAUSE as one word. -/
def State.rstCause (s : State) : Nat :=
  s.rd SYS_RST_CAUSE_PORST + 2 * s.rd SYS_RST_CAUSE_RSTN + 4 * s.rd SYS_RST_CAUSE_WDOG + 8 * s.rd SYS_RST_CAUSE_FWRST + 16 * s.rd SYS_RST_CAUSE_RTCWAKE

/-- Exactly one bit of SYS_RST_CAUSE is set. -/
def State.setCause (s : State) (f : Field) : State :=
  ([SYS_RST_CAUSE_PORST, SYS_RST_CAUSE_RSTN, SYS_RST_CAUSE_WDOG, SYS_RST_CAUSE_FWRST, SYS_RST_CAUSE_RTCWAKE].foldl (fun s g => s.wr g 0) s).wr f 1

/-- The first bank of a list that is not marked settings-incompatible and passes (R54, R55). -/
def State.tryBanks (s : State) (h : Header) (l : List Nat) : Option Nat × State :=
  match l with
  | [] => (none, s)
  | b :: rest =>
    if bit (h.flags b) 1 = 1 then s.tryBanks h rest
    else
      match s.verifyBank (bankBase b) with
      | (none, s) => (some b, s)
      | (some n, s) => (s.ev 0xC101 b n 0 0).tryBanks h rest

/-- A bank starts. -/
def State.bankStart (s : State) (h : Header) (b : Nat) (trial : Bool) : State :=
  let fb := b2n (b != h.bank)
  let s : State := { s with fwu := { s.fwu with bank := b, trialCnt := if trial then s.fwu.trialCnt + 1 else s.fwu.trialCnt } }
  let s := ((s.wr SYS_BOOT_STAT_BANK b).wr SYS_BOOT_STAT_TRIAL (b2n trial)).wr SYS_BOOT_STAT_FALLBACK fb
  (s.fwuShow.wr FWU_STAT_TRIAL (b2n trial)).ev 0xC100 b (b2n trial) fb h.seq

/-- Step 9: the boot header is read and a bank verified and started; without one the part is in recovery on the port answered
(R54, R383, R384). Whether the copy read again in the header's mode differs from the first read is open (log 1). -/
def State.bootSelect (s : State) : Option Nat × State :=
  let s := s.wr SYS_BOOT_STAT_PHASE 2
  let s := s.each [0, 1] (fun s k => if (s.header k).isNone then s.ev 0xC103 k 0 0 0 else s)
  match s.headerPick with
  | (none, s) =>
    let s : State := { s with boot := { s.boot with headerCopy := none } }
    (some 0, s.fwuShow.ev 0xC102 0 0 0 0)
  | (some (k, h), s) =>
    let s : State := { s with boot := { s.boot with headerSeq := h.seq, headerCopy := some k } }
    let (v, s) := s.draw
    let s := if v % 2 = 1 then s.ev 0xC104 (if 4 < h.ospi then 0 else h.ospi) 0 0 0 else s
    let a := h.bank
    let again := h.trial == 1 && decide (1 ≤ s.fwu.trialCnt)
    let reject := s.fwu.reject == a + 1
    let s := if again && !reject then s.ev 0xC407 a s.rstCause 0 0 else s
    match s.tryBanks h (if reject || again then [1 - a] else [a, 1 - a]) with
    | (some b, s) => (none, s.bankStart h b (h.trial == 1 && b == a))
    | (none, s) => (some h.port, s.fwuShow.ev 0xC102 h.port 0 0 0)

/-! ### Settings images (R56) -/

/-- A settings image that is valid; `bytes` runs to LENGTH. -/
structure Image where
  kind : Nat
  schema : Nat
  bytes : List Byte
  deriving DecidableEq, Repr

/-- The image areas: factory, user slot 0, user slot 1. -/
def imageBase (i : Nat) : Nat := if i = 0 then 0x1900000 else 0x1D00000 + 0x400000 * (i - 1)

def State.imageGen (s : State) (i : Nat) : Nat := leAt (s.norRead (imageBase i) 32) 12 4
def State.imageLength (s : State) (i : Nat) : Nat := leAt (s.norRead (imageBase i) 32) 8 4

/-- The image in area `i`, if it is valid. -/
def State.image (s : State) (i : Nat) : Option Image × State :=
  let h := s.norRead (imageBase i) 32
  let len := leAt h 8 4
  let kind := if i = 0 then 1 else 2
  if leAt h 0 4 ≠ 0x49534B47 ∨ crc32c (h.take 28) ≠ leAt h 28 4 ∨ byteAt h 6 ≠ kind ∨ len < 32 ∨ 0x400000 < len then (none, s)
  else
    let bs := s.norRead (imageBase i) len
    let img : Image := ⟨kind, leAt h 4 2, bs⟩
    if byteAt h 7 % 2 = 0 then (some img, s)
    else
      let (ok, s) := s.verifySig (byteAt h 16) 4 5 bs (s.norRead (imageBase i + len) 64)
      (if ok then some img else none, s)

/-- The user image and its slot (R56). A slot with a later GEN that is invalid is recorded. -/
def State.userImage (s : State) : Option (Nat × Image) × State :=
  let (a, s) := s.image 1
  let (b, s) := s.image 2
  let ga := s.imageGen 1
  let gb := s.imageGen 2
  let bad (s : State) (slot gen : Nat) : State :=
    let (r, s) := s.draw
    s.ev 0xC207 slot gen r 0
  match a, b with
  | some x, some y =>
    let (k, s) := s.pickLater ga gb
    (some (k, if k = 0 then x else y), s)
  | some x, none => (some (0, x), if laterSerial gb ga then bad s 1 gb else s)
  | none, some y => (some (1, y), if laterSerial ga gb then bad s 0 ga else s)
  | none, none =>
    (none, if s.imageLength 1 = 0xFFFFFFFF ∧ s.imageLength 2 = 0xFFFFFFFF then s
      else if laterSerial ga gb then bad s 0 ga
      else if laterSerial gb ga then bad s 1 gb
      else s)

/-- How the firmware of a bank takes a schema: 0 reads it, 1 migrates it, 2 neither (R61, R377). -/
def schemaTake (m : List Byte) (schema : Nat) : Nat :=
  let major := schema / 256
  if fwSrdMin m ≤ major ∧ major ≤ fwSrdMax m then 0
  else if fwSmigMin m ≤ major ∧ major < fwSrdMin m then 1
  else 2

/-! ### Items (R57–R60) -/

/-- An item of a section: of a register, of a table entry (table, entry, first word, words), or of neither tag. -/
inductive SetItem where
  | reg (a mask v : Nat)
  | tbl (t e w : Nat) (ws : List Nat)
  | bad
  deriving DecidableEq, Repr

/-- The items of a VALUE, with fuel; one that runs past its end, or of an unknown tag, is the last. -/
def setItems (fuel : Nat) (bs : List Byte) : List SetItem :=
  match fuel with
  | 0 => []
  | fuel + 1 =>
    if bs.isEmpty then []
    else if byteAt bs 0 = 1 then
      (if bs.length < 16 then [] else .reg (leAt bs 4 4) (leAt bs 8 4) (leAt bs 12 4) :: setItems fuel (bs.drop 16))
    else if byteAt bs 0 = 2 then
      let n := byteAt bs 5
      if bs.length < 8 + 4 * n then []
      else .tbl (byteAt bs 1) (leAt bs 2 2) (byteAt bs 4) ((List.range n).map (fun i => leAt bs (8 + 4 * i) 4)) :: setItems fuel (bs.drop (8 + 4 * n))
    else [.bad]

/-- The loader registers of the key store, whose items are carried out (R374). -/
def isKeyLoader (a : Nat) : Bool := (0xF0040 ≤ a && a < 0xF0054) || (0xF0080 ≤ a && a < 0xF00F0) || a == 0xF0100

/-- The words through which statistics objects are configured (R342). -/
def isObjWord (a : Nat) : Bool := 0xD0300 ≤ a && a < 0xD0310

/-- A field that an item may name: writable and read back, the seal, or a loader register (R59). -/
def writable (f : Field) : Bool :=
  match f.acc with
  | .rw => true
  | .rwa => true
  | .rwv => true
  | .rwk => true
  | .w1 => f.addr == QTY_SEAL_SEALED.addr
  | .wo => isKeyLoader f.addr
  | _ => false

/-- A field that takes its value from an image: one whose Default column says img; the seal, the loader registers and the selector of
a statistics object are carried out as their chapters say (R11, R314, R342, R374; DEDUCED, log 46). -/
def settable (f : Field) : Bool :=
  writable f && (f.img || f.addr == QTY_SEAL_SEALED.addr || isKeyLoader f.addr || f.addr == LOG_OBJ_SEL_OBJ.addr)

/-- The value a field has so far: its built-in value where nothing names it (R57). -/
def Load.get (l : Load) (f : Field) : Nat := l.vals.get f

/-- The fields an item sets with their new values, in word order. -/
def Load.sets (l : Load) (b : Nat) (it : SetItem) : List (Field × Nat) :=
  match it with
  | .reg a m v =>
    ((fieldsAt a).filter (fun f => settable f && bits m f.lo f.width != 0)).map (fun f =>
      let mask := bits m f.lo f.width
      (f, (bits v f.lo f.width &&& mask) + (l.get f - (l.get f &&& mask))))
  | .tbl t e w ws =>
    (List.range ws.length).flatMap (fun i => ((tblFields b t e (w + i)).filter settable).map (fun f => (f, bits (nth ws i 0) f.lo f.width)))
  | .bad => []

/-- The magnitude of a two's complement value is above a limit. -/
def beyond (w lim v : Nat) : Bool := decide (lim < (sint w v).natAbs)

/-- A code that the field's chapter does not give, or says acts as another (R91, R99, R110, R131, R170, R237, R238,
R241, R252, R255–R257, R276, R287, R291, R296, R309, R323, R341). -/
def codeBad (f : Field) (v : Nat) : Bool :=
  let a := f.addr
  let t := a / 2 ^ 32
  let w := a % 256
  if t = 0x29 then w == 0 && f.lo == 1 && decide (3 < v)
  else if t = 0x49 then (w == 0 && f.lo == 1 && decide (5 < v)) || (decide (4 ≤ w) && decide (w ≤ 16) && decide (7 < v / 2 ^ 28))
  else if t = 0x4A then
    (w == 0 && f.lo == 1 && v == 7) || (w == 0 && f.lo == 11 && decide (63 < v) && v != 127)
      || (w == 12 && (decide (v < 0x3F666666) || decide (f1 < v)))
  else if t = 0x4B then
    (w == 0 && f.lo == 1 && (decide (0x26 < v) || (decide (0x11 < v) && decide (v < 0x20)))) || (w == 0 && f.lo == 7 && decide (3 < v))
      || (w == 0 && (f.lo == 10 || f.lo == 19) && v == 3) || (w == 12 && decide (0x80000000 < v) && decide (v ≤ 0xFF800000))
  else if t = 0x4D then w == 0 && f.lo == 27 && v == 3
  else if t = 0x59 then (w == 0x40 && decide (129 < v % 256)) || (w == 0 && (f.lo == 1 || f.lo == 3) && v == 3)
  else if t = 0x61 ∨ t = 0x62 then w == 0 && f.lo == 1 && v == 3
  else if 0xB0400 ≤ a ∧ a < 0xB0500 ∧ a % 16 = 0 ∧ f.lo = 1 then decide (0x02F < v) && decide (v < 0x100)
  else if 0x31000 ≤ a ∧ a < 0x31C00 ∧ (a - 0x31000) % 0x200 = 0 ∧ f.lo = 0 then
    !(if a < 0x31800 then [0, 1, 2, 3, 4, 5].contains v else [0, 8, 9].contains v)
  else if f = TNS_CTRL_PRIO then (List.range 4).any (fun i => decide (4 < bits v (4 * i) 4))
  else if a = 0xD0304 ∧ f.lo = 0 then v == 3
  else if 0x61000 ≤ a ∧ a < 0x61600 ∧ a % 8 = 4 then beyond 24 3141593 v
  else if 0xB8000 ≤ a ∧ a < 0xBE000 ∧ 0x40 ≤ a % 0x80 ∧ a % 0x80 < 0x60 then beyond 16 10000 v
  else if 0xC0040 ≤ a ∧ a < 0xC0080 ∧ f.lo = 1 then v != 0 && !(decide (0x20 ≤ v) && decide (v ≤ 0x24))
  else false

/-- A value outside a field's encoding or limits: outside the range it acts on, or such a code (DEDUCED, log 46). CCD_TBASE is judged
with CCD_CFG once the image is loaded (R183). -/
def fieldBad (f : Field) (v : Nat) : Bool := f != CCD_TBASE_TBASE && (v < f.least || f.most < v || codeBad f v)

/-- Writes the values an item sets. -/
def Load.put (l : Load) (xs : List (Field × Nat)) : Load := { l with vals := xs.foldl (fun r x => r.set x.1 x.2) l.vals }

/-- The sum of the partition sizes (R317). -/
def Load.parts (l : Load) : Nat := l.get CAP_PART_CAP_MIB + l.get CAP_PART_ARC_MIB + (List.range 8).foldl (fun a w => a + l.get (CAP_PART_WA_MIB w)) 0

/-- The field of a key, if there is one. -/
def fieldOfKey (k : Nat) : Option Field := (fieldsAny (k / 32 % 2 ^ 43)).find? (fun f => f.lo == k % 32)

/-- An image may supply the value of a key (R11). -/
def imgKey (k : Nat) : Bool :=
  match fieldOfKey k with
  | some f => f.img
  | none => false

/-- The part as the loaded values would make it: those of the registers in full, those of the tables so far. -/
def State.loadView (s : State) (final : RegFile) (l : Load) : State :=
  let base := s.regs.filter (fun p => !imgKey p.1)
  { s with regs := overlay (overlay base l.vals) (final.filter (fun p => decide (p.1 / 32 < 2 ^ 32))) }

/-- The reason an item is rejected for, 0 for none (R59). With `final`, the registers as all sections leave them, an entry that
the item leaves enabled is judged too, but for output streams (R277). -/
def State.itemReason (s : State) (final : Option RegFile) (l : Load) (b : Nat) (isSealed : Bool) (it : SetItem) : Nat :=
  let xs := l.sets b it
  let values : Nat :=
    if xs.any (fun x => fieldBad x.1 x.2) then 6
    else if xs.any (fun x => x.1.addr == 0xF0100 && x.2 != 2) then 6
    else if xs.any (fun x => 0xC0100 ≤ x.1.addr && x.1.addr < 0xC0128) && decide (7680 < (l.put xs).parts) then 6
    else if !isSealed && xs.any (fun x => x.1.sealed || x.1.addr == QTY_SEAL_SEALED.addr) then 7
    else 0
  match it with
  | .bad => 1
  | .reg a _ _ =>
    if !(decide (a < 0x110000) && blkOfAddr a == b) then 2
    else if !(fieldsAt a).any writable then 3
    else values
  | .tbl t e w ws =>
    let (n, k) := tblSize b t
    if n ≤ e then 4
    else if ws.isEmpty ∨ k < w + ws.length then 5
    else if values ≠ 0 then values
    else
      match final with
      | none => 0
      | some final =>
        let v := s.loadView final (l.put xs)
        if b = 11 ∨ b = 17 ∨ (b = 9 ∧ t = 3) ∨ !v.is (entryEn b t e) then 0
        else if v.entryReason b t e false = 0 then 0 else 6

/-- The first parameter of event 0xC203 (R59); a tag that is neither names nothing, and the parameter is open. -/
def State.itemParam (s : State) (it : SetItem) : Nat × State :=
  match it with
  | .reg a _ _ => (a, s)
  | .tbl t e _ _ => (0x80000000 + t % 16 * 65536 + e, s)
  | .bad => s.draw

/-- The recorder takes what waits: the boot ROM and the firmware leave it the time (DEDUCED, log 46). -/
def State.logDrain (s : State) : State := s.each s.log.inq (fun s _ => s.takeEvent)

/-- An item is rejected: counted and recorded. -/
def State.itemReject (s : State) (l : Load) (p typ reason : Nat) : State × Load := ((s.ev 0xC203 p typ reason 0).logDrain, { l with rej := l.rej + 1 })

/-- A home stream that the images enable displaces the context of its column (R173). -/
def State.loadDisplace (s : State) (final : RegFile) (l : Load) (h : Nat) : State × Load :=
  let v := s.loadView final l
  let c := v.rd (HSM_COLUMN h)
  if !v.is (HSM_EN h) || !v.is (CTX_EN c) then (s, l)
  else
    let partner := v.rd (CTX_PARTNER c)
    let paired := v.is (CTX_PAIRED c) && v.is (CTX_EN partner) && v.is (CTX_PAIRED partner) && v.rd (CTX_PARTNER partner) == c
    let s := s.ev 0x4111 h c 0 0
    (if paired then s.ev 0x3042 c partner 0 0 else s, { l with vals := l.vals.set (CTX_EN c) 0 })

/-- One item of a section. -/
def State.loadItem (s : State) (final : Option RegFile) (l : Load) (typ : Nat) (isSealed : Bool) (it : SetItem) : State × Load :=
  let b := typ / 256
  let r := s.itemReason final l b isSealed it
  if r ≠ 0 then
    let (p, s) := s.itemParam it
    s.itemReject l p typ r
  else
    let xs := l.sets b it
    let good := if isSealed then (xs.filter (fun x => x.1.sealed)).map (fun x => fieldKey x.1) else []
    let l : Load := { l with good := good ++ l.good }
    match it with
    | .reg a m v =>
      if isKeyLoader a then (s, { l with keys := l.keys ++ [(a, m, v, isSealed)] })
      else if isObjWord a then (s, { l with objs := l.objs ++ [(a, m, v)] })
      else
        let l := l.put xs
        (s, { l with
          ccd := if a = 0x70000 ∨ a = 0x70004 then l.ccd ++ [(a, typ)] else l.ccd
          post := if a = CAP_POST_POST.addr then some typ else l.post })
    | .tbl _ e _ _ =>
      let l := l.put xs
      let l : Load := if b = 11 then { l with pubs := l.pubs ++ [(typ, e, xs.map (fun x => (fieldKey x.1, x.2)))] } else l
      match final with
      | some final => if b = 7 then s.loadDisplace final l e else (s, l)
      | none => (s, l)
    | .bad => (s, l)

/-- The sections of an image from an offset on, with fuel; `met` are the TYPEs of its valid sections so far (R58). -/
def State.loadSections (s : State) (final : Option RegFile) (img : Image) (fuel o : Nat) (met : List Nat) (l : Load) : State × Load :=
  match fuel with
  | 0 => (s, l)
  | fuel + 1 =>
    let bs := img.bytes
    let typ := leAt bs o 2
    let flags := byteAt bs (o + 2)
    let skey := byteAt bs (o + 3)
    let slen := leAt bs (o + 4) 4
    let total := 12 + slen + 64 * bit flags 1
    if bs.length ≤ o ∨ slen = 0xFFFFFFFF then (s, l)
    else if slen % 4 ≠ 0 ∨ bs.length < o + total then (s.ev 0xC205 img.kind o slen 0, { l with failsec := l.failsec + 1 })
    else
      let next := o + total
      let body := slice bs o (8 + slen)
      if crc32c body ≠ leAt bs (o + 8 + slen) 4 then
        (s.ev 0xC201 img.kind typ o 0).loadSections final img fuel next met { l with failsec := l.failsec + 1 }
      else
        let (ok, s) :=
          if bit flags 1 = 1 then s.verifySig skey 4 5 (slice bs o (12 + slen)) (slice bs (o + 12 + slen) 64)
          else (bit flags 0 == 0, s)
        if !ok then (s.ev 0xC202 img.kind typ skey 0).loadSections final img fuel next met { l with failsec := l.failsec + 1 }
        else if 19 < typ / 256 then (s.ev 0xC204 img.kind typ 0 0).loadSections final img fuel next met l
        else if met.contains typ then
          (s.ev 0xC206 img.kind typ o 0).loadSections final img fuel next met { l with failsec := l.failsec + 1 }
        else
          let v := slice bs (o + 8) slen
          let (s, l) := (setItems v.length v).foldl (fun x it => x.1.loadItem final x.2 typ (bit flags 0 == 1) it) (s, l)
          s.loadSections final img fuel next (typ :: met) l

/-- The pair of CCD_CFG and CCD_TBASE is judged as an image leaves it; where it fails, the image's items on them are rejected and
the values `before` stand (R183). -/
def State.ccdJudge (s : State) (before l : Load) : State × Load :=
  if rateOk (l.get CCD_CFG_FSYS == 1) (l.get CCD_CFG_RATE) && l.get CCD_TBASE_TBASE != 0 then (s, { l with ccd := [] })
  else
    let (s, l) := l.ccd.foldl (fun x p => x.1.itemReject x.2 p.1 p.2 6) (s, l)
    (s, { l.put ([CCD_CFG_FSYS, CCD_CFG_RATE, CCD_TBASE_TBASE].map (fun f => (f, before.get f))) with ccd := [] })

/-- One image over what is loaded so far. -/
def State.loadImage (s : State) (final : Option RegFile) (img : Image) (l : Load) : State × Load :=
  let (s, l2) := s.loadSections final img img.bytes.length 32 [] l
  s.ccdJudge l l2

/-! ### What is judged once all sections are loaded (R277, R325) -/

/-- The values with the output streams made of the items that stand. -/
def Load.pubRedo (l : Load) (pubs : List (Nat × Nat × List (Nat × Nat))) : Load :=
  let rest := l.vals.filter (fun p => p.1 / 32 / 2 ^ 32 != 1 + 8 * 11)
  { l with vals := pubs.foldl (fun r it => it.2.2.foldl (fun r x => assocSet r x.1 x.2) r) rest, pubs := pubs }

/-- The last element that satisfies a test is taken out; answers it and the rest. -/
def takeLast {α : Type} (p : α → Bool) (l : List α) : Option (α × List α) :=
  match l with
  | [] => none
  | x :: xs =>
    match takeLast p xs with
    | some (y, rest) => some (y, x :: rest)
    | none => if p x then some (x, xs) else none

/-- Output stream `o` is judged on the allocations, definitions and entries as loaded, those above it not enabled; the item that
enables it is rejected, with fuel, until it passes or is off. -/
def State.pubJudge (s : State) (final : RegFile) (o fuel : Nat) (l : Load) : State × Load :=
  match fuel with
  | 0 => (s, l)
  | fuel + 1 =>
    let lower : Load := { l with vals := l.vals.filter (fun p => !((List.range 64).any (fun k => decide (o < k) && p.1 == fieldKey (OST_EN k)))) }
    let v := s.loadView final lower
    if !v.is (OST_EN o) ∨ v.entryReason 11 0 o true = 0 then (s, l)
    else
      match takeLast (fun it => it.2.1 == o && it.2.2.contains (fieldKey (OST_EN o), 1)) l.pubs with
      | none => (s, l)
      | some (it, rest) =>
        let (s, l) := s.itemReject l (0x80000000 + o) it.1 6
        s.pubJudge final o fuel (l.pubRedo rest)

/-- CAP_POST is checked against the capacity of the sizes and channels loaded; one that fails takes its factory value, or the
most that fits (R325). -/
def State.postJudge (s : State) (final : RegFile) (l : Load) : State × Load :=
  let v := s.loadView final l
  let v : State := { v with cap := { v.cap with parts := partFields.map (fun f => v.rd f) } }
  let cap := v.capacity
  let pre := min (l.get CAP_PRE_PRE) cap
  if pre + l.get CAP_POST_POST ≤ cap then (s, l)
  else
    let (s, l) := match l.post with
      | some typ => s.itemReject l CAP_POST_POST.addr typ 6
      | none => (s, l)
    if pre + CAP_POST_POST.dflt ≤ cap then (s, l.put [(CAP_POST_POST, CAP_POST_POST.dflt)])
    else (s.ev 0x9005 CAP_POST_POST.dflt (cap - pre) cap 0, { l.put [(CAP_POST_POST, cap - pre)] with clamped := true })

/-- The images of a list in order, then what is judged at the end. -/
def State.loadImages (s : State) (final : Option RegFile) (imgs : List Image) : State × Load :=
  let (s, l) := imgs.foldl (fun x img => x.1.loadImage final img x.2) (s, load0)
  match final with
  | none => (s, l)
  | some final =>
    let (s, l) := (List.range 64).foldl (fun x o => x.1.pubJudge final o (x.2.pubs.length + 1) x.2) (s, l)
    s.postJudge final l

/-- Steps 10 and 11: the images are read, taken as the firmware's schema ranges allow, overlaid and judged. In a trial boot,
settings that are neither readable nor migratable answer no load, with the bank rejected (R56–R61, R384). -/
def State.settingsLoad (s : State) : Option Load × State :=
  let s := s.wr SYS_BOOT_STAT_PHASE 3
  let m := s.manifest (bankBase s.fwu.bank)
  let trial := s.is SYS_BOOT_STAT_TRIAL
  let (fact, s) := s.image 0
  let (user, s) := s.userImage
  let take (i : Image) : Nat := schemaTake m i.schema
  let unreadable := (fact.toList ++ (user.map (fun u => u.2)).toList).find? (fun i => take i == 2)
  match if trial then unreadable else none with
  | some i =>
    let (v, s) := s.draw
    let s := s.ev 0xC405 s.fwu.bank i.schema v (fwSmigMin m)
    let s := s.lgLive 0x0109 s.fwu.bank i.schema v (fwSmigMin m)
    (none, ({ s with fwu := { s.fwu with reject := s.fwu.bank + 1 } } : State).wr FWU_STAT_REJECT 1)
  | none =>
    let factOk := match fact with
      | some i => take i != 2
      | none => false
    let userBad := match user with
      | some u => take u.2 == 2
      | none => false
    let s := if factOk then s.wr SYS_BOOT_STAT_FACT_BUILTIN 0
      else
        let (r, s) := s.draw
        (s.wr SYS_BOOT_STAT_FACT_BUILTIN 1).ev 0xC200 r 0 0 0
    let s := if userBad then s.ev 0xC208 ((user.map (fun u => u.2.schema)).getD 0) 0 0 0 else s
    let user := if userBad then none else user
    let s := (s.wr SYS_BOOT_STAT_USER (b2n user.isSome)).wr SYS_BOOT_STAT_USLOT ((user.map (fun u => u.1)).getD 0)
    let imgs := (if factOk then fact.toList else []) ++ (user.map (fun u => u.2)).toList
    let s := s.each (imgs.filter (fun i => take i == 1)) (fun s i =>
      let (v, s) := s.draw
      s.ev 0xC409 i.kind i.schema v 0)
    let s := s.wr SYS_BOOT_STAT_PHASE 4
    let final := (s.loadImages none imgs).2
    let (s, l) := s.loadImages (some final.vals) imgs
    let schema := match imgs.getLast? with
      | some i => i.schema
      | none => 0
    let s := ((s.wr SYS_IMG_STAT_FAILSEC (min l.failsec 255)).wr SYS_IMG_STAT_REJITEM (min l.rej 255)).wr SYS_IMG_STAT_SCHEMA schema
    (some l, s.ev 0xC210 (min l.failsec 255) (min l.rej 255) schema ((user.map (fun u => u.1)).getD 0xFF))

/-! ### Step 13: the values are written (R57, R63, R374) -/

/-- A value goes to where writes of its field go: buffer, the three copies of the buffer, or the register. -/
def State.putValue (s : State) (k v : Nat) : State :=
  match fieldOfKey k with
  | none => s
  | some f =>
    match f.acc with
    | .rwa => s.wrBuf f v
    | .rwv => s.wrBufV f v
    | .w1 => if v = 1 then s.wrV f 1 else s
    | _ => s.wr f v

/-- The word of a master's register at an address with the bits of a mask replaced. -/
def State.maskedWord (s : State) (m : Master) (a mask v : Nat) : Nat :=
  (fieldsAt a).foldl (fun w f =>
    let old := s.rd (forM m f)
    let k := bits mask f.lo f.width
    w + ((bits v f.lo f.width &&& k) + (old - (old &&& k))) * 2 ^ f.lo) 0

/-- An item of a KEY section is carried out (R374). -/
def State.keyItem (s : State) (x : Nat × Nat × Nat × Bool) : State :=
  let w := s.maskedWord .mc x.1 x.2.1 x.2.2.1
  if x.1 = 0xF0100 then
    let s := s.loadWrapped .mc (some x.2.2.2)
    match s.key.job with
    | some j => s.keyDone .mc j
    | none => s
  else s.each (fieldsAt x.1) (fun s f => s.wr (forM .mc f) (bits w f.lo f.width))

/-- An item of the object words is carried out (R342). -/
def State.objItem (s : State) (x : Nat × Nat × Nat) : State :=
  let w := s.maskedWord .mc x.1 x.2.1 x.2.2
  if x.1 = 0xD0300 then s.objSelect (w % 512) else s.objConfig x.1 w

/-- Every value an image may supply is written: its built-in value where nothing names it. Lock bits wait for the strobe; the selector
of the statistics objects is left at its reset value. -/
def State.writeLoaded (s : State) (l : Load) : State :=
  let s := s.wr SYS_BOOT_STAT_PHASE 6
  let held := ((s.regs ++ s.bufs).filter (fun p => imgKey p.1)).map (fun p => fieldKey ((fieldOfKey p.1).getD SYS_ID_STEP))
  let s := s.each held.eraseDups (fun s k =>
    match fieldOfKey k with
    | some f => if isLock f.addr || isObjWord f.addr then s else s.putValue k f.dflt
    | none => s)
  let s := s.each (l.vals.filter (fun p => !isLock (p.1 / 32))) (fun s p => s.putValue p.1 p.2)
  let s := if l.clamped then s.wr CAP_STAT_CLAMPED 1 else s
  let s := s.each l.keys (fun s x => s.keyItem x)
  let s := s.each l.objs (fun s x => s.objItem x)
  let s := if l.objs.isEmpty then s else s.objSelect 0
  { s with boot := { s.boot with
      locks := (List.range 20).filter (fun b => (l.vals.any (fun p => isLock (p.1 / 32) && blkOfAddr (p.1 / 32) == b && p.2 == 1)))
      sealedOk := l.good } }

end Sys2Proof.Machine
end

