-- ==== Sys2Proof/Machine/Startup.lean ====
section
/-! DEFINITION. The start sequence, its failures, limited service and recovery, the start of service, and the resets and wakes that
lead back to it (R48–R52, R62–R64, R74, R81–R83, R390). What the sequence leaves open: DEDUCED, log 47. -/

namespace Sys2Proof.Machine

/-! ### Resets -/

/-- PD1 to PD7 lose their contents, with `locks` the LOCK bits too; PD0 keeps its own (R25, R49, R368). -/
def State.pd1Reset (s : State) (porst locks : Bool) : State :=
  let s := [7, 6, 5, 4, 3, 2, 1].foldl (fun s k => s.clearDom locks k) s
  let s := s.keyReset porst
  { s with boot := { s.boot with
      locks := [], sealedOk := [], headerCopy := none, windows := 0, windowIdx := 0, tripped := false, ircFlag := false, trimFrozen := false
      pwrFail := 0, strapped := false, alarmHeld := false, hostPort := 0, pinsOff := false } }

/-- The sequence begins at step 3. -/
def State.begin (s : State) : State :=
  { s with boot := { s.boot with stage := .ircStart, ircAttempt := 1, releaseAt := s.mono } }

/-- A reset of PD1–PD7 with its cause; out of hibernate it is a wake. RST_N clears the LOCK bits, and the watchdog resets as RST_N does;
a reset by firmware and a wake by the alarm do not (R25, R83). -/
def State.restart (s : State) (cause : Field) (wake : Nat) (locks : Bool) : State :=
  let hib := s.boot.stage == .hibernate
  let s := (s.pd1Reset false locks).setCause cause
  ({ s with boot := { s.boot with wakeCause := if hib then wake else 0 } } : State).begin

/-- PD0 has lost its supply: clock, last-gasp log, retention SRAM, counters and held values are gone. -/
def State.pd0Drop (s : State) : State :=
  { s with
    regs := s.regs.filter (fun p => !pd0Held (p.1 / 32)), rtc := 0
    log := { s.log with lg := [], lgHead := 0 }
    fwu := { s.fwu with trialCnt := 0, reject := 0 }
    qty := { s.qty with ring := [], copies := [none, none], copySeq := 0 }
    ing := { s.ing with lastLeap := none, oldOfs := 0 }
    boot := { s.boot with pd0Lost := true, wakeCause := 0, xtalOk := false } }

/-- PORST_ASSERT: every domain but PD0 is reset, and the outputs take their reset states (R390). -/
def execPorstAssert (s : State) : Host.Outcome State Fault Refusal :=
  done s (
    let wake := if s.boot.stage == .hibernate then 1 else if s.boot.stage == .porst then s.boot.wakeCause else 0
    let s := s.pd1Reset false true
    { s with boot := { s.boot with stage := .porst, wakeCause := wake } })

/-- PORST_RELEASE: steps 1 to 3 (R49); the life-cycle field is copied from the fuses (R365). -/
def execPorstRelease (pd0Lost : Bool) (s : State) : Host.Outcome State Fault Refusal :=
  done s (if s.boot.stage ≠ .porst then s
    else
      let s := if pd0Lost || s.boot.pd0Lost then s.pd0Drop else s
      ((s.keyReset true).setCause SYS_RST_CAUSE_PORST).begin)

/-- RST_RELEASE (R49). -/
def execRstRelease (s : State) : Host.Outcome State Fault Refusal :=
  done s (if s.boot.stage = .porst then s else s.restart SYS_RST_CAUSE_RSTN 2 true)

/-! ### Steps 3 to 6 -/

/-- After a wake with FASTWAKE the reference starts with the IRC (R82). -/
def State.fastWake (s : State) : Bool := s.boot.wakeCause != 0 && s.is PWR_WAKE_CFG_FASTWAKE

/-- IRC_STABLE: in step 3 no later than 200 µs; at run time the IRC that CLK_CTRL.IRC_EN or a return to the reference starts. -/
def execIrcStable (us : Nat) (s : State) : Host.Outcome State Fault Refusal :=
  let stable (s : State) : State := ({ s with boot := { s.boot with windowAt := s.mono } } : State).wr CLK_STAT_IRC_STABLE 1
  done s (match s.boot.stage with
    | .ircStart =>
      if 200 < us then s
      else
        let s := (s.dark (us * 1000 * nsU)).wr CLK_STAT_IRC_STABLE 1
        { s with boot := { s.boot with stage := .strap } }
    | .pll => if s.is CLK_STAT_IRC_STABLE then s else stable s
    | .run =>
      if !s.is CLK_STAT_IRC_STABLE && (s.is CLK_CTRL_IRC_EN || s.fastWake || (s.is CLK_STAT_SW_BUSY && s.boot.swTarget == 1)) then stable s
      else s
    | _ => s)

/-- IRC_START_TIMEOUT: the watchdog holds reset (cause 0x0102). SYS_RST_CAUSE keeps the cause of the reset whose step 3 this is (DESIGN
CHOICE, log 47). -/
def execIrcStartTimeout (s : State) : Host.Outcome State Fault Refusal :=
  done s (if s.boot.stage ≠ .ircStart then s
    else
      let s := (s.dark (200000 * nsU)).lgCause 0x0102 s.boot.ircAttempt 0 0 0
      { s with boot := { s.boot with stage := .ircHold } })

/-- IRC_RESTART: 10 ms later the IRC is started again. -/
def execIrcRestart (s : State) : Host.Outcome State Fault Refusal :=
  done s (if s.boot.stage ≠ .ircHold then s
    else
      let s := s.dark (10000000 * nsU)
      { s with boot := { s.boot with stage := .ircStart, ircAttempt := s.boot.ircAttempt + 1 } })

/-- STRAP_SAMPLE (R48): once after each release, 16 IRC cycles after the IRC is stable; after a fast wake that may be while the PLL locks
or runs already. -/
def execStrapSample (xdly mode pos : Nat) (s : State) : Host.Outcome State Fault Refusal :=
  done s (
    let late := s.fastWake && (s.boot.stage == .pll || s.boot.stage == .run) && s.is CLK_STAT_IRC_STABLE
    if s.boot.strapped ∨ (s.boot.stage ≠ .strap ∧ !late) then s
    else
      let s := if late then s.waitUntil (s.mono + 320 * nsU) else s.dark (320 * nsU)
      let s : State := { s with boot := { s.boot with strapped := true } }
      let s := ((s.wr SYS_STRAP_XDLY xdly).wr SYS_STRAP_BOOT_MODE mode).wr SYS_STRAP_PAIR_POS pos
      if late then s else { s with boot := { s.boot with stage := .refDelay } })

/-- The start delay of XDLY: 12,500 IRC cycles doubled XDLY times. -/
def State.xdly (s : State) : Nat := 12500 * 2 ^ s.rd SYS_STRAP_XDLY * 20 * nsU

/-- A time in whole periods of the 32 kHz clock, rounded up. -/
def up32k (d : Nat) : Nat := (d * 32768 + secU - 1) / secU * secU / 32768

/-- REF_START_DELAY_END: the monitor is armed, or after a fast wake without a stable IRC the PLL alone starts (R82). -/
def execRefStartDelayEnd (s : State) : Host.Outcome State Fault Refusal :=
  done s (
    if s.fastWake then
      let wait := s.boot.releaseAt + up32k s.xdly - s.mono
      match s.boot.stage with
      | .refDelay =>
        let s := s.dark wait
        { s with boot := { s.boot with stage := .window, windowAt := s.mono } }
      | .ircStart =>
        let s := s.dark wait
        { s with boot := { s.boot with stage := .pll } }
      | .strap =>
        let s := s.dark wait
        { s with boot := { s.boot with stage := .pll } }
      | _ => s
    else if s.boot.stage ≠ .refDelay then s
    else
      let s := s.dark s.xdly
      { s with boot := { s.boot with stage := .window, windowAt := s.mono } })

/-! ### Steps 8 to 11 -/

/-- Step 8: the management core, Tense's counter and the event recorder start. -/
def State.step8 (s : State) : State :=
  let s : State := { s with boot := { s.boot with stage := .run, trimAt := s.mono } }
  let s := s.tenseStart.recorderStart s.boot.pd0Lost
  let s : State := { s with boot := { s.boot with pd0Lost := false } }
  if s.boot.wakeCause = 0 then s else s.ev 0x0031 s.boot.wakeCause ((s.mono - s.boot.hibAt) / secU) 0 0

/-- A domain is powered during start-up. -/
def State.powerUp (s : State) (k : Nat) : State :=
  ((s.wr PWR_STAT_ON (setBits (s.rd PWR_STAT_ON) k 1 1)).clearDom false k).ev 0x0020 k 0 0 0

/-- PD7 is powered on a port, if it is not on already; the port in use is then fixed (R42, R52). -/
def State.powerHost (s : State) (port : Nat) : State :=
  if bit (s.rd PWR_STAT_ON) 7 = 1 then s
  else ({ s with boot := { s.boot with hostPort := port } } : State).powerUp 7

/-- A reset that the firmware requests. -/
def State.firmwareReset (s : State) : State := s.restart SYS_RST_CAUSE_FWRST 0 false

/-- Recovery on a host port (R52, R54). -/
def State.recovery (s : State) (port : Nat) : State := (s.powerHost port).wr SYS_BOOT_STAT_PHASE 11

/-- OSPI_RESET_N is low: with PORST_N, until the IRC is stable in step 3, and for 10 µs from each start of step 9 (R390, R395). -/
def State.ospiReset (s : State) : Bool :=
  s.boot.stage == .porst || s.boot.stage == .ircStart || s.boot.stage == .ircHold || decide (s.mono < s.boot.ospiLow)

/-- Steps 9 to 11. No load: the part is in recovery, or in a firmware reset after a trial whose settings are unreadable. -/
def State.steps9 (s : State) : Option Load × State :=
  let s : State := { s with boot := { s.boot with ospiLow := s.mono + 10000 * nsU } }
  let mode := s.rd SYS_STRAP_BOOT_MODE
  if 2 ≤ mode then
    let s : State := match s.headerPick with
      | (some (k, h), s) => { s with boot := { s.boot with headerSeq := h.seq, headerCopy := some k }, fwu := { s.fwu with bank := h.bank } }
      | (none, s) => s
    (none, s.fwuShow.recovery (mode - 2))
  else
    let s := if mode = 1 then s.powerHost (match s.headerPick.1 with
        | some h => h.2.port
        | none => 0) else s
    match s.bootSelect with
    | (some port, s) => (none, s.recovery port)
    | (none, s) =>
      match s.settingsLoad with
      | (none, s) => (none, s.firmwareReset)
      | (some l, s) => (some l, { s with loaded := l })

/-! ### Steps 12 and 13 -/

/-- Step 12: the domains that the image asks for, in ascending order; bit `k` of `failed` is one that does not power (R62). -/
def State.step12 (s : State) (l : Load) (failed : Nat) : State :=
  let s := s.wr SYS_BOOT_STAT_PHASE 5
  let want := 4 * l.get PWR_DOMAIN_EN_EN
  s.each ([2, 3, 4, 5, 6, 7].filter (fun k => bit want k == 1 && bit (s.rd PWR_STAT_ON) k == 0)) (fun s k =>
    if bit failed k = 1 then
      ({ s with boot := { s.boot with pwrFail := setBits s.boot.pwrFail k 1 1 } } : State).ev 0x0104 k 0 0 0
    else if k = 7 then s.powerHost (l.get HST_CFG_PORT)
    else s.powerUp k)

/-- The metering registers are restored, and each point's seal code is judged (R313, R315). -/
def State.meterUp (s : State) : State :=
  let s := s.qtyRestore 4
  let s := s.each allPoints (fun s i => (s.sealCheck s.boot.sealedOk i).logDrain)
  s.fallGaps.qtyStart

/-- The strobe of step 13, the start of the domains on the values applied, and the LOCK bits after it (R63). The blocks that work
in slots wait for service; a domain that failed in step 12 stays off (R62). -/
def State.step13 (s : State) : State :=
  let end13 := s.mono
  let off := s.boot.pwrFail
  let s := (s.strobe 0xFFFFF).nowApply (fun _ => true)
  let s : State := { s with boot := { s.boot with pwrFail := off } }
  let s := s.each ([2, 3, 4, 6].filter (fun k => s.on k)) (fun s k => s.startDom k)
  let s := if s.on 5 then s.meterUp else s
  let s := s.each s.boot.locks (fun s b => s.wr (BLK_LOCK_LOCK b) 1)
  let s := (s.wr SYS_SVC_TIME_US (s.usSince s.boot.releaseAt)).wr SYS_BOOT_STAT_PHASE 8
  let s : State := { s with boot := { s.boot with step13At := end13, pinsOff := s.is HST_CFG_PINS_OFF }, red := { s.red with live := true } }
  s.switchBusy.health.driveCompare.almPins

/-- Steps 12 and 13 with a load; in held mode the values wait in their buffers for GO (R52). -/
def State.steps12 (s : State) (l : Load) (failed : Nat) : State :=
  let s := (s.step12 l failed).writeLoaded l
  if s.rd SYS_STRAP_BOOT_MODE = 1 then s.wr SYS_BOOT_STAT_PHASE 7 else s.step13

/-- The root PLL has locked: steps 8 to 13, which take `bootUs`. -/
def State.pllUp (s : State) (bootUs failed : Nat) : State :=
  let s := (s.wr CLK_STAT_PLL_LOCK 1).step8
  match s.steps9 with
  | (none, s) => s
  | (some l, s) => (s.waitUntil (s.mono + bootUs * 1000 * nsU)).steps12 l failed

/-- Limited service: steps 8 to 11 on the IRC, with PD1 and PD7 powered (R50). -/
def State.limitedService (s : State) : State :=
  let s := s.setNmi SYS_NMI_CAUSE_CLKFAIL
  let s := (s.wr CLK_STAT_STATE 1).wr SYS_BOOT_STAT_NOREF 1
  let s : State := { s with boot := { s.boot with tripped := true, tripAt := s.mono, ircFlag := true, trimFrozen := true, limitedFrom := s.mono } }
  match s.step8.steps9 with
  | (none, s) => { s with boot := { s.boot with limitedAt := s.mono } }
  | (some l, s) =>
    let s := (s.powerHost (l.get HST_CFG_PORT)).wr SYS_BOOT_STAT_PHASE 10
    { s with boot := { s.boot with limitedAt := s.mono } }

/-- MONITOR_WINDOW_END: the first window of step 6, which decides whether the reference is used, and every later one (R50, R67). A failing
first window is no trip in CLK_MON_TRIPS (DESIGN CHOICE, log 42). -/
def execMonitorWindowEnd (count : Nat) (s : State) : Host.Outcome State Fault Refusal :=
  done s (
    if s.boot.stage = .window then
      let s := (s.dark (10000 * nsU)).wr CLK_MON_CNT_COUNT count
      let s : State := { s with boot := { s.boot with windowAt := s.mono, windowIdx := 1 } }
      if 3 ≤ ((count : Int) - 500).natAbs ∨ s.boot.tripped then (s.lgCause 0x0100 count 500 0 0).limitedService
      else { s with boot := { s.boot with stage := .pll, windows := 1 } }
    else if s.armed && s.is CLK_STAT_IRC_STABLE then s.windowEnd count
    else s)

/-- PLL_LOCK: the root PLL locks in `us`, on its retry where that is above 200, and the boot ROM runs; not to a reference that has
tripped the monitor. -/
def execPllLock (us bootUs failed : Nat) (s : State) : Host.Outcome State Fault Refusal :=
  done s (if s.boot.stage ≠ .pll ∨ 400 < us ∨ s.boot.tripped then s
    else
      let s := s.dark (us * 1000 * nsU)
      (if 200 < us then s.lgCause 0x0101 1 0 0 0 else s).pllUp bootUs failed)

/-- PLL_LOCK_TIMEOUT: no lock after the retry. -/
def execPllLockTimeout (s : State) : Host.Outcome State Fault Refusal :=
  done s (if s.boot.stage ≠ .pll then s
    else (((s.dark (400000 * nsU)).lgCause 0x0101 1 0 0 0).lgCause 0x0101 2 0 0 0).limitedService)

/-- LIMITED_SERVICE_RETRY: each second; with a good window and the PLL locked, start-up goes on from step 12. -/
def execLimitedServiceRetry (ok : Bool) (failed : Nat) (s : State) : Host.Outcome State Fault Refusal :=
  done s (if !s.up || !s.is SYS_BOOT_STAT_NOREF then s
    else
      let s := s.waitUntil (s.boot.limitedAt + secU)
      let s : State := { s with boot := { s.boot with limitedAt := s.mono } }
      if !ok then s
      else
        let secs := (s.mono - s.boot.limitedFrom) / secU
        let s := ((s.wr SYS_BOOT_STAT_NOREF 0).wr CLK_STAT_PLL_LOCK 1).ev 0x0103 secs 0 0 0
        let s : State := { s with boot := { s.boot with tripped := false, windows := 1, windowAt := s.mono } }
        let s := s.clkState 0
        if s.rd SYS_BOOT_STAT_PHASE = 10 then s.steps12 s.loaded failed else s)

/-- SYS_START_GO: in held mode a write of 1 releases the strobe of step 13 (R52). -/
def execSysStartGo (m : Master) (s : State) : Host.Outcome State Fault Refusal :=
  done s (s.accessW m SYS_START_GO.addr 1 (fun s => if s.rd SYS_BOOT_STAT_PHASE = 7 then s.step13 else s))

/-! ### Service (R64) -/

/-- The instant at which LOCKWAIT has passed, if it is set. -/
def State.lockwaitEnd (s : State) : Option Nat :=
  let w := s.rd SYS_START_CFG_LOCKWAIT
  if w = 0 then none else some (s.boot.step13At + w * secU)

/-- LOCKWAIT_EXPIRY. -/
def execLockwaitExpiry (s : State) : Host.Outcome State Fault Refusal :=
  done s (if !s.up || s.rd SYS_BOOT_STAT_PHASE != 8 then s
    else
      match s.lockwaitEnd with
      | some x => s.waitUntil x
      | none => s)

/-- An activation by command holds service back (R381). -/
def State.activating (s : State) : Bool := s.fwu.actAt.isSome

/-- Service may start: no lock is asked for, Tense is locked, or the wait is over; after an activation at once (R64, R382). -/
def State.mayServe (s : State) : Bool :=
  !s.is SYS_START_CFG_WAITLOCK || s.rd TNS_STAT_STATE == 2 || s.activating
    || (match s.lockwaitEnd with
        | some x => decide (x ≤ s.mono)
        | none => false)

/-- What is recorded as service starts: LOCK_TIME with event 0xD080, or after an activation the pause with event 0xC404. -/
def State.serviceEvent (s : State) : State :=
  match s.fwu.actAt with
  | some x =>
    let ms := (s.mono - x) / (1000000 * nsU)
    let s : State := { s with fwu := { s.fwu with actAt := none, actBy := none } }
    (s.wr FWU_PAUSE_MS ms).ev 0xC404 s.fwu.bank ms 0 0
  | none =>
    let s := s.wr SYS_LOCK_TIME_MS ((s.mono - s.boot.step13At) / (1000000 * nsU))
    s.ev 0xD080 (s.rd CCD_NEXT_SERIAL_SERIAL) (s.rd SYS_SVC_TIME_US) (s.rd SYS_LOCK_TIME_MS) 0

/-- SERVICE_START: at the first slot time at which service may start, the values that work in slots apply and slots open from that
time on. -/
def execServiceStart (s : State) : Host.Outcome State Fault Refusal :=
  done s (if !s.up || s.rd SYS_BOOT_STAT_PHASE != 8 || !s.mayServe then s
    else
      let slots := s.on 4
      let act := s.activating
      let s := if slots then s.ccdStart else s
      let t := if slots then s.nextSlotNs else s.nowNs
      let s := (s.advanceTo (t * nsU)).wr SYS_BOOT_STAT_PHASE 9
      let s := s.serviceEvent
      let s := s.slotApply t
      let s : State := { s with ccd := { s.ccd with started := slots } }
      let s := if slots && s.on 3 then s.homeStart s.ccd.grid else s
      let s := if act then s else s.syncArm
      let s : State := if s.is SYS_BOOT_STAT_TRIAL then { s with fwu := { s.fwu with trialAt := some s.mono } } else s
      s.switchBusy.health)

/-! ### Fail-over without an IRC, watchdog, hibernate and wake -/

/-- FAILOVER_IRC_TIMEOUT: 7 periods of the 32 kHz clock after the trip (R74). -/
def execFailoverIrcTimeout (s : State) : Host.Outcome State Fault Refusal :=
  done s (if s.boot.stage ≠ .pending then s
    else
      let s := s.dark (s.boot.tripAt + 7 * secU / 32768 - s.mono)
      let s := ((s.lgCause 0x0106 1 0 0 0).pd1Reset false true).setCause SYS_RST_CAUSE_WDOG
      { s with boot := { s.boot with stage := .ircHold, ircAttempt := 1, wakeCause := 0, releaseAt := s.mono } })

/-- PD1 is powered and its clock has started: the heartbeat of R83 is due. -/
def State.pd1Clocked (s : State) : Bool :=
  match s.boot.stage with
  | .strap => true
  | .refDelay => true
  | .window => true
  | .pll => true
  | .run => true
  | .hung => true
  | _ => false

/-- WATCHDOG_TIMEOUT: 525 periods of the 32 kHz clock without a heartbeat (R83). -/
def execWatchdogTimeout (s : State) : Host.Outcome State Fault Refusal :=
  done s (if !s.pd1Clocked then s
    else ((s.dark (525 * secU / 32768)).lgCause 0x0107 0 0 0 0).restart SYS_RST_CAUSE_WDOG 0 true)

/-- PWR_WAKE_CFG as one word. -/
def State.wakeCfg (s : State) : Nat := s.rd PWR_WAKE_CFG_RTC + 2 * s.rd PWR_WAKE_CFG_FASTWAKE

/-- HIBERNATE: the metering registers are copied, and PD7 to PD1 are switched off (R81). -/
def execHibernate (m : Master) (v : Nat) (s : State) : Host.Outcome State Fault Refusal :=
  done s (s.accessW m PWR_HIB_CMD.addr v (fun s =>
    if v % 2 ^ 32 ≠ 0xA501 then s
    else
      let s := if s.on 5 then s.retCopy else s
      let s := s.ev 0x0030 s.wakeCfg (s.rd PWR_WAKE_SEC_SEC) 0 0
      let s := s.each ([7, 6, 5, 4, 3, 2].filter (fun k => s.on k)) (fun s k => s.domainOff k)
      let s := (s.pd1Reset false false).wr PWR_STAT_ON 1
      { s with boot := { s.boot with stage := .hibernate, hibAt := s.mono, wakeCause := 0 } }))

/-- The alarm wakes the part. -/
def State.alarmWake (s : State) : State :=
  let s := s.restart SYS_RST_CAUSE_RTCWAKE 3 false
  { s with boot := { s.boot with alarmHeld := false } }

/-- RTC_ALARM_WAKE: the real-time clock reaches PWR_WAKE_SEC; without main supplies the alarm is held (R82). -/
def execRtcAlarmWake (supplies : Bool) (s : State) : Host.Outcome State Fault Refusal :=
  done s (if s.boot.stage ≠ .hibernate ∨ !s.is PWR_WAKE_CFG_RTC ∨ s.boot.alarmHeld then s
    else
      let now := s.rtc / secU
      let d := (s.rd PWR_WAKE_SEC_SEC + 2 ^ 32 - now % 2 ^ 32) % 2 ^ 32
      let s := if d = 0 then s else s.dark ((now + d) * secU - s.rtc)
      if supplies then s.alarmWake else { s with boot := { s.boot with alarmHeld := true } })

/-- MAIN_SUPPLY_RETURN (R82). -/
def execMainSupplyReturn (s : State) : Host.Outcome State Fault Refusal :=
  done s (if s.boot.stage = .hibernate ∧ s.boot.alarmHeld then s.alarmWake else s)

/-- XTAL32_VALID: the real-time clock runs on the crystal (R49). -/
def execXtal32Valid (s : State) : Host.Outcome State Fault Refusal :=
  done s { s with boot := { s.boot with xtalOk := true } }

end Sys2Proof.Machine
end

