-- ==== Sys2Proof/Machine/Update.lean ====
section
/-! DEFINITION. Staging, activation by command, trial boots and the rewriting of the boot header (R379–R384). What is open of them:
DESIGN CHOICE, log 48. -/

namespace Sys2Proof.Machine

/-! ### Staging (R379) -/

/-- The number under which FWU_STG_STAT.OWNER shows a master. -/
def ownerOf (m : Master) : Nat := mNum m + 1

/-- A staging command is turned away: its result is in FWU_STG_STAT, and a write that fails is recorded. -/
def State.stgRefuse (s : State) (m : Master) (cmd err : Nat) : State :=
  let s := s.wr FWU_STG_STAT_ERR err
  let s := if err = 9 then s else s.wr FWU_STG_STAT_DONE 1
  if cmd = 2 then s.ev 0xC40A (s.rd FWU_STG_OFS_OFS) err (mNum m) 0 else s

/-- A staging command begins; its effect answers the ERR that its end will report. -/
def State.stgCmd (s : State) (m : Master) (cmd : Nat) (run : State → Nat × State) : State :=
  s.accessW m FWU_STG_CMD_CMD.addr cmd (fun s =>
    let o := s.rd FWU_STG_STAT_OWNER
    if s.is FWU_STG_STAT_BUSY then s.stgRefuse m cmd 9
    else if o ≠ ownerOf m ∧ !(o == 0 && cmd == 1) then s.stgRefuse m cmd 2
    else
      let ofs := s.rd FWU_STG_OFS_OFS
      let (err, s) := run s
      let s := ((s.wr FWU_STG_STAT_BUSY 1).wr FWU_STG_STAT_DONE 0).wr FWU_STG_STAT_ERR 0
      { s with fwu := { s.fwu with stgCmd := cmd, stgErr := err, stgOfs := ofs } })

/-- The ERR of a verification that fails at a block of event 0xC101. -/
def stgErrOf (r : Option Nat) : Nat :=
  match r with
  | none => 0
  | some 0xFFFF => 5
  | some 0xFFFE => 6
  | some _ => 4

/-- STAGING_ERASE: the area is erased, and the master owns staging. -/
def execStagingErase (m : Master) (s : State) : Host.Outcome State Fault Refusal :=
  done s (s.stgCmd m 1 (fun s =>
    (0, ((s.norErase stagingBase 0x800000).wr FWU_STG_STAT_OWNER (ownerOf m)).wr FWU_STG_STAT_VERIFIED 0)))

/-- The 256 bytes of the page buffer. -/
def State.stgPage (s : State) : List Byte := (List.range 64).flatMap (fun i => leBytes 4 (s.rd (FWU_STG_BUF_DATA i)))

/-- STAGING_WRITE: 256 bytes are programmed, which clears bits only, and read back. -/
def execStagingWrite (m : Master) (s : State) : Host.Outcome State Fault Refusal :=
  done s (s.stgCmd m 2 (fun s =>
    let ofs := s.rd FWU_STG_OFS_OFS
    if ofs % 256 ≠ 0 then (1, s)
    else
      let page := s.stgPage
      let old := s.norRead (stagingBase + ofs) 256
      let s := (s.norWrite (stagingBase + ofs) (List.zipWith (fun a b => a &&& b) old page)).wr FWU_STG_STAT_VERIFIED 0
      (if s.norRead (stagingBase + ofs) 256 = page then 0 else 3, s)))

/-- STAGING_VERIFY: the staging area is verified as a bank is (R378). -/
def execStagingVerify (m : Master) (s : State) : Host.Outcome State Fault Refusal :=
  done s (s.stgCmd m 3 (fun s =>
    let (r, s) := s.verifyBank stagingBase
    (stgErrOf r, s.wr FWU_STG_STAT_VERIFIED (b2n r.isNone))))

/-- The bytes 12–15 of the header in use, which say how the NOR is read and the host port. -/
def State.headerMode (s : State) : List Byte :=
  match s.boot.headerCopy with
  | some k => s.norRead (headerBase k + 12) 4
  | none => zeros 4

/-- The header as the copy in use holds it. -/
def State.headerUsed (s : State) : Header :=
  match s.boot.headerCopy.bind (fun k => s.header k) with
  | some h => h
  | none => ⟨s.boot.headerSeq, 0, 0, 0, 0, 0, 0⟩

/-- The copy that R54 did not choose. -/
def State.headerOther (s : State) : Nat :=
  match s.boot.headerCopy with
  | some k => 1 - k
  | none => 0

/-- The header is written into the copy not in use, with SEQ one later than that in use. -/
def State.headerWrite (s : State) (h : Header) : State :=
  let k := s.headerOther
  let h := { h with seq := (s.boot.headerSeq + 1) % 2 ^ 32 }
  (s.norErase (headerBase k) 0x10000).norWrite (headerBase k) (headerBytes h s.headerMode)

/-- FLAGS of a bank replaced. -/
def Header.withFlags (h : Header) (b v : Nat) : Header := if b = 0 then { h with flagsA := v } else { h with flagsB := v }

/-- The bank not running. -/
def State.spare (s : State) : Nat := 1 - s.fwu.bank

/-- STAGING_COMMIT: the area is copied into the spare bank and verified there, and the trial header written. -/
def execStagingCommit (m : Master) (s : State) : Host.Outcome State Fault Refusal :=
  done s (s.stgCmd m 4 (fun s =>
    if !s.is FWU_STG_STAT_VERIFIED then (7, s)
    else if s.is FWU_STAT_TRIAL then (8, s)
    else
      let b := s.spare
      let img := s.norRead stagingBase 0x800000
      let s := (s.norErase (bankBase b) 0x800000).norWrite (bankBase b) img
      match s.verifyBank (bankBase b) with
      | (some n, s) => (stgErrOf (some n), s)
      | (none, s) => (0, s.headerWrite (({ s.headerUsed with active := b, trial := 1 } : Header).withFlags b 1))))

/-- STAGING_ABORT: ownership is given up. -/
def execStagingAbort (m : Master) (s : State) : Host.Outcome State Fault Refusal :=
  done s (s.stgCmd m 5 (fun s => (0, s)))

/-- What the end of a staging command records and sets. -/
def State.stgEnd (s : State) : State :=
  let err := s.fwu.stgErr
  let who := s.rd FWU_STG_STAT_OWNER - 1
  match s.fwu.stgCmd with
  | 1 => s.ev 0xC400 who 0 0 0
  | 2 => if err = 0 then s else s.ev 0xC40A s.fwu.stgOfs err who 0
  | 3 =>
    let m := s.manifest stagingBase
    s.ev 0xC401 (fwVersion m) err (fwKeySlot m) (fwRollback m)
  | 4 =>
    if err ≠ 0 then s
    else (s.fwuShow.wr FWU_STAT_STAGED 1).ev 0xC402 s.spare (fwVersion (s.manifest stagingBase)) ((s.boot.headerSeq + 1) % 2 ^ 32) 0
  | _ => s.wr FWU_STG_STAT_OWNER 0

/-- STAGING_COMMAND_DONE. -/
def execStagingCommandDone (s : State) : Host.Outcome State Fault Refusal :=
  done s (if !s.up || !s.is FWU_STG_STAT_BUSY then s
    else
      let s := s.stgEnd
      let s := ((s.wr FWU_STG_STAT_BUSY 0).wr FWU_STG_STAT_DONE 1).wr FWU_STG_STAT_ERR s.fwu.stgErr
      { s with fwu := { s.fwu with stgCmd := 0, stgErr := 0 } })

/-! ### Activation by command (R380–R382) -/

/-- ACTIVATE: PHASE falls to 0x2 and the health with it; without service to hand over, as in recovery, the device is reset. -/
def execActivate (m : Master) (v : Nat) (s : State) : Host.Outcome State Fault Refusal :=
  done s (s.accessW m FWU_ACT_CODE.addr v (fun s =>
    let p := s.rd SYS_BOOT_STAT_PHASE
    if v % 2 ^ 32 ≠ 0x4143 ∨ !s.is FWU_STAT_STAGED ∨ s.activating then s
    else if p ≠ 9 ∧ p ≠ 8 then s.firmwareReset
    else
      let s : State := { s with fwu := { s.fwu with actAt := some s.mono, actBy := some m } }
      (s.wr SYS_BOOT_STAT_PHASE 2).health))

/-- Step 2 of R381: every open slot is aborted. -/
def State.activateAbort (s : State) (m : Master) : State :=
  let order := if s.on 4 then s.openOrder else []
  let (r, s) := s.draw
  let s := s.each order (fun s e =>
    match s.slot e.1 with
    | some sl => s.abortSlot e.1 sl r
    | none => s)
  let first := match order with
    | e :: _ => e.2.serial
    | [] => 0
  (s.arcFlush 255).ev 0xC403 s.spare order.length first (mNum m)

/-- PD2 and PD4 are held in reset, and the management core is back in its boot ROM. -/
def State.activateHold (s : State) : State :=
  let s := s.beforeOff 2
  let s := (s.clearDom false 2).clearDom false 4
  let s := s.almPins.setCause SYS_RST_CAUSE_FWRST
  (({ s with fwu := { s.fwu with actBy := none, trialAt := none } } : State).wr FWU_STAT_STAGED 0).tenseResume

/-- A bank starts and the settings are loaded; a trial whose settings are unreadable is followed by the previous bank (R384). -/
def State.activateBoot (s : State) (fuel : Nat) : Option Load × State :=
  match fuel with
  | 0 => (none, s)
  | fuel + 1 =>
    match s.bootSelect with
    | (some port, s) => (none, (s.each ([6, 5, 4, 3, 2].filter (fun k => s.on k)) (fun s k => s.domainOff k)).recovery port)
    | (none, s) =>
      match s.settingsLoad with
      | (some l, s) => (some l, s)
      | (none, s) => (s.setCause SYS_RST_CAUSE_FWRST).activateBoot fuel

/-- Step 13 for PD2 and PD4 and for the values of every block: LOCK bits are cleared, values written and applied, and the LOCK bits
of the image set. -/
def State.activateApply (s : State) (l : Load) : State :=
  let s := s.each (List.range 20) (fun s b => s.wr (BLK_LOCK_LOCK b) 0)
  let s := ((s.writeLoaded l).strobe 0xFFFFF).nowApply (fun _ => true)
  let s := s.each ([2, 4].filter (fun k => s.on k)) (fun s k => s.startDom k)
  let fell := allPoints.filter (fun i => s.is (ptFall i))
  let s := if s.on 5 then s.each allPoints (fun s i => (s.sealCheck s.boot.sealedOk i).logDrain) else s
  let s := s.each (s.livePoints.filter (fun i => s.is (ptFall i) && !fell.contains i)) (fun s i => s.mGapOpen i 6 s.nowNs)
  let s := s.each s.boot.locks (fun s b => s.wr (BLK_LOCK_LOCK b) 1)
  (s.wr SYS_BOOT_STAT_PHASE 8).switchBusy.health.almPins

/-- ACTIVATION_RESTART: with the lower claim in force the restart runs; `ms` pass until the values are applied. Service resumes with
the next slot time (SERVICE_START). -/
def execActivationRestart (ms : Nat) (s : State) : Host.Outcome State Fault Refusal :=
  done s (match s.fwu.actBy with
    | none => s
    | some m =>
      if !s.up || s.is RED_STAT_ACKWAIT then s
      else
        let s := s.activateAbort m
        let s := if s.on 5 then s.retCopy else s
        let s := s.activateHold
        match s.activateBoot 2 with
        | (none, s) => s
        | (some l, s) => (s.waitUntil (s.mono + ms * 1000000 * nsU)).activateApply l)

/-! ### Trials (R383, R384) -/

/-- The firmware rewrites the header (event 0xC408); the copy written is the one in use from then on. -/
def State.headerRewrite (s : State) (h : Header) : State :=
  let k := s.headerOther
  let q := (s.boot.headerSeq + 1) % 2 ^ 32
  let s := s.headerWrite h
  ({ s with boot := { s.boot with headerSeq := q, headerCopy := some k } } : State).ev 0xC408 k q h.active h.trial

/-- A running trial is confirmed. -/
def State.trialConfirm (s : State) : State :=
  let b := s.fwu.bank
  let m := s.manifest (bankBase b)
  let s : State := { s with key := { s.key with rollback := max s.key.rollback (fwRollback m) } }
  let s := s.headerRewrite { s.headerUsed with active := b, trial := 0 }
  let s : State := { s with fwu := { s.fwu with trialCnt := 0, trialAt := none } }
  ((s.wr SYS_BOOT_STAT_TRIAL 0).wr FWU_STAT_TRIAL 0).fwuShow.ev 0xC406 b (fwVersion m) s.key.rollback 0

/-- TRIAL_CONFIRM: a write of 1 to FWU_CONFIRM. -/
def execTrialConfirm (m : Master) (s : State) : Host.Outcome State Fault Refusal :=
  done s (s.accessW m FWU_CONFIRM_GO.addr 1 (fun s => if s.is FWU_STAT_TRIAL then s.trialConfirm else s))

/-- TRIAL_AUTOCONFIRM: TRIAL_S seconds of service have passed. -/
def execTrialAutoconfirm (s : State) : Host.Outcome State Fault Refusal :=
  done s (match s.fwu.trialAt with
    | none => s
    | some x =>
      if !s.up || !s.inService || !s.is FWU_STAT_TRIAL || !s.is FWU_CFG_AUTOCONF then s
      else (s.waitUntil (x + s.eff FWU_CFG_TRIAL_S * secU)).trialConfirm)

/-- HEADER_REWRITE: back on the previous bank after an unreadable or unconfirmed trial, the firmware in service names itself in the
header and marks the trial bank; `ok` is whether the NOR takes the write. -/
def execHeaderRewrite (ok : Bool) (s : State) : Host.Outcome State Fault Refusal :=
  done s (
    let h := s.headerUsed
    if !s.up || !ok || !s.inService || !s.is SYS_BOOT_STAT_FALLBACK || s.is FWU_STAT_TRIAL || h.trial != 1
        || (s.fwu.reject == 0 && s.fwu.trialCnt == 0) then s
    else
      let t := s.spare
      let f := if s.fwu.reject = t + 1 then 3 else setBits (h.flags t) 0 1 0
      let s := s.headerRewrite (({ h with active := s.fwu.bank, trial := 0 } : Header).withFlags t f)
      ({ s with fwu := { s.fwu with reject := 0, trialCnt := 0 } } : State).fwuShow)

end Sys2Proof.Machine
end

