-- ==== Sys2Proof/Machine/Integrity.lean ====
section
/-! DEFINITION. Memory protection: what a read or the scrubber does with a correctable and an uncorrectable word of each memory
(R206, R222, R363; DESIGN CHOICE, log 49). -/

namespace Sys2Proof.Machine

/-- Memory `m` is powered (R363). -/
def State.memOn (s : State) (m : Nat) : Bool :=
  s.up && (if m < 4 then s.on 4 else if m < 6 then s.on 2 else if m = 6 ∨ m = 9 then s.on 6 else decide (m < 11))

/-- The memory holds byte `a` (R363). -/
def memSize (m : Nat) : Nat :=
  match m with
  | 0 => 0x2800000
  | 1 => 0x104000
  | 2 => 0xC00000
  | 3 => 0x50000
  | 4 => 0x50000
  | 5 => 0x108000
  | 6 => 0x80000
  | 7 => 0x240000
  | 8 => 0x400000
  | 9 => 0x200000000
  | 10 => 0x40000
  | _ => 0

/-- The columns whose entries lie in the 64-bit word at byte `o` of a slot laid out as in R186, given the columns that placed the
phasor and analogue entries. -/
def wordCols (o : Nat) (ph an : Nat → Option Nat) : List Nat :=
  let o := o / 8 * 8
  if o < 0x40000 then (ph (o / 8)).toList
  else if o < 0x48000 then
    let i := (o - 0x40000) / 4
    (an i).toList ++ (an (i + 1)).toList
  else if o < 0x4C000 then
    let i := (o - 0x48000) % 0x2000 / 2
    [i, i + 1, i + 2, i + 3]
  else
    let i := (o - 0x4C000) / 4
    [i, i + 1]

/-- Event 0x5050 with its count. -/
def State.slotUe (s : State) (pos o col serial : Nat) : State := (s.cnt CCD_SECDED_COUNT).ev 0x5050 pos o col serial

/-- Columns of a slot hold an uncorrectable error (R206). -/
def Slot.ueCols (sl : Slot) (cs : List Nat) : Slot :=
  { sl with cols := sl.cols.map (fun p => if cs.contains p.1 then (p.1, { p.2 with ue := true }) else p) }

/-- An error in the slot store (R206). -/
def State.storeUe (s : State) (addr : Nat) : State :=
  let pos := addr / 0x50000
  let o := addr % 0x50000
  match s.slot pos with
  | none => s.slotUe pos o 0xFFFF 0
  | some sl =>
    let cs := wordCols o (fun i => (assoc sl.ph i).map (fun e => e.col)) (fun i => (assoc sl.an i).map (fun e => e.col))
    (s.setSlot pos (sl.ueCols cs)).slotUe pos o (cs.headD 0xFFFF) sl.serial

/-- An error in the directory: both columns of the word, or the slot header (R206). -/
def State.dirUe (s : State) (addr : Nat) : State :=
  let pos := addr / 8320
  let o := addr % 8320
  match s.slot pos with
  | none => s.slotUe pos o 0xFFFF 0
  | some sl =>
    if o < 128 then
      let s := s.slotUe pos o 0xFFFF sl.serial
      if sl.isOpen then
        let s := s.abortSlot pos sl 2
        (({ s with ccd := { s.ccd with dead := (⟨sl.t, sl.t, sl.epoch⟩ :: s.ccd.dead).take 16 } } : State).heldOpen).arcFlush 255
      else s.setSlot pos { sl with hdrBad := true }
    else
      let c := (o - 128) / 4 * 2
      (s.setSlot pos (sl.ueCols [c, c + 1])).slotUe pos o c sl.serial

/-- S of a slot is unreadable: the slot is evaluated again from its own predecessor, and its successor is marked (R222). -/
def State.lostS (s : State) (c : Ckpt) (o : Nat) : State :=
  let s := (s.cnt CCD_CKPT_ERR_COUNT).ev 0x510B c.serial 0 o 0
  let s : State := { s with ccd := { s.ccd with ckS := s.ccd.ckS.filter (fun x => x.serial != c.serial) } }
  let s := match s.bySerial c.serial with
    | some (pos, x) => if x.st = 3 ∧ x.view.isSome then s.setSlot pos { x with chained := true } else s
    | none => s
  match s.bySerial ((c.serial + 1) % 2 ^ 32) with
  | some (pos, x) => if x.st = 3 then s.dirtyMark pos 0xFFFF 5 0 else s
  | none => s

/-- An item goes in front of those of its type that have not begun. -/
def State.queueFront (s : State) (it : Item) : State :=
  let l := s.sch.items
  let before := l.takeWhile (fun x => x.typ != it.typ || x.began.isSome)
  ({ s with sch := { s.sch with items := before ++ [it.firstStage] ++ l.drop before.length, gens := assocSet s.sch.gens it.handle it.gen } } : State).schSync

/-- I of a slot is unreadable: the slot is evaluated again from I of its predecessor, without publication, before the chain
continues; with no indicative checkpoint left the chain restarts from the reset state (R222). -/
def State.lostI (s : State) (c : Ckpt) (o : Nat) : State :=
  let s := (s.cnt CCD_CKPT_ERR_COUNT).ev 0x510B c.serial 1 o 0
  let s : State := { s with ccd := { s.ccd with ckI := s.ccd.ckI.filter (fun x => x.serial != c.serial) } }
  if s.ccd.ckI.isEmpty then
    let waits (it : Item) : Bool := it.typ == 2 && it.began.isNone && s.ccd.redo.contains it.serial
    let ks := s.sch.items.filter waits
    let s := s.each ks (fun s it => s.dropItem it.handle)
    let s : State := { s with ccd := { s.ccd with redo := s.ccd.redo.filter (fun k => !ks.any (fun it => it.serial == k)), indLost := true } }
    s.each ks (fun s it => s.setCredit (it.serial % 128) false)
  else if !s.ccd.ckI.any (fun x => laterSerial c.serial x.serial) then s
  else
    match s.bySerial c.serial with
    | none => s
    | some (pos, _) =>
      let s : State := { s with ccd := { s.ccd with redo := s.ccd.redo ++ [c.serial] } }
      (s.setCredit pos true).queueFront (s.newItem 2 2 c.serial none [1])

/-- An error in the checkpoint SRAM, whose places of 1,339,456 bytes hold first the indicative checkpoints (R219, R221). -/
def State.ckptUe (s : State) (addr : Nat) : State :=
  let k := addr / 1339456
  let o := addr % 1339456
  let n := s.ccd.ckI.length
  if k < n then
    (match (s.ccd.ckI.drop k).head? with
    | some c => s.lostI c o
    | none => s)
  else
    match ((s.ccd.ckS.filter (fun c => !c.dram)).drop (k - n)).head? with
    | some c => s.lostS c o
    | none => s

/-- An error in the predictor base, laid out as one slot: the column's entry is emptied (R211, R363). -/
def State.baseUe (s : State) (addr : Nat) : State :=
  let by_ (has : BaseCol → Bool) : Option Nat := (s.ccd.base.find? (fun p => has p.2)).map (fun p => p.1)
  let cs := wordCols addr (fun i => by_ (fun b => b.ph.any (fun e => e.1 == i))) (fun i => by_ (fun b => b.an.any (fun e => e.1 == i)))
  { s with ccd := { s.ccd with base := s.ccd.base.filter (fun p => !cs.contains p.1) } }

/-- An error in the conversion store: the context whose place it is loses its descriptor's use, and its configuration is
requested (R138, R363). -/
def State.convUe (s : State) (addr : Nat) : State :=
  let k := addr / 8
  let mine (c : Nat) : Bool := s.is (CTX_EN c) &&
    (if k < 32768 then decide (s.rd (CTX_PH_BASE c) ≤ k) && decide (k < s.rd (CTX_PH_BASE c) + s.rd (CTX_PH_CNT c))
     else decide (s.rd (CTX_AN_BASE c) ≤ k - 32768) && decide (k - 32768 < s.rd (CTX_AN_BASE c) + s.rd (CTX_AN_CNT c)))
  s.each ((List.range 4096).filter mine) (fun s c => (s.wr (CTX_DVALID c) 0).requestCfg c none)

/-- The index of the frame that holds byte `o` of a FIFO's contents. -/
def frameAt (l : List RxEntry) (o : Nat) : Option Nat :=
  match l with
  | [] => none
  | e :: rest => if o < e.len then some 0 else (frameAt rest (o - e.len)).map (fun i => i + 1)

/-- An error in an ingress FIFO: the frame is dropped whole (R363). -/
def State.fifoUe (s : State) (addr : Nat) : State :=
  let n := if addr < 0x100000 then addr / 0x40000 else 4 + (addr - 0x100000) / 0x4000
  let o := if addr < 0x100000 then addr % 0x40000 else (addr - 0x100000) % 0x4000
  let p := s.port n
  match frameAt p.fifo o with
  | none => s
  | some i => ((s.setPort n { p with fifo := p.fifo.take i ++ p.fifo.drop (i + 1) }).cnt (NET_P_OVF_COUNT n)).fifoLevel n

/-- An error in the management core's memory: the cause goes to the last-gasp log, and the firmware is reset (R363). -/
def State.coreUe (s : State) (addr : Nat) : State := (s.lgLive 0xB041 8 addr 0 0).firmwareReset

/-- An error in the DRAM: a reassembly is abandoned, a checkpoint is lost; words of the partitions read as found (R363). -/
def State.dramUe (s : State) (addr : Nat) : State :=
  if addr < 2 ^ 28 then
    let c := addr / 65536
    (match assoc s.ing.reasm c with
    | some r => s.reasmDrop c r.bytes.length r.next
    | none => s)
  else if addr < 2 ^ 29 then
    let r := (addr - 2 ^ 28) / 2 ^ 21
    match s.ccd.ckS.find? (fun c => c.dram && c.serial % 128 == r) with
    | some c => s.lostS c (addr % 2 ^ 21)
    | none => s
  else s

/-- An error in the retention SRAM: the CRC of the copy it lies in fails; the copies lie in the last 96 KiB (R312, R363). -/
def State.retUe (s : State) (addr : Nat) : State :=
  if addr < 0x28000 then s
  else
    let k := (addr - 0x28000) / 0xC000
    match nth s.qty.copies k none with
    | none => s
    | some c => ({ s with qty := { s.qty with copies := setNth s.qty.copies k (some { c with ok := false }) } } : State).wr
        (if k = 0 then QTY_RET_STAT_A_OK else QTY_RET_STAT_B_OK) 0

/-- An uncorrectable error is counted, shown and recorded; memories 0, 2 and 9 set UNCORR (R363, R40, R351). -/
def State.ueNote (s : State) (m addr : Nat) : State :=
  let s := s.cnt (RED_MEM_UE_COUNT m)
  let s := ((s.wr RED_UE_MEM_MEM m).wr RED_UE_ADDR_LO_ADDR (addr % 2 ^ 32)).wr RED_UE_ADDR_HI_ADDR (addr / 2 ^ 32)
  let s := s.ev 0xB041 m (addr % 2 ^ 32) (addr / 2 ^ 32) 0
  if m = 0 ∨ m = 2 ∨ m = 9 then
    let s := s.setNmi SYS_NMI_CAUSE_UNCORR
    ({ s with red := { s.red with ueAt := some s.mono } } : State).health
  else s

/-- What each memory does about an uncorrectable word. -/
def State.ueAct (s : State) (m addr : Nat) : State :=
  match m with
  | 0 => s.storeUe addr
  | 1 => s.dirUe addr
  | 2 => s.ckptUe addr
  | 3 => s.baseUe addr
  | 4 => s.convUe addr
  | 5 => s.fifoUe addr
  | 6 => s.stagingUe
  | 7 => if addr < 0x200000 then s.degradedEntry 0 addr else s.degradedEntry 1 (addr - 0x200000)
  | 8 => s.coreUe addr
  | 9 => s.dramUe addr
  | _ => s.retUe addr

/-- A word of memory `m` is read: `err` 0 good, 1 corrected, 2 uncorrectable (R363). -/
def State.scrub (s : State) (m addr err : Nat) : State :=
  if err = 0 then s
  else if err = 1 then (s.cnt (RED_MEM_CE_COUNT m)).ev 0xB040 m (addr % 2 ^ 32) (addr / 2 ^ 32) 0
  else (s.ueNote m addr).ueAct m addr

/-- MEMORY_SCRUB: the scrubber or the owner reads a word of a powered memory (R363). -/
def execMemoryScrub (m addr err : Nat) (s : State) : Host.Outcome State Fault Refusal :=
  done s (if s.memOn m && decide (addr < memSize m) then s.scrub m (addr / 8 * 8) err else s)

end Sys2Proof.Machine
end

