-- ==== Sys2Proof/Machine/View.lean ====
section
/-! DEFINITION. What a read of each register returns, the voter, the data port, and a read access as a whole
(R10, R22, R25, R27–R34, R37, R43–R47, R364, R399; DESIGN CHOICE, log 50). -/

namespace Sys2Proof.Machine

/-! ### Values shown -/

/-- Each master has its own copy of the register at `a` (R89, R302, R340, R370). -/
def perMaster (a : Nat) : Bool :=
  (0x20004 ≤ a && a < 0x20018) || a == 0xD0020 || a == 0xD0024 || (0xD0040 ≤ a && a < 0xD0060) || (0xF0040 ≤ a && a < 0xF0100)
    || a == 0xF0104 || (0xF0180 ≤ a && a < 0xF01F0) || (0xB0018 ≤ a && a < 0xB0024) || (0xB1000 ≤ a && a < 0xB7000)

/-- A field as a master addresses it. -/
def mField (m : Master) (f : Field) : Field := if perMaster f.addr then forM m f else f

/-- The words of the head of a time-stamp queue (R103). -/
def TsQueue.word (q : TsQueue) (i : Nat) : Nat :=
  match q.items with
  | [] => 0
  | e :: _ =>
    let sec := e.stamp / 16000000000
    match i with
    | 0 => e.qseq + e.ptpSeq * 65536
    | 1 => e.mtype % 16 + e.stamp % 16 * 16 + e.domain % 256 * 256 + b2n e.rx * 2 ^ 16 + b2n e.irc * 2 ^ 17 + e.qual % 4 * 2 ^ 18 + 2 ^ 31
    | 2 => sec / 2 ^ 32 % 65536 + e.epoch % 65536 * 65536
    | 3 => sec % 2 ^ 32
    | _ => e.stamp / 16 % 1000000000

/-- Seconds until an instant of `mono`, cut to 16 bits. -/
def State.secLeft (s : State) (t : Nat) : Nat := min ((t - s.mono) / secU) 0xFFFF

/-- A word of the last-gasp entry selected, and whether a word of it has three different copies (R347); `k` is an open value. -/
def State.lgShow (s : State) (i k : Nat) : Nat × Bool :=
  match assoc s.log.lg (s.rd LOG_LG_SEL_ENTRY) with
  | none => (0, false)
  | some l =>
    let t := nth l i (0, 0, 0)
    ((vote t.1 t.2.1 t.2.2).getD k % 2 ^ 32, (lgVoted l).isNone)

/-- A word of the oldest unread metering record (R308). -/
def State.recWord (s : State) (i : Nat) : Nat :=
  match s.qty.ring with
  | [] => 0
  | r :: _ => leAt r (4 * i) 4

/-- A pause of port `n` runs: since when, none while it waits for the frame in progress or once its time is over (R116). -/
def State.pausing (s : State) (n : Nat) : Option Nat :=
  match (s.port n).pause with
  | some (f, u) => if f ≤ s.mono ∧ s.mono < u then some f else none
  | none => none

/-- The time of the pause in progress that PAUSE_US does not hold yet, in microseconds. -/
def State.pauseUs (s : State) (n : Nat) : Nat :=
  match (s.port n).pause with
  | some (f, u) => (min u s.mono - f) / (1000 * nsU)
  | none => 0

/-- Port `n` may receive low-power idle: its mode and speed carry it and EEE_EN is 1 (R117). -/
def State.lpiMode (s : State) (n : Nat) : Bool :=
  let m := s.portMode n
  decide (n < 4) && s.is (NET_P_CFG_EEE_EN n) && s.is (NET_P_STAT_LINK n) && (m == 1 || m == 2 || m == 3 || (m == 5 && s.rd (NET_P_STAT_SPEED n) != 0))

/-- The registers of NET that follow the ports. Whether the partner sends low-power idle is open; FIFO_LVL shows the fill with no lateness
of its own (DESIGN CHOICE, log 22). -/
def State.netView (s : State) (k : Nat) (f : Field) : Option Nat :=
  let n := (f.addr - 0x31000) / 0x200
  if f = NET_P_STAT_PAUSED n then some (b2n (s.pausing n).isSome)
  else if f = NET_P_PAUSE_US_COUNT n then some (s.rd f + s.pauseUs n)
  else if f = NET_P_STAT_LPI_RX n then some (if s.lpiMode n then k % 2 else 0)
  else if f = NET_P_FIFO_LVL_BYTES n then some (s.port n).fill
  else none

/-- The registers of TNS that follow the clock and the queues. -/
def State.tnsView (s : State) (f : Field) : Option Nat :=
  if f = TNS_STAT_TQ then some s.tqCode
  else if f = TNS_STAT_UNLK then some s.unlkCode
  else if f = TNS_STAT_IRC then some (b2n s.boot.ircFlag)
  else if f = TNS_INC_LO_FRAC then some (s.tns.loHeld.getD (s.rd TNS_INC_LO_FRAC))
  else if 0x20200 ≤ f.addr && f.addr < 0x20280 then
    let q := s.tsQ ((f.addr - 0x20200) / 0x20)
    let o := (f.addr - 0x20200) % 0x20
    if o = 0 then some q.items.length else if o < 0x18 then some (q.word (o / 4 - 1)) else none
  else none

/-- The registers of CCD that show the directory and the spill. -/
def State.ccdView (s : State) (f : Field) : Option Nat :=
  let sl := s.slot (s.rd CCD_DIR_SEL_POS)
  if f = CCD_SPECSTAT_NOSPILL then some (b2n (!s.on 6))
  else if 0x71000 ≤ f.addr && f.addr < 0x71050 then some ((sl.map (fun x => x.word ((f.addr - 0x71000) / 4))).getD 0)
  else if 0x72000 ≤ f.addr && f.addr < 0x74000 then some ((sl.map (fun x => x.dirEntry ((f.addr - 0x72000) / 2 + f.lo / 16))).getD 0)
  else none

/-- The registers of SCH that count what is held. -/
def State.schView (s : State) (f : Field) : Option Nat :=
  let fwDly := s.sch.dly.filter (fun e => e.handle.isSome)
  let g := (f.addr - 0x90080) / 4
  if f = SCH_ITEMS_USED then some s.sch.items.length
  else if f = SCH_ITEMS_FW_USED then some (s.sch.items.filter (fun it => it.typ == 7)).length
  else if f = SCH_DLY_USED then some s.sch.dly.length
  else if f = SCH_DLY_FW_USED then some fwDly.length
  else if f = SCH_GRP_STAT_READY g then some (s.readyItems.filter (fun it => it.grp == g)).length
  else if f = SCH_GRP_STAT_RUN g then
    some (s.sch.lanes.filter (fun l => match l.bind s.jobItem with
      | some it => it.grp == g
      | none => false)).length
  else if f = SCH_GRP_STAT_SHED g then some (b2n (s.isShed g))
  else none

/-- The registers of LOG that follow the recorder. -/
def State.logView (s : State) (k : Nat) (f : Field) : Option Nat :=
  if f = LOG_STAT_MIR_BUSY then some (b2n (!s.log.mirq.isEmpty))
  else if f = LOG_STAT_QFULL then some (b2n (decide (240 ≤ s.log.inq.length)))
  else if f = LOG_OLDEST_SEQ then some ((s.log.ring.head?.map (fun r => r.seq)).getD 0)
  else if f = LOG_NEWEST_SEQ then some s.newestSeq
  else if f = LOG_COUNT_COUNT then some s.log.ring.length
  else if f = LOG_LOST_COUNT then some s.log.lostCnt
  else if f = LOG_LG_HEAD_HEAD then some s.log.lgHead
  else if f = LOG_LG_STAT_VOTEFAIL then some (b2n (s.lgShow 0 k).2)
  else if 0xD0520 ≤ f.addr && f.addr < 0xD0540 then some (s.lgShow ((f.addr - 0xD0520) / 4) k).1
  else none

/-- The other registers that are computed as they are read. -/
def State.miscView (s : State) (k : Nat) (f : Field) : Option Nat :=
  let b := blkOfAddr f.addr
  let slot := f.addr % 2 ^ 32 / 256
  if f = SYS_IRQ_SUM_SUM then some s.irqSum
  else if f = BLK_IRQ_STAT_STAT b then some (s.irqStat b)
  else if f = PHS_HS_ACT_ACT then some (maskOf 32 (fun h => s.is (HSM_EN h)))
  else if f = PUB_GATE_DRIVING then some (s.rd RED_STAT_DRIVING)
  else if f = QTY_RET_STAT_AGE then some (min ((s.mono - s.qty.copyAt) / (1000000 * nsU)) 0xFFFF)
  else if 0xB0100 ≤ f.addr && f.addr < 0xB0218 then some (s.recWord ((f.addr - 0xB0100) / 4))
  else if f = QTY_SEAL_SEALED then some (b2n s.qtySealed)
  else if f = RED_SETCRC_CRC then some s.setCrc
  else if f = KSL_OVL_LEFT slot then
    (match assoc s.key.ovl slot with
    | none => some 0
    | some none => some 0xFFFF
    | some (some t) => some (s.secLeft t))
  else if f = FWU_TRIAL_LEFT_SEC then
    (match s.fwu.trialAt with
    | none => some 0
    | some t => some (s.secLeft (t + s.eff FWU_CFG_TRIAL_S * secU)))
  else if f = TP_STAT_WORDS b 0 then
    (let n := (tblSize b (s.rd (TP_IDX_TABLE b 0))).2
     some (if n = 0 then k % 256 else n))
  else if f = TP_STAT_WORDS b 1 then
    (let n := (tblSize b (s.rd (TP_IDX_TABLE b 1))).2
     some (if n = 0 then k % 256 else n))
  else if f = HST_DP_ADDR_LO_ADDR then
    (let v := s.rd HST_DP_ADDR_LO_ADDR
     some (v - v % (if s.is HST_DP_CTRL_PAIR then 8 else 4)))
  else none

/-- The value of a field as a read returns it; `k` is an open value. -/
def State.show (s : State) (m : Master) (k : Nat) (f : Field) : Nat :=
  match f.acc with
  | .wo => 0
  | .rwa => s.rdBuf f
  | .rwv => s.rdBufV (safeValue f) f
  | _ =>
    let own := match blkOfAddr f.addr with
      | 3 => s.tnsView f
      | 4 => s.netView k f
      | 8 => s.ccdView f
      | 10 => s.schView f
      | 15 => s.logView k f
      | _ => none
    match own with
    | some v => v % 2 ^ f.width
    | none =>
      match s.miscView k f with
      | some v => v % 2 ^ f.width
      | none => s.rd (mField m f)

/-- A word as a read returns it. -/
def State.wordOf (s : State) (m : Master) (k a : Nat) : Nat := (fieldsAt a).foldl (fun v f => v + s.show m k f * 2 ^ f.lo) 0

/-- A word of a table entry as a read returns it: buffered values of RWA fields (R28). -/
def State.entryWord (s : State) (m : Master) (k b t e w : Nat) : Nat := (tblFields b t e w).foldl (fun v f => v + s.show m k f * 2 ^ f.lo) 0

/-! ### The voter (R37, R364) -/

/-- Three copies are compared: the majority is written over one that disagrees, and the safe value over three that all differ. -/
def State.voteThree (s : State) (addr safe : Nat) (c : Nat × Nat × Nat) (put : State → Nat → Nat → State) : State :=
  let (x, y, z) := c
  if x = y ∧ y = z then s
  else
    match vote x y z with
    | some v =>
      let bad := if x ≠ v then 0 else if y ≠ v then 1 else 2
      (((put s bad v).cnt RED_VOTE_CNT_COUNT).wr RED_VOTE_ADDR_ADDR addr).ev 0xB050 addr bad 0 0
    | none => (((put (put (put s 0 safe) 1 safe) 2 safe)).setNmi SYS_NMI_CAUSE_VOTE).ev 0xD030 addr x y z

/-- The copies of a voted field, in its active value and in its buffer. -/
def State.voteField (s : State) (f : Field) : State :=
  let s := s.voteThree f.addr (safeValue f) (s.rd (copyOf 0 f), s.rd (copyOf 1 f), s.rd (copyOf 2 f)) (fun s i v => s.wr (copyOf i f) v)
  s.voteThree f.addr (safeValue f) (s.rdBuf (copyOf 0 f), s.rdBuf (copyOf 1 f), s.rdBuf (copyOf 2 f)) (fun s i v => s.wrBuf (copyOf i f) v)

/-- The metrology seal, whose safe value is 1 (R314). -/
def State.voteSeal (s : State) : State :=
  let f := QTY_SEAL_SEALED
  s.voteThree f.addr 1 (s.rd (copyOf 0 f), s.rd (copyOf 1 f), s.rd (copyOf 2 f)) (fun s i v => s.wr (copyOf i f) v)

/-- The life-cycle field: reloaded from the fuses when all three copies differ (R365). -/
def State.voteLc (s : State) : State :=
  let x := nth s.key.lc 0 0
  let y := nth s.key.lc 1 0
  let z := nth s.key.lc 2 0
  if (vote x y z).isNone then { s with key := { s.key with lc := [s.key.fuseLc, s.key.fuseLc, s.key.fuseLc] } }
  else s.voteThree KEY_STAT_LC.addr 0 (x, y, z) (fun s i v => { s with key := { s.key with lc := setNth s.key.lc i v } })

/-- A read of a voted field compares its copies. -/
def State.voteRead (s : State) (a : Nat) : State :=
  let s := s.each ((fieldsAt a).filter (fun f => f.acc == .rwv)) (fun s f => s.voteField f)
  if a = QTY_SEAL_SEALED.addr then s.voteSeal else s

/-- VOTE_SWEEP: the background sweep compares every voted field. -/
def execVoteSweep (s : State) : Host.Outcome State Fault Refusal :=
  done s (if !s.up then s
    else
      let s := (s.voteField RED_CFG_PAIR_EN).voteField RED_CFG_ROLE
      s.voteSeal.voteLc.keyStat)

/-! ### The data port (R45–R47) -/

/-- The byte offset in HST_DP_ADDR as it reads. -/
def State.dpOfs (s : State) : Nat :=
  let v := s.rd HST_DP_ADDR_LO_ADDR + s.rd HST_DP_ADDR_HI_ADDR * 2 ^ 32
  v - v % (if s.is HST_DP_CTRL_PAIR then 8 else 4)

def State.dpSetOfs (s : State) (v : Nat) : State := (s.wr HST_DP_ADDR_LO_ADDR (v % 2 ^ 32)).wr HST_DP_ADDR_HI_ADDR (v / 2 ^ 32 % 2 ^ 32)

/-- BLEN in words. -/
def State.dpBlen (s : State) : Nat := if s.rd HST_DP_CTRL_BLEN = 0 then 256 else s.rd HST_DP_CTRL_BLEN

def State.setHeld (s : State) (h : Option (Bool × Nat)) : State := { s with fab := { s.fab with dpHeld := h } }

/-- Why a transfer of `n` bytes is refused: 1 RANGE, 2 DENIED. A partition with no DRAM behind it has no bytes. -/
def State.dpRefuse (s : State) (write : Bool) (n : Nat) : Option Nat :=
  let p := s.rd HST_DP_SEL_PART
  if write && decide (p < 2) then some 2
  else if 10 ≤ p ∨ s.partSize p < s.dpOfs + n then some 1
  else none

/-- The flags of a transfer accepted, or refused with event 0xD050. -/
def State.dpFlags (s : State) (r : Option Nat) (ecc : Bool) : State :=
  let s := ((s.wr HST_DP_STAT_RANGE (b2n (r == some 1))).wr HST_DP_STAT_DENIED (b2n (r == some 2))).wr HST_DP_STAT_ECC (b2n ecc)
  match r with
  | some k => s.ev 0xD050 (s.rd HST_DP_SEL_PART) (s.dpOfs % 2 ^ 32) k s.dpBlen
  | none => s.gateOpen 17

/-- The DRAM word at an offset of the selected partition. -/
def State.dpWord (s : State) (o : Nat) : Nat := leAt (s.dramRead (s.partBase (s.rd HST_DP_SEL_PART) + o) 4) 0 4

/-- An uncorrectable word met by the data port is counted and recorded (R47, R363). -/
def State.dpEcc (s : State) (ecc : Bool) (a : Nat) : State := if ecc then s.ueNote 9 (a / 8 * 8) else s

/-- A read of HST_DP_DATA: the word and what it leaves. A refused transfer returns an open value. -/
def State.dpRead (s : State) (ecc : Bool) : Nat × State :=
  let o := s.dpOfs
  let (k, s) := s.draw
  if !s.is HST_DP_CTRL_PAIR then
    match s.dpRefuse false 4 with
    | some r => (k % 2 ^ 32, s.dpFlags (some r) false)
    | none => (s.dpWord o, ((s.dpFlags none ecc).dpSetOfs (o + 4)).dpEcc ecc (s.partBase (s.rd HST_DP_SEL_PART) + o))
  else
    match s.fab.dpHeld with
    | some (false, v) => (v, (s.setHeld none).dpSetOfs (o + 8))
    | _ =>
      match s.dpRefuse false 8 with
      | some r => (k % 2 ^ 32, s.dpFlags (some r) false)
      | none => (s.dpWord o, (((s.dpFlags none ecc).setHeld (some (false, s.dpWord (o + 4)))).dpEcc ecc (s.partBase (s.rd HST_DP_SEL_PART) + o)))

/-- A write of HST_DP_DATA. -/
def State.dpWrite (s : State) (v : Nat) : State :=
  let o := s.dpOfs
  let a := s.partBase (s.rd HST_DP_SEL_PART) + o
  let v := v % 2 ^ 32
  if !s.is HST_DP_CTRL_PAIR then
    match s.dpRefuse true 4 with
    | some r => s.dpFlags (some r) false
    | none => ((s.dpFlags none false).dramWrite a (leBytes 4 v)).dpSetOfs (o + 4)
  else
    match s.fab.dpHeld with
    | some (true, lo) => (((s.setHeld none).dramWrite a (leBytes 4 lo)).dramWrite (a + 4) (leBytes 4 v)).dpSetOfs (o + 8)
    | _ =>
      match s.dpRefuse true 8 with
      | some r => (s.setHeld none).dpFlags (some r) false
      | none => (s.dpFlags none false).setHeld (some (true, v))

/-! ### A read access -/

/-- Check 6 of R399 for the data port and the burst window (R47): the access is refused with KIND 0x6. -/
def State.regFail (s : State) (write : Bool) (a : Nat) : Bool :=
  let a := a / 4 * 4
  if 0x1000000 ≤ a then decide (s.dpBlen ≤ (a - 0x1000000) / 4) || (!write && !s.is HST_DP_STAT_READY)
  else a == 0x100038 && s.is HST_DP_STAT_BUSY

/-- An access to a table port's buffer while BUSY waits for the command's end (R28). -/
def State.portWait (s : State) (m : Master) (a : Nat) : State :=
  let b := blkOfAddr a
  if isPort (mNum m) a && decide (a < tpOfs b (mNum m) + 0x100) then s.wr (TP_STAT_BUSY b (mNum m)) 0 else s

/-- The key of a master's shadow of the pair whose high word is at `a`. -/
def shadowKey (m : Master) (a : Nat) : Nat := a + 2 ^ 30 * mNum m

/-- The words of an access that passed its checks, with the side effects of a read of 4 or 8 bytes: the shadow of a pair, the
advance of the data port, the voter. -/
def State.readOk (s : State) (m : Master) (size a : Nat) (ecc : Bool) : List Nat × State :=
  let (k, s) := (s.portWait m a).draw
  if size < 4 then ([s.wordOf m k (a / 4 * 4) / 256 ^ (a % 4) % 256 ^ size], s)
  else if size = 8 then ([s.wordOf m k a, s.wordOf m k (a + 4)], s.voteRead a)
  else if a = 0x100038 then
    let (v, s) := s.dpRead ecc
    ([v], s)
  else if Machine.pairOf a = 1 then
    ([s.wordOf m k a], { s with fab := { s.fab with shadow := assocSet s.fab.shadow (shadowKey m (a + 4)) (s.wordOf m k (a + 4)) } })
  else if Machine.pairOf a = 2 then ([(assoc s.fab.shadow (shadowKey m a)).getD 0], s)
  else ([s.wordOf m k a], s.voteRead a)

/-! ### The PCIe endpoint (R41, R43) -/

/-- Word `i` of the message address and data of vector `v`. -/
def msixWord (v i : Nat) : Field := ⟨2 ^ 32 * 153 + 16 * v + 4 * i, 0, 32, .rw, 0, 0, 2 ^ 32 - 1, false, false, false⟩

/-- What the endpoint says of itself (R43): identity, the BAR sizes in bytes, the greatest payload. -/
structure PcieId where
  device : Nat
  classCode : Nat
  revision : Nat
  bar0 : Nat
  bar2 : Nat
  payload : Nat
  deriving DecidableEq, Repr

/-- The endpoint's configuration: the Revision ID is the stepping (R43, R398). -/
def State.pcieId (s : State) : PcieId := ⟨0x9640, 0x118000, s.rd SYS_ID_STEP, 0x2000000, 0x2000, 256⟩

/-- An access to BAR2 of the PCIe endpoint (PRESUMED, log 8). -/
def State.isBar2 (s : State) (m : Master) (a : Nat) : Bool :=
  s.up && s.boot.hostPort == 0 && s.on 7 && m == .host && decide (2 ^ 33 ≤ a) && decide (a < 2 ^ 33 + s.pcieId.bar2)

/-- A vector's message is pending: it is masked and its line asserted (R41). -/
def State.msixPend (s : State) (v : Nat) : Bool := s.msixMasked v && (if v < 4 then bit s.irqLines v == 1 else s.nmiLine)

/-- The word at an offset of BAR2: the table of five vectors, the pending bits (PRESUMED, log 8). -/
def State.bar2Word (s : State) (o : Nat) : Nat :=
  let k := o / 16
  let i := o % 16 / 4
  if o / 4 * 4 = 0x1000 then maskOf 5 (fun v => s.msixPend v)
  else if 5 ≤ k then 0
  else if i < 3 then s.rd (msixWord k i)
  else s.rd (msixCtl k)

/-- A read access: the fabric's checks, then the words; a failed read returns zero (R399). With the DRAM in self-refresh a read of
HST_DP_DATA waits (R71; DESIGN CHOICE, log 50). -/
def State.busRead (s : State) (m : Master) (size a : Nat) (ecc : Bool) : State :=
  let s := s.hostGate m
  if s.isBar2 m a then (s.respond m .served).answer m [s.bar2Word (a - 2 ^ 33)]
  else if s.ircDirect && a == 0x100038 && (busFail s m false size a).isNone && size == 4 then s
  else match busFail s m false size a with
  | some k => ((s.errResp m false size a k).errEvent m false size a 0 k).answer m [0]
  | none =>
    if s.regFail false a then (s.errResp m false size a 6).answer m [0]
    else
      let r := (s.respond m .served).readOk m size a ecc
      r.2.answer m r.1

/-- PAIR_LOW_READ: a read; one of a pair's low word latches the high word into the master's shadow. -/
def execPairLowRead (a : Access) (s : State) : Host.Outcome State Fault Refusal :=
  done s (if s.up then s.busRead a.master a.size a.addr false else s)

/-- DP_DATA_READ: the host reads HST_DP_DATA; `ecc` when the word is uncorrectable. -/
def execDpDataRead (ecc : Bool) (s : State) : Host.Outcome State Fault Refusal :=
  done s (if s.up then s.busRead .host 4 0x100038 ecc else s)

/-- QSPI_READ: consecutive words, each with its own outcome; a word that failed reads as 0. -/
def execQspiRead (addr words : Nat) (s : State) : Host.Outcome State Fault Refusal :=
  done s (if !s.up || s.boot.hostPort != 1 || !s.on 7 then s
    else
      let r := (List.range words).foldl (fun (a : State × List Nat) i =>
        let s := a.1.busRead .host 4 (addr + 4 * i) false
        (s, a.2 ++ s.fab.rdHost)) (s, [])
      r.1.answer .host r.2)

end Sys2Proof.Machine
end

