-- ==== Sys2Proof/Machine/Fabric.lean ====
section
/-! DEFINITION. Write accesses: what a written word does under its access code, the registers whose writes are commands of their
own, the common registers, the table ports, the burst engine and the host's link (R10, R22–R47, R399; DESIGN CHOICE, log 50). -/

namespace Sys2Proof.Machine

/-! ### Locks, counters, NMI causes (R25, R26, R40) -/

/-- BLK_LOCK: a write to a block's LOCK bit, which locks itself too. -/
def execBlkLock (m : Master) (blk v : Nat) (s : State) : Host.Outcome State Fault Refusal :=
  let f := BLK_LOCK_LOCK blk
  done s (if 20 ≤ blk then s
    else s.accessW m f.addr v (fun s => if s.is f then s.ev 0xD011 f.addr v (mNum m) 1 else s.wr f v))

/-- A key is that of an ROC counter that CLRCNT clears; the count of seal violations is not (R314). -/
def rocKey (k : Nat) : Bool :=
  (fieldsAny (k / 32)).any (fun f => f.acc == .roc && f.lo == k % 32) && k != fieldKey QTY_SEAL_VIOL_COUNT

/-- Every ROC counter of a block is cleared. -/
def State.clearCounters (s : State) (b : Nat) : State :=
  let s : State := { s with regs := s.regs.filter (fun p => !(blkOfAddr (p.1 / 32) == b && rocKey p.1)) }
  if b = 4 then
    { s with ports := s.ports.map (fun p => { p with stranger := false, pause := p.pause.map (fun x => (max x.1 (min x.2 s.mono), x.2)) }) }
  else if b = 15 then { s with log := { s.log with lostCnt := 0 } }
  else s

/-- BLK_CLR: writing CLRCNT clears the block's counters; those that count in the same cycle read 1 after it, among them, in SYS, the
count of the write itself (R26). -/
def execBlkClr (m : Master) (blk : Nat) (counted : List Field) (s : State) : Host.Outcome State Fault Refusal :=
  done s (if 20 ≤ blk then s
    else s.accessW m (BLK_CLR_CLRCNT blk).addr 1 (fun s =>
      ((s.clearCounters blk).whenB (blk == 0) (fun s => s.countWrite m)).each (counted.filter (fun f => f.acc == .roc && blkOfAddr f.addr == blk)) (fun s f => s.cnt f)))

/-- NMI_ACK: causes acknowledged are cleared, but for those that occur again in the same cycle (`again`). -/
def execNmiAck (m : Master) (mask again : Nat) (s : State) : Host.Outcome State Fault Refusal :=
  done s (s.accessW m SYS_NMI_ACK_MASK.addr mask (fun s =>
    s.each ((List.range 5).filter (fun i => bit mask i == 1 && bit again i == 0)) (fun s i => s.wr { SYS_NMI_CAUSE_CLKFAIL with lo := i } 0)))

/-! ### Table ports (R27, R28) -/

/-- A sealed field under the seal keeps its value; the attempt is recorded and counted, with what the spec gives no value for open
(R32, R314). -/
def State.sealAttempt (s : State) (addr v : Nat) (m : Master) : State :=
  let (k, s) := s.draw
  (s.ev 0xD011 addr v (mNum m) (k % 2 ^ 32)).cnt QTY_SEAL_VIOL_COUNT

/-- A command of a table port: refused while BUSY, else flagged RANGE or DENIED, or carried out. -/
def State.tablePort (s : State) (m : Master) (b op : Nat) (run : State → Nat → Nat → State) : State :=
  let h := mNum m
  let a := (TP_CMD_OP b h).addr
  let e := s.rd (TP_IDX_ENTRY b h)
  let t := s.rd (TP_IDX_TABLE b h)
  if s.up && (busFail s m true 4 a).isNone && s.is (TP_STAT_BUSY b h) then
    ((s.hostGate m).errResp m true 4 a 5).ev 0xD040 b (e + t * 65536) h 0
  else
    s.accessW m a op (fun s =>
      let range := decide ((tblSize b t).1 ≤ e)
      let denied := !range && op == 2 && b == 17
      let s := ((s.wr (TP_STAT_BUSY b h) 1).wr (TP_STAT_RANGE b h) (b2n range)).wr (TP_STAT_DENIED b h) (b2n denied)
      if range || denied then s else run s t e)

/-- TABLE_READ: the entry is copied into the port's buffer. -/
def execTableRead (m : Master) (blk : Nat) (s : State) : Host.Outcome State Fault Refusal :=
  done s (if 20 ≤ blk then s
    else s.tablePort m blk 1 (fun s t e =>
      let (k, s) := s.draw
      let ws := (List.range (tblSize blk t).2).map (fun w => s.entryWord m k blk t e w)
      s.each ws.zipIdx (fun s p => s.wr (TP_BUF blk (mNum m) p.2) p.1)))

/-- The port's buffer goes into the entry: its RWA fields into the buffered copy, sealed ones under the seal excepted. -/
def State.entryWrite (s : State) (m : Master) (b t e : Nat) : State :=
  let fs := (List.range (tblSize b t).2).flatMap (fun w => (tblFields b t e w).map (fun f => (f, s.rd (TP_BUF b (mNum m) w))))
  let fs := fs.filter (fun p => p.1.acc == .rwa)
  let kept := s.qtySealed && fs.any (fun p => p.1.sealed)
  let s := s.each (fs.filter (fun p => !(kept && p.1.sealed))) (fun s p => s.wrBuf p.1 (bits p.2 p.1.lo p.1.width))
  let s := if kept then
      let (k, s) := s.drawN 2
      s.sealAttempt (nth k 0 0) (nth k 1 0) m
    else s
  s.entryStored b t e

/-- TABLE_WRITE: the port's buffer is written into the entry. -/
def execTableWrite (m : Master) (blk : Nat) (s : State) : Host.Outcome State Fault Refusal :=
  done s (if 20 ≤ blk then s else s.tablePort m blk 2 (fun s t e => s.entryWrite m blk t e))

/-- TABLE_COMMAND_DONE: the command of a master's port completes. -/
def execTableCommandDone (m : Master) (blk : Nat) (s : State) : Host.Outcome State Fault Refusal :=
  done s (if s.up && hasTables blk && s.is (TP_STAT_BUSY blk (mNum m)) then s.wr (TP_STAT_BUSY blk (mNum m)) 0 else s)

/-! ### The data port's writes and bursts (R46, R47) -/

/-- DP_DATA_WRITE: the host writes HST_DP_DATA. With the DRAM in self-refresh the access waits (R71; DESIGN CHOICE, log 50). -/
def execDpDataWrite (v : Nat) (s : State) : Host.Outcome State Fault Refusal :=
  done s (if !s.up then s
    else if (busFail s .host true 4 0x100038).isSome then s.accessW .host 0x100038 v (fun s => s)
    else if s.ircDirect then s
    else if s.regFail true 0x100038 then (s.hostGate .host).errResp .host true 4 0x100038 6
    else s.accessW .host 0x100038 v (fun s => s.dpWrite v))

/-- A burst begins: flags, ADDR advanced, and BUSY. A command while BUSY has no effect. -/
def State.burst (s : State) (op : Nat) : State :=
  s.accessW .host HST_DP_CMD_OP.addr op (fun s =>
    if s.is HST_DP_STAT_BUSY then s
    else
      let n := s.dpBlen
      match s.dpRefuse (op == 2) (4 * n) with
      | some r => s.dpFlags (some r) false
      | none =>
        let o := s.dpOfs
        let s : State := { s with fab := { s.fab with dpOp := op + 4 * s.rd HST_DP_SEL_PART, dpAddr := o, dpLen := n } }
        let s := ((s.dpFlags none false).wr HST_DP_STAT_BUSY 1).dpSetOfs (o + 4 * n)
        if op = 1 then s.wr HST_DP_STAT_READY 0 else s)

/-- DP_BURST_READ. -/
def execDpBurstRead (s : State) : Host.Outcome State Fault Refusal := done s (s.burst 1)

/-- DP_BURST_WRITE. -/
def execDpBurstWrite (s : State) : Host.Outcome State Fault Refusal := done s (s.burst 2)

/-- The first `n` words of the burst in progress are transferred. -/
def State.burstMove (s : State) (n : Nat) : State :=
  let a := s.partBase (s.fab.dpOp / 4) + s.fab.dpAddr
  s.each (List.range n) (fun s i =>
    if s.fab.dpOp % 4 = 1 then s.wr (HST_WIN i) (leAt (s.dramRead (a + 4 * i) 4) 0 4)
    else s.dramWrite (a + 4 * i) (leBytes 4 (s.rd (HST_WIN i))))

/-- The burst is over. -/
def State.burstEnd (s : State) : State :=
  ({ s with fab := { s.fab with dpOp := 0, dpAddr := 0, dpLen := 0 } } : State).wr HST_DP_STAT_BUSY 0

/-- Uncorrectable words of the burst in progress, by their number, below `n`: each is reported at its own address. -/
def State.burstEcc (s : State) (ecc : List Nat) (n : Nat) : State :=
  let a := s.partBase (s.fab.dpOp / 4) + s.fab.dpAddr
  let bad := (List.range n).filter (fun i => ecc.contains i)
  if bad.isEmpty || s.fab.dpOp % 4 != 1 then s
  else s.each bad (fun s i => (s.wr HST_DP_STAT_ECC 1).dpEcc true (a + 4 * i))

/-- DP_BURST_ABORT: the burst ends after `moved` words, and ADDR is left at the next word. Which of the words read were uncorrectable is
open (log 1). -/
def execDpBurstAbort (moved : Nat) (s : State) : Host.Outcome State Fault Refusal :=
  done s (s.accessW .host HST_DP_CMD_OP.addr 3 (fun s =>
    if !s.is HST_DP_STAT_BUSY then s
    else
      let n := min moved s.fab.dpLen
      if s.fab.dpOp % 4 = 1 then
        let (l, s) := s.drawN 8
        (((s.burstMove n).burstEcc ((List.range 256).filter (fun i => bit (nth l (i / 32) 0) (i % 32) == 1)) n).dpSetOfs (s.fab.dpAddr + 4 * n)).burstEnd
      else ((s.burstMove n).dpSetOfs (s.fab.dpAddr + 4 * n)).burstEnd))

/-- DP_BURST_DONE: the burst completes; `ecc` names the words that were uncorrectable. A burst read sets READY. With the DRAM in
self-refresh no word moves (R71). -/
def execDpBurstDone (ecc : List Nat) (s : State) : Host.Outcome State Fault Refusal :=
  done s (if !s.up || !s.on 7 || !s.is HST_DP_STAT_BUSY || s.ircDirect then s
    else
      let rd := s.fab.dpOp % 4 == 1
      let s := ((s.burstMove s.fab.dpLen).burstEcc ecc s.fab.dpLen).burstEnd
      if rd then s.wr HST_DP_STAT_READY 1 else s)

/-! ### A written word (R10, R32, R33) -/

/-- WO registers that hold what is written. -/
def keepsWo (a : Nat) : Bool :=
  (0xD0110 ≤ a && a < 0xD0120) || (0xF0014 ≤ a && a < 0xF0024) || (0xF0080 ≤ a && a < 0xF0100)

/-- A field takes its bits of a written word, by its access code. -/
def State.putField (s : State) (m : Master) (v : Nat) (f : Field) : State :=
  let x := bits v f.lo f.width
  match f.acc with
  | .rw => s.wr (mField m f) x
  | .rwk => s.wr f x
  | .rwa => s.wrBuf f x
  | .rwv => s.wrBufV f x
  | .wo => if keepsWo f.addr then s.wr (mField m f) x else s
  | _ => s

/-- The FIR bank whose coefficients or sizes a register holds. -/
def firBank (a : Nat) : Option Nat :=
  if a = 0x50040 ∨ (0x50100 ≤ a ∧ a < 0x50200) then some 0 else if a = 0x50044 ∨ (0x50200 ≤ a ∧ a < 0x50300) then some 1 else none

/-- A register of the active FIR bank, or of one that waits to be active (R158). -/
def State.firHeld (s : State) (a : Nat) : Bool :=
  match firBank a with
  | none => false
  | some b => s.rd ACQ_FIR_SEL_ACTIVE == b || s.rd ACQ_FIR_SEL_BANK == b

/-- The units whose gates CLK_GATE_CFG holds open (R76). -/
def State.gatesForced (s : State) : List Nat :=
  (if s.is CLK_GATE_CFG_LANES_ON then List.range 16 else []) ++ (if s.is CLK_GATE_CFG_ELS_ON then [16] else [])
    ++ (if s.is CLK_GATE_CFG_PHY_ON then [17] else []) ++ (if s.is CLK_GATE_CFG_HOST_ON then [18] else [])

/-- What follows at once from a written register. -/
def State.afterWrite (s : State) (a : Nat) : State :=
  if a = CLK_GATE_CFG_LANES_ON.addr then s.each s.gatesForced (fun s u => s.gateOpen u)
  else if a = 0x100020 ∨ a = 0x100024 ∨ a = 0x100030 ∨ a = 0x100034 then s.setHeld none
  else if 0x80200 ≤ a ∧ a < 0x80240 then s.almPins
  else if a = CAP_PRE_PRE.addr then
    (if s.capacity < min (s.rdBuf CAP_PRE_PRE) s.capacity + s.rdBuf CAP_POST_POST then s.postClamp (s.rdBuf CAP_POST_POST) else s)
  else s

/-- The effect of a written word that has no command of its own. -/
def State.wordWrite (s : State) (m : Master) (a v : Nat) : State :=
  let fs := fieldsAt a
  let s := s.portWait m a
  if fs.any (fun f => f.acc == .rwk) && s.is (BLK_LOCK_LOCK (blkOfAddr a)) then s.ev 0xD011 a v (mNum m) 1
  else if s.firHeld a then s.ev 0x4012 a v (mNum m) 0
  else
    let kept := s.qtySealed && fs.any (fun f => f.sealed)
    let s := s.each (fs.filter (fun f => !(kept && f.sealed))) (fun s f => s.putField m v f)
    let s := if kept then s.sealAttempt a v m else s
    s.afterWrite a

/-! ### Registers whose writes are commands of their own -/

/-- A 32-bit write to a GO bit: the command when 1 is written, else an access without effect. -/
def goWrite (m : Master) (a v : Nat) (s : State) (o : Host.Outcome State Fault Refusal) : Host.Outcome State Fault Refusal :=
  if v % 2 = 1 then o else done s (s.accessW m a v (fun s => s))

/-- A write to a common register or a table port. -/
def commonWrite (m : Master) (a v : Nat) (s : State) : Option (Host.Outcome State Fault Refusal) :=
  let b := blkOfAddr a
  if 0x110000 ≤ a then none
  else if a = (BLK_CLR_CLRCNT b).addr then some (goWrite m a v s (execBlkClr m b [] s))
  else if a = (BLK_LOCK_LOCK b).addr then some (execBlkLock m b v s)
  else if hasTables b && a == (TP_CMD_OP b (mNum m)).addr then
    (if v % 4 = 1 then some (execTableRead m b s) else if v % 4 = 2 then some (execTableWrite m b s) else none)
  else none

/-- A write to a command register of SYS, CLK, PWR, TNS, NET or ACQ. What only the surroundings decide is an open value. -/
def timeWrite (m : Master) (a v : Nat) (s : State) : Option (Host.Outcome State Fault Refusal) :=
  let k := (Config.freeValue s.free).toNat
  let s' : State := { s with free := s.free + 1 }
  if a = SYS_APPLY_MASK.addr then some (execApplyStrobe m v s)
  else if a = SYS_NMI_ACK_MASK.addr then some (execNmiAck m v 0 s)
  else if a = SYS_START_GO.addr then some (goWrite m a v s (execSysStartGo m s))
  else if a = CLK_SW_TARGET.addr then
    (if v % 4 = 1 then some (execClkSwReturnRef m s) else if v % 4 = 2 then some (execClkSwIrcDirect m s)
     else if v % 4 = 3 then some (execClkSwPllOnIrc m s) else none)
  else if a = PWR_HIB_CMD.addr then some (execHibernate m v s)
  else if a = TNS_SNAP_GO.addr then some (goWrite m a v s (execTimeSnapshot m s))
  else if a = TNS_INC_LO_FRAC.addr then some (execTnsIncWrite m (some v) none s)
  else if a = TNS_INC_HI_NS.addr then some (execTnsIncWrite m none (some v) s)
  else if a = TNS_XFER_GO.addr then some (goWrite m a v s (execDomainTransfer m s))
  else if a = TNS_STEP_CMD_GO.addr then
    some (goWrite m a v s (if s.stepNsOf < 0 then execTimeStepBackward m s else execTimeStepForward m s))
  else
    match (List.range 4).find? (fun n => a == (TNS_TSQ_POP_POP n).addr) with
    | some n => some (goWrite m a v s (execTsqPop m n s))
    | none =>
      match (List.range 6).find? (fun n => a == (NET_P_FLUSH_GO n).addr) with
      | some n => some (goWrite m a v s (execFifoFlush m n (k % 2 == 1) s'))
      | none =>
        if a = ACQ_SYNC_GO.addr then some (goWrite m a v s (execAcqSync m s))
        else if a = ACQ_FIR_SEL_BANK.addr then some (execFirBankSelect m (v % 2) s)
        else none

/-- A write to a command register of CCD, ANA, SCH, QTY, CAP or ELS. -/
def slotWrite (m : Master) (a v : Nat) (s : State) : Option (Host.Outcome State Fault Refusal) :=
  if a = CCD_CFG_FSYS.addr ∨ a = CCD_TBASE_TBASE.addr then some (execCcdCfgWrite m ⟨m, a, 4, v⟩ s)
  else if a = ANA_ALM_ACK_DEF.addr then some (execAlarmAck m (v % 2048) s)
  else if a = SCH_SUB_CMD_GO.addr then
    (match m with
    | .mc => some (goWrite m a v s (execFirmwareSubmit s))
    | .host => none)
  else if a = QTY_SEAL_SEALED.addr then some (execSealWrite m v s)
  else if a = QTY_SNAP_GO.addr then some (goWrite m a v s (execMeterSnapshot m s))
  else if a = QTY_MD_RST_POINT.addr then some (execMdReset m (v % 512) s)
  else if a = QTY_REC_POP_POP.addr then some (goWrite m a v s (execRecordPop m s))
  else if a = CAP_REL_CAPT.addr then some (execCaptureRelease m (v % 128) s)
  else if a = CAP_POST_POST.addr then some (execCapPostWrite m v s)
  else if a = CAP_RDPTR_LO_OFS.addr then some (execCapRdptrWrite m (some v) none s)
  else if a = CAP_RDPTR_HI_OFS.addr then some (execCapRdptrWrite m none (some v) s)
  else if a = CAP_TRIG_MAN_FIRE.addr then some (execManualTrigger m (v % 65536) s)
  else if partFields.any (fun f => f.addr == a) then some (execCapPartWrite m a v s)
  else if a = ARC_FIND_SERIAL.addr then some (execArchiveFind m v s)
  else if a = jobAddr m then
    (if v % 4 = 1 then some (execElsJobStart m s) else if v % 4 = 2 then some (execElsJobResume m s)
     else if v % 4 = 3 then some (execElsJobCancel m s) else none)
  else none

/-- A write to a command register of LOG, RED, KEY, FWU or HST. -/
def hostWrite (m : Master) (a v : Nat) (s : State) : Option (Host.Outcome State Fault Refusal) :=
  let k := (Config.freeValue s.free).toNat
  let s' : State := { s with free := s.free + 1 }
  if a = LOG_RD_SEQ_SEQ.addr then some (execLogReadSeq m v s)
  else if a = LOG_RD_NEXT_GO.addr then some (goWrite m a v s (execLogReadNext m s))
  else if a = LOG_CLR_CMD_GO.addr then some (goWrite m a v s (execRecorderClear m s))
  else if a = LOG_OBJ_SEL_OBJ.addr then some (execObjectSelect m (v % 512) s)
  else if a = LOG_OBJ_CFG_KIND.addr ∨ a = LOG_OBJ_LO_LO.addr ∨ a = LOG_OBJ_WIDTH_WIDTH.addr then some (execObjectConfigure m a v s)
  else if a = RED_LANE_CMD_LANE.addr then some (execLaneUnfence m v (k % 65) s')
  else if a = KEY_LC_CMD_CODE.addr then
    (if v = 0x4C430001 then some (execLcToProvisioned m s) else if v = 0x4C430002 then some (execLcToDeployed m s)
     else if v = 0x4C430003 then some (execLcToDecommissioned m s) else none)
  else if a = KEY_OTP_REVOKE_SLOTS.addr then some (execOtpRevoke m v s)
  else if a = KEY_LD_CMD_CMD.addr then
    (match v % 8 with
    | 1 => some (execKeyLoad m s)
    | 2 => some (execKeyLoadWrapped m s)
    | 3 => some (execKeyEndOverlap m s)
    | 4 => some (execKeyDestroy m s)
    | 5 => some (execKeyWrapOut m s)
    | 6 => some (execKeyProgramOtp m s)
    | _ => none)
  else if a = FWU_STG_CMD_CMD.addr then
    (match v % 8 with
    | 1 => some (execStagingErase m s)
    | 2 => some (execStagingWrite m s)
    | 3 => some (execStagingVerify m s)
    | 4 => some (execStagingCommit m s)
    | 5 => some (execStagingAbort m s)
    | _ => none)
  else if a = FWU_ACT_CODE.addr then some (execActivate m v s)
  else if a = FWU_CONFIRM_GO.addr then some (goWrite m a v s (execTrialConfirm m s))
  else
    match m with
    | .mc => none
    | .host =>
      if a = HST_DP_DATA_DATA.addr then some (execDpDataWrite v s)
      else if a = HST_DP_CMD_OP.addr then
        (if v % 4 = 1 then some (execDpBurstRead s) else if v % 4 = 2 then some (execDpBurstWrite s)
         else if v % 4 = 3 then some (execDpBurstAbort (k % 257) s') else none)
      else none

/-- A 32-bit write to a register whose write is a command of its own. -/
def ownWrite (m : Master) (a v : Nat) (s : State) : Option (Host.Outcome State Fault Refusal) :=
  match commonWrite m a v s with
  | some o => some o
  | none =>
    match timeWrite m a v s with
    | some o => some o
    | none =>
      match slotWrite m a v s with
      | some o => some o
      | none => hostWrite m a v s

/-- A 64-bit write to a pair whose write is a command of its own. -/
def ownPair (m : Master) (a lo hi : Nat) (s : State) : Option (Host.Outcome State Fault Refusal) :=
  if a = TNS_INC_LO_FRAC.addr then some (execTnsIncWrite m (some lo) (some hi) s)
  else if a = CAP_RDPTR_LO_OFS.addr then some (execCapRdptrWrite m (some lo) (some hi) s)
  else none

/-! ### A write access (R22, R23, R31, R399) -/

/-- A write access that is no command of its own: the checks, then the word, or the low word and the high word. -/
def State.plainWrite (s : State) (a : Access) : State :=
  let m := a.master
  let s := s.hostGate m
  match busFail s m true a.size a.addr with
  | some k => (s.errResp m true a.size a.addr k).errEvent m true a.size a.addr a.data k
  | none =>
    if s.regFail true a.addr then s.errResp m true a.size a.addr 6
    else
      let s := (s.countWrite m).respond m .served
      let s := s.wordWrite m a.addr (a.data % 2 ^ 32)
      if a.size = 8 then s.wordWrite m (a.addr + 4) (a.data / 2 ^ 32 % 2 ^ 32) else s

/-- The command that a write access is, if it is one. -/
def commandOf (a : Access) (s : State) : Option (Host.Outcome State Fault Refusal) :=
  if a.size = 4 then ownWrite a.master a.addr (a.data % 2 ^ 32) s
  else if a.size = 8 ∧ (busFail s a.master true 8 a.addr).isNone then ownPair a.master a.addr (a.data % 2 ^ 32) (a.data / 2 ^ 32 % 2 ^ 32) s
  else none

/-- The state a command leaves, with the interrupt lines still as they were shown before it. -/
def stateOf (s : State) (o : Host.Outcome State Fault Refusal) : State :=
  match o with
  | .next t => { t with fab := { t.fab with lines := s.fab.lines, nmi := s.fab.nmi, msix := s.fab.msix } }
  | _ => s

/-- A write access. -/
def State.busWrite (s : State) (a : Access) : State :=
  match commandOf a s with
  | some o => stateOf s o
  | none => s.plainWrite a

/-- The entry that an accepted table-write command writes: block, table, entry (R28). -/
def State.entryOf (s : State) (x : Access) : Option (Nat × Nat × Nat) :=
  let b := blkOfAddr x.addr
  let h := mNum x.master
  let e := s.rd (TP_IDX_ENTRY b h)
  let t := s.rd (TP_IDX_TABLE b h)
  if x.size == 4 && hasTables b && x.addr == (TP_CMD_OP b h).addr && x.data % 4 == 2 && !s.is (TP_STAT_BUSY b h)
      && decide (e < (tblSize b t).1) && b != 17 then some (b, t, e)
  else none

/-- Both masters write the same register, or one table entry through both ports, in one cycle (R23, R28). -/
def State.contend (s : State) (x y : Access) : Bool :=
  (busFail s x.master true x.size x.addr).isNone && (busFail s y.master true y.size y.addr).isNone
    && (x.addr == y.addr || ((s.entryOf x).isSome && s.entryOf x == s.entryOf y))

/-- The block whose counters a write clears. -/
def State.clearOf (s : State) (x : Access) : Option Nat :=
  let b := blkOfAddr x.addr
  if x.size == 4 && decide (x.addr < 0x110000) && x.addr == (BLK_CLR_CLRCNT b).addr && x.data % 2 == 1
      && (busFail s x.master true 4 x.addr).isNone then some b
  else none

/-- One of two writes of a cycle whose counters have been cleared already. -/
def State.halfWrite (s : State) (x : Access) : State :=
  match s.clearOf x with
  | some _ => s.accessW x.master x.addr x.data (fun s => s)
  | none => s.busWrite x

/-- The counters that a write clears are cleared. -/
def State.clearFirst (s : State) (x : Access) : State :=
  match s.clearOf x with
  | some b => s.clearCounters b
  | none => s

/-- A write whose effect comes at the next core tick (`tickOps`). -/
def State.tickHalf (s : State) (x : Access) : Option (State × List TickOp) :=
  let m := x.master
  let v := x.data % 2 ^ 32
  if x.size = 8 ∧ x.addr = TNS_INC_LO_FRAC.addr then some (s.incWrite m (some v) (some (x.data / 2 ^ 32 % 2 ^ 32)))
  else if x.size ≠ 4 then none
  else if x.addr = TNS_INC_HI_NS.addr then some (s.incWrite m none (some v))
  else if v % 2 = 0 then none
  else if x.addr = TNS_XFER_GO.addr then some (s.xferWrite m)
  else if x.addr = TNS_STEP_CMD_GO.addr then some (s.stepWrite m)
  else if x.addr = TNS_SNAP_GO.addr then some (s.snapWrite m)
  else none

/-- One of two writes of a cycle, with what it does at the next core tick. -/
def State.cycleWrite (s : State) (x : Access) : State × List TickOp := (s.tickHalf x).getD (s.halfWrite x, [])

/-- Two writes of one cycle: counters are cleared before anything counts (R26); the management core's write is applied first, then the
host's. In the event the address is that of the management core's write (DESIGN CHOICE, log 50). -/
def State.twoWrites (s : State) (mc host : Access) : State :=
  let both := s.contend mc host
  let a := ((s.clearFirst mc).clearFirst host).cycleWrite mc
  let b := a.1.cycleWrite host
  let s := b.1.tickOps (a.2 ++ b.2)
  if both then (s.cnt SYS_FAB_CONT_COUNT).ev 0xD010 mc.addr mc.data host.data 0 else s

/-! ### The MSI-X table (R41, R43) -/

/-- The host writes a word of BAR2, which holds the table of five vectors at its start (PRESUMED, log 8). A vector unmasked while its line is
asserted has its message sent. -/
def State.msixWrite (s : State) (o v : Nat) : State :=
  let k := o / 16
  let i := o % 16 / 4
  if 5 ≤ k then s
  else if i < 3 then s.wr (msixWord k i) v
  else s.wr (msixCtl k) (v % 2)

/-- Vectors unmasked by a command while their lines are asserted. -/
def unmasked (s t : State) : List Nat :=
  (List.range 5).filter (fun v => s.msixMasked v && !t.msixMasked v && (if v < 4 then bit t.irqLines v == 1 else t.nmiLine))

/-- The messages of the last command. -/
def State.withMsix (s : State) (l : List Nat) : State := { s with fab := { s.fab with msix := l } }

/-- REGISTER_WRITE: a write takes effect by its access code; `other` is a write by the other master in the same cycle. -/
def execRegisterWrite (a : Access) (other : Option Access) (s : State) : Host.Outcome State Fault Refusal :=
  if !s.up then done s s
  else if s.isBar2 a.master a.addr then
    let t := (s.hostGate a.master).msixWrite (a.addr - 2 ^ 33) (a.data % 2 ^ 32)
    .next ((finish s t).withMsix ((finish s t).fab.msix.filter (fun v => !(unmasked s t).contains v) ++ unmasked s t))
  else
    match other with
    | some b =>
      (match a.master, b.master with
      | .mc, .host => done s (s.twoWrites a b)
      | .host, .mc => done s (s.twoWrites b a)
      | _, _ => done s (s.busWrite a))
    | none =>
      match commandOf a s with
      | some o => o
      | none => done s (s.plainWrite a)

/-! ### The host's links (R42, R44) -/

/-- PCIE_LINK_CHANGE: HST_STAT follows the link, and a change is recorded. -/
def execPcieLinkChange (up width speed : Nat) (s : State) : Host.Outcome State Fault Refusal :=
  done s (if !s.up || !s.on 7 || s.boot.hostPort != 0 then s
    else
      let t := ((s.wr HST_STAT_LINK_UP up).wr HST_STAT_WIDTH width).wr HST_STAT_SPEED speed
      if [HST_STAT_LINK_UP, HST_STAT_WIDTH, HST_STAT_SPEED].all (fun f => s.rd f == t.rd f) then s
      else t.ev 0xD060 (t.rd HST_STAT_LINK_UP) (t.rd HST_STAT_WIDTH) (t.rd HST_STAT_SPEED) 0)

/-- The QSPI target is in use. -/
def State.qspiOn (s : State) : Bool := s.up && s.boot.hostPort == 1 && s.on 7

/-- QSPI_WRITE: words to consecutive addresses. -/
def execQspiWrite (addr : Nat) (data : List Nat) (s : State) : Host.Outcome State Fault Refusal :=
  done s (s.each (data.zipIdx) (fun s p => if s.qspiOn then s.busWrite ⟨.host, addr + 4 * p.2, 4, p.1⟩ else s))

/-- QSPI_STATUS: the status byte is answered, and ERR cleared. -/
def execQspiStatus (s : State) : Host.Outcome State Fault Refusal :=
  done s (if !s.qspiOn then s
    else
      let v := b2n s.fab.qspiErr + 2 * b2n (s.irqLines != 0) + 4 * b2n s.nmiLine
      ({ s with fab := { s.fab with qspiErr := false } } : State).answer .host [v])

/-- QSPI_WORD_DISCARD: chip select raised within a word. -/
def execQspiWordDiscard (addr cmd clocks : Nat) (s : State) : Host.Outcome State Fault Refusal :=
  done s (if s.qspiOn then s.ev 0xD070 addr cmd clocks 0 else s)

end Sys2Proof.Machine
end

