-- ==== Sys2Proof/Machine/Dispatch.lean ====
section
/-! DEFINITION. The meaning of every command, one arm each. -/

namespace Sys2Proof.Machine

def exec (i : Instr) (s : State) : Host.Outcome State Fault Refusal :=
  match i with
  | .porstAssert => Sys2Proof.Machine.execPorstAssert s
  | .porstRelease pd0Lost => Sys2Proof.Machine.execPorstRelease pd0Lost s
  | .rstRelease => Sys2Proof.Machine.execRstRelease s
  | .ircStable us => Sys2Proof.Machine.execIrcStable us s
  | .ircStartTimeout => Sys2Proof.Machine.execIrcStartTimeout s
  | .ircRestart => Sys2Proof.Machine.execIrcRestart s
  | .strapSample xdly mode pos => Sys2Proof.Machine.execStrapSample xdly mode pos s
  | .refStartDelayEnd => Sys2Proof.Machine.execRefStartDelayEnd s
  | .monitorWindowEnd count => Sys2Proof.Machine.execMonitorWindowEnd count s
  | .missingEdgeTrip => Sys2Proof.Machine.execMissingEdgeTrip s
  | .pllLock us bootUs failed => Sys2Proof.Machine.execPllLock us bootUs failed s
  | .pllLockTimeout => Sys2Proof.Machine.execPllLockTimeout s
  | .limitedServiceRetry ok failed => Sys2Proof.Machine.execLimitedServiceRetry ok failed s
  | .sysStartGo m => Sys2Proof.Machine.execSysStartGo m s
  | .lockwaitExpiry => Sys2Proof.Machine.execLockwaitExpiry s
  | .serviceStart => Sys2Proof.Machine.execServiceStart s
  | .fallstartComplete cycles => Sys2Proof.Machine.execFallstartComplete cycles s
  | .failoverIrcTimeout => Sys2Proof.Machine.execFailoverIrcTimeout s
  | .ircRelockDone us => Sys2Proof.Machine.execIrcRelockDone us s
  | .ircTrim code => Sys2Proof.Machine.execIrcTrim code s
  | .clkSwReturnRef m => Sys2Proof.Machine.execClkSwReturnRef m s
  | .clkSwIrcDirect m => Sys2Proof.Machine.execClkSwIrcDirect m s
  | .clkSwPllOnIrc m => Sys2Proof.Machine.execClkSwPllOnIrc m s
  | .clockSwitchComplete cycles => Sys2Proof.Machine.execClockSwitchComplete cycles s
  | .gateClose unit => Sys2Proof.Machine.execGateClose unit s
  | .quiesceTimeout unit addr m write => Sys2Proof.Machine.execQuiesceTimeout unit addr m write s
  | .domainSwitchStep ok => Sys2Proof.Machine.execDomainSwitchStep ok s
  | .hibernate m v => Sys2Proof.Machine.execHibernate m v s
  | .rtcAlarmWake supplies => Sys2Proof.Machine.execRtcAlarmWake supplies s
  | .watchdogTimeout => Sys2Proof.Machine.execWatchdogTimeout s
  | .pfailAssert => Sys2Proof.Machine.execPfailAssert s
  | .pfailCopyDone us => Sys2Proof.Machine.execPfailCopyDone us s
  | .pfailRelease => Sys2Proof.Machine.execPfailRelease s
  | .registerWrite a other => Sys2Proof.Machine.execRegisterWrite a other s
  | .blkClr m blk counted => Sys2Proof.Machine.execBlkClr m blk counted s
  | .blkLock m blk v => Sys2Proof.Machine.execBlkLock m blk v s
  | .tableRead m blk => Sys2Proof.Machine.execTableRead m blk s
  | .tableWrite m blk => Sys2Proof.Machine.execTableWrite m blk s
  | .tableCommandDone m blk => Sys2Proof.Machine.execTableCommandDone m blk s
  | .pairLowRead a => Sys2Proof.Machine.execPairLowRead a s
  | .applyStrobe m mask => Sys2Proof.Machine.execApplyStrobe m mask s
  | .applyTakeEffect blks => Sys2Proof.Machine.execApplyTakeEffect blks s
  | .voteSweep => Sys2Proof.Machine.execVoteSweep s
  | .nmiAck m mask again => Sys2Proof.Machine.execNmiAck m mask again s
  | .pcieLinkChange up width speed => Sys2Proof.Machine.execPcieLinkChange up width speed s
  | .qspiRead addr words => Sys2Proof.Machine.execQspiRead addr words s
  | .qspiWrite addr data => Sys2Proof.Machine.execQspiWrite addr data s
  | .qspiStatus => Sys2Proof.Machine.execQspiStatus s
  | .qspiWordDiscard addr cmd clocks => Sys2Proof.Machine.execQspiWordDiscard addr cmd clocks s
  | .dpDataRead ecc => Sys2Proof.Machine.execDpDataRead ecc s
  | .dpDataWrite v => Sys2Proof.Machine.execDpDataWrite v s
  | .dpBurstRead => Sys2Proof.Machine.execDpBurstRead s
  | .dpBurstWrite => Sys2Proof.Machine.execDpBurstWrite s
  | .dpBurstAbort moved => Sys2Proof.Machine.execDpBurstAbort moved s
  | .dpBurstDone ecc => Sys2Proof.Machine.execDpBurstDone ecc s
  | .tnsIncWrite m lo hi => Sys2Proof.Machine.execTnsIncWrite m lo hi s
  | .timeSnapshot m => Sys2Proof.Machine.execTimeSnapshot m s
  | .servoUpdate x => Sys2Proof.Machine.execServoUpdate x s
  | .slewEnd => Sys2Proof.Machine.execSlewEnd s
  | .sourceTimeout src => Sys2Proof.Machine.execSourceTimeout src s
  | .revertExpiry => Sys2Proof.Machine.execRevertExpiry s
  | .holdoverExpiry => Sys2Proof.Machine.execHoldoverExpiry s
  | .domainTransfer m => Sys2Proof.Machine.execDomainTransfer m s
  | .ppsInEdge ago width => Sys2Proof.Machine.execPpsInEdge ago width s
  | .irigbFrame f => Sys2Proof.Machine.execIrigbFrame f s
  | .ppsOutEdge => Sys2Proof.Machine.execPpsOutEdge s
  | .ppsOutEnd => Sys2Proof.Machine.execPpsOutEnd s
  | .timeStepForward m => Sys2Proof.Machine.execTimeStepForward m s
  | .timeStepBackward m => Sys2Proof.Machine.execTimeStepBackward m s
  | .leapSecond => Sys2Proof.Machine.execLeapSecond s
  | .tsqPop m n => Sys2Proof.Machine.execTsqPop m n s
  | .linkUp n speed => Sys2Proof.Machine.execLinkUp n speed s
  | .linkDown n receiving => Sys2Proof.Machine.execLinkDown n receiving s
  | .srefChange k ok rx => Sys2Proof.Machine.execSrefChange k ok rx s
  | .frameReceived n f => Sys2Proof.Machine.execFrameReceived n f s
  | .pauseFrame n quanta => Sys2Proof.Machine.execPauseFrame n quanta s
  | .pauseExpiry n => Sys2Proof.Machine.execPauseExpiry n s
  | .lpiEntry n => Sys2Proof.Machine.execLpiEntry n s
  | .fifoFlush m n receiving => Sys2Proof.Machine.execFifoFlush m n receiving s
  | .flushComplete n words => Sys2Proof.Machine.execFlushComplete n words s
  | .flushForced n words => Sys2Proof.Machine.execFlushForced n words s
  | .frameTransmit n ofs => Sys2Proof.Machine.execFrameTransmit n ofs s
  | .collision n bit => Sys2Proof.Machine.execCollision n bit s
  | .backoffExpiry n => Sys2Proof.Machine.execBackoffExpiry n s
  | .beaconTimeout n => Sys2Proof.Machine.execBeaconTimeout n s
  | .beaconReceived n => Sys2Proof.Machine.execBeaconReceived n s
  | .parseFrame n => Sys2Proof.Machine.execParseFrame n s
  | .codedFrameDecoded ue => Sys2Proof.Machine.execCodedFrameDecoded ue s
  | .pairClaimTimeout ctx => Sys2Proof.Machine.execPairClaimTimeout ctx s
  | .pairDecisionReceived ctx accept => Sys2Proof.Machine.execPairDecisionReceived ctx accept s
  | .laneLock k rtd => Sys2Proof.Machine.execLaneLock k rtd s
  | .laneLockLoss k => Sys2Proof.Machine.execLaneLockLoss k s
  | .laneFaultInterval k => Sys2Proof.Machine.execLaneFaultInterval k s
  | .sampleInstant frames => Sys2Proof.Machine.execSampleInstant frames s
  | .firBankSelect m bank => Sys2Proof.Machine.execFirBankSelect m bank s
  | .acqSync m => Sys2Proof.Machine.execAcqSync m s
  | .acqSyncInstant => Sys2Proof.Machine.execAcqSyncInstant s
  | .syncNEdge => Sys2Proof.Machine.execSyncNEdge s
  | .syncNTimeout => Sys2Proof.Machine.execSyncNTimeout s
  | .statusInputAccept idx => Sys2Proof.Machine.execStatusInputAccept idx s
  | .chatterEnd idx raw => Sys2Proof.Machine.execChatterEnd idx raw s
  | .phasorGridPoint flags => Sys2Proof.Machine.execPhasorGridPoint flags s
  | .vsHoldExpiry d => Sys2Proof.Machine.execVsHoldExpiry d s
  | .homeStreamComplete h flags => Sys2Proof.Machine.execHomeStreamComplete h flags s
  | .ssoUpdate m flags => Sys2Proof.Machine.execSsoUpdate m flags s
  | .slotOpen => Sys2Proof.Machine.execSlotOpen s
  | .speculationPoint => Sys2Proof.Machine.execSpeculationPoint s
  | .commitPoint => Sys2Proof.Machine.execCommitPoint s
  | .freeze port => Sys2Proof.Machine.execFreeze port s
  | .ccdCfgWrite m a => Sys2Proof.Machine.execCcdCfgWrite m a s
  | .subjunctiveEvaluationStart => Sys2Proof.Machine.execSubjunctiveEvaluationStart s
  | .jobDispatch => Sys2Proof.Machine.execJobDispatch s
  | .outletStart => Sys2Proof.Machine.execOutletStart s
  | .outletComplete => Sys2Proof.Machine.execOutletComplete s
  | .laneJobComplete lane flagged => Sys2Proof.Machine.execLaneJobComplete lane flagged s
  | .directAlarmTimer d => Sys2Proof.Machine.execDirectAlarmTimer d s
  | .almHoldExpiry p => Sys2Proof.Machine.execAlmHoldExpiry p s
  | .alarmAck m d => Sys2Proof.Machine.execAlarmAck m d s
  | .firmwareSubmit => Sys2Proof.Machine.execFirmwareSubmit s
  | .selfTestDue => Sys2Proof.Machine.execSelfTestDue s
  | .delayRelease => Sys2Proof.Machine.execDelayRelease s
  | .pubQueueDrain n => Sys2Proof.Machine.execPubQueueDrain n s
  | .pubAgeDrop n => Sys2Proof.Machine.execPubAgeDrop n s
  | .cmdTransmissionOff c => Sys2Proof.Machine.execCmdTransmissionOff c s
  | .cmdTransmissionOn c => Sys2Proof.Machine.execCmdTransmissionOn c s
  | .cmdSendHeader c => Sys2Proof.Machine.execCmdSendHeader c s
  | .cmdSendCfg1 c => Sys2Proof.Machine.execCmdSendCfg1 c s
  | .cmdSendCfg2 c => Sys2Proof.Machine.execCmdSendCfg2 c s
  | .cmdSendCfg3 c => Sys2Proof.Machine.execCmdSendCfg3 c s
  | .cmdExtendedFrame c => Sys2Proof.Machine.execCmdExtendedFrame c s
  | .commandPeriodResolve => Sys2Proof.Machine.execCommandPeriodResolve s
  | .tcpSessionIdle k => Sys2Proof.Machine.execTcpSessionIdle k s
  | .integrationStep flags => Sys2Proof.Machine.execIntegrationStep flags s
  | .meterResults p => Sys2Proof.Machine.execMeterResults p s
  | .flowDatagram n => Sys2Proof.Machine.execFlowDatagram n s
  | .transferStale t => Sys2Proof.Machine.execTransferStale t s
  | .meterSnapshot m => Sys2Proof.Machine.execMeterSnapshot m s
  | .intervalClose => Sys2Proof.Machine.execIntervalClose s
  | .recordPop m => Sys2Proof.Machine.execRecordPop m s
  | .mdReset m p => Sys2Proof.Machine.execMdReset m p s
  | .pulseStart j => Sys2Proof.Machine.execPulseStart j s
  | .pulseEnd j => Sys2Proof.Machine.execPulseEnd j s
  | .retentionCopy => Sys2Proof.Machine.execRetentionCopy s
  | .sealWrite m v => Sys2Proof.Machine.execSealWrite m v s
  | .manualTrigger m mask => Sys2Proof.Machine.execManualTrigger m mask s
  | .captureRelease m c => Sys2Proof.Machine.execCaptureRelease m c s
  | .capPostWrite m v => Sys2Proof.Machine.execCapPostWrite m v s
  | .capRdptrWrite m lo hi => Sys2Proof.Machine.execCapRdptrWrite m lo hi s
  | .capPartWrite m addr v => Sys2Proof.Machine.execCapPartWrite m addr v s
  | .archiveFind m serial => Sys2Proof.Machine.execArchiveFind m serial s
  | .archiveFindDone => Sys2Proof.Machine.execArchiveFindDone s
  | .elsJobStart m => Sys2Proof.Machine.execElsJobStart m s
  | .elsJobResume m => Sys2Proof.Machine.execElsJobResume m s
  | .elsJobCancel m => Sys2Proof.Machine.execElsJobCancel m s
  | .elisionJobEnd ue => Sys2Proof.Machine.execElisionJobEnd ue s
  | .eventRecord => Sys2Proof.Machine.execEventRecord s
  | .rateWindowEnd => Sys2Proof.Machine.execRateWindowEnd s
  | .logReadSeq m seq => Sys2Proof.Machine.execLogReadSeq m seq s
  | .logReadNext m => Sys2Proof.Machine.execLogReadNext m s
  | .objectSelect m idx => Sys2Proof.Machine.execObjectSelect m idx s
  | .objectConfigure m addr v => Sys2Proof.Machine.execObjectConfigure m addr v s
  | .recorderClear m => Sys2Proof.Machine.execRecorderClear m s
  | .mirrorProgram ok => Sys2Proof.Machine.execMirrorProgram ok s
  | .degradedRowTest pass => Sys2Proof.Machine.execDegradedRowTest pass s
  | .memoryScrub mem addr err => Sys2Proof.Machine.execMemoryScrub mem addr err s
  | .zlControlCell c => Sys2Proof.Machine.execZlControlCell c s
  | .claimCellSend => Sys2Proof.Machine.execClaimCellSend s
  | .zlLinkTimeout => Sys2Proof.Machine.execZlLinkTimeout s
  | .zlLaneFail lane => Sys2Proof.Machine.execZlLaneFail lane s
  | .healthHoldoffExpiry => Sys2Proof.Machine.execHealthHoldoffExpiry s
  | .claimAckTimeout => Sys2Proof.Machine.execClaimAckTimeout s
  | .auditSnapshotReceived bytes => Sys2Proof.Machine.execAuditSnapshotReceived bytes s
  | .healthReportReceived r => Sys2Proof.Machine.execHealthReportReceived r s
  | .laneUnfence m v fails => Sys2Proof.Machine.execLaneUnfence m v fails s
  | .lcToProvisioned m => Sys2Proof.Machine.execLcToProvisioned m s
  | .lcToDeployed m => Sys2Proof.Machine.execLcToDeployed m s
  | .lcToDecommissioned m => Sys2Proof.Machine.execLcToDecommissioned m s
  | .keyLoad m => Sys2Proof.Machine.execKeyLoad m s
  | .keyLoadWrapped m => Sys2Proof.Machine.execKeyLoadWrapped m s
  | .keyEndOverlap m => Sys2Proof.Machine.execKeyEndOverlap m s
  | .keyDestroy m => Sys2Proof.Machine.execKeyDestroy m s
  | .keyWrapOut m => Sys2Proof.Machine.execKeyWrapOut m s
  | .keyProgramOtp m => Sys2Proof.Machine.execKeyProgramOtp m s
  | .keyOverlapExpiry slot => Sys2Proof.Machine.execKeyOverlapExpiry slot s
  | .keyMaskRefresh bad => Sys2Proof.Machine.execKeyMaskRefresh bad s
  | .otpRevoke m v => Sys2Proof.Machine.execOtpRevoke m v s
  | .stagingErase m => Sys2Proof.Machine.execStagingErase m s
  | .stagingWrite m => Sys2Proof.Machine.execStagingWrite m s
  | .stagingVerify m => Sys2Proof.Machine.execStagingVerify m s
  | .stagingCommit m => Sys2Proof.Machine.execStagingCommit m s
  | .stagingAbort m => Sys2Proof.Machine.execStagingAbort m s
  | .activate m v => Sys2Proof.Machine.execActivate m v s
  | .activationRestart ms => Sys2Proof.Machine.execActivationRestart ms s
  | .trialConfirm m => Sys2Proof.Machine.execTrialConfirm m s
  | .trialAutoconfirm => Sys2Proof.Machine.execTrialAutoconfirm s
  | .headerRewrite ok => Sys2Proof.Machine.execHeaderRewrite ok s
  | .healthConditionExpiry c => Sys2Proof.Machine.execHealthConditionExpiry c s
  | .mainSupplyReturn => Sys2Proof.Machine.execMainSupplyReturn s
  | .xtal32Valid => Sys2Proof.Machine.execXtal32Valid s
  | .keyCommandDone m => Sys2Proof.Machine.execKeyCommandDone m s
  | .stagingCommandDone => Sys2Proof.Machine.execStagingCommandDone s

end Sys2Proof.Machine
end

