-- ==== Sys2Proof/Safety.lean ====
section
/-! DEFINITION. The terms in which claims about the part are stated: what a command answers, what it leaves alone, what
it hands to the recorder, and the output lines that follow the state. -/

namespace Sys2Proof.Machine

/-- The command answers a next state, and the property holds of it. -/
def Runs (c : Instr) (s : State) (P : State → Prop) : Prop := ∃ t, exec c s = .next t ∧ P t

/-- The command is accepted by the fabric: the part is in service, and a 32-bit write of the master to the address passes
the checks of R399. -/
abbrev Accepted (s : State) (m : Master) (a : Nat) : Prop := s.up = true ∧ busFail s m true 4 a = none

/-- The parts of the state, the queue of waiting commands and the output lines apart. -/
inductive Part where
  | bufs | pend | time | free | loaded | nor | dram | boot | gate | fab | log | tns | ports | red | ccd | sch | ing | ana | pub | cap | els
  | key | fwu | acq | phs | qty
  deriving DecidableEq, Repr

/-- What the fabric holds beside the interrupt lines and their messages, which follow their sources (R39–R41). -/
def Fabric.inner (f : Fabric) : Fabric := { f with lines := 0, nmi := false, msix := [] }

/-- One part of the state is the same in both states; a memory is when each of its bytes reads the same. -/
def Part.same (p : Part) (s t : State) : Prop :=
  match p with
  | .bufs => t.bufs = s.bufs
  | .pend => t.pend = s.pend
  | .time => t.tai = s.tai ∧ t.mono = s.mono ∧ t.rtc = s.rtc
  | .free => t.free = s.free
  | .loaded => t.loaded = s.loaded
  | .nor => ∀ a, Memory.read norErased t.nor a = Memory.read norErased s.nor a
  | .dram => ∀ a, Memory.read dramBlank t.dram a = Memory.read dramBlank s.dram a
  | .boot => t.boot = s.boot
  | .gate => t.gate = s.gate
  | .fab => t.fab.inner = s.fab.inner
  | .log => t.log = s.log
  | .tns => t.tns = s.tns
  | .ports => t.ports = s.ports
  | .red => t.red = s.red
  | .ccd => t.ccd = s.ccd
  | .sch => t.sch = s.sch
  | .ing => t.ing = s.ing
  | .ana => t.ana = s.ana
  | .pub => t.pub = s.pub
  | .cap => t.cap = s.cap
  | .els => t.els = s.els
  | .key => t.key = s.key
  | .fwu => t.fwu = s.fwu
  | .acq => t.acq = s.acq
  | .phs => t.phs = s.phs
  | .qty => t.qty = s.qty

/-- Every register field but the listed ones holds what it held. -/
def KeepsRegs (fs : List Field) (s t : State) : Prop := ∀ g, fieldKey g ∉ fs.map fieldKey → t.rd g = s.rd g

/-- The queue of waiting commands and every part of the state but the listed ones are as they were. -/
def KeepsRest (ps : List Part) (s t : State) : Prop := t.pending = s.pending ∧ ∀ p, p ∉ ps → p.same s t

/-- The frame of a command: it may change the listed register fields and the listed parts of the state, nothing else. -/
def Frame (fs : List Field) (ps : List Part) (s t : State) : Prop := KeepsRegs fs s t ∧ KeepsRest ps s t

/-- The counters of accepted writes (R23): an accepted access counts for its master. -/
def writeCounters : List Field := [SYS_FAB_WR_MC_COUNT, SYS_FAB_WR_HC_COUNT]

/-- The recorder runs and has room for one more event of either class (R337). -/
abbrev Listens (s : State) : Prop := s.log.running = true ∧ s.log.inq.length < 240 ∧ s.log.waiting = []

/-- One event went to the recorder, with this code and these parameters, stamped now (R337). -/
def Tells (s t : State) (code p0 p1 p2 p3 : Nat) : Prop :=
  ∃ e, t.log = { s.log with inq := s.log.inq ++ [e] } ∧ e.code = code ∧ e.p0 = p0 % 2 ^ 32 ∧ e.p1 = p1 % 2 ^ 32
    ∧ e.p2 = p2 % 2 ^ 32 ∧ e.p3 = p3 % 2 ^ 32

/-- PD1 to PD7 are as a reset leaves them: every field that PD0 does not hold reads its default (R11, R49). The key store's fields are
apart: it loads them from its fuses as it starts (R365, R370). -/
def Fresh (t : State) : Prop :=
  ∀ f : Field, f.lo < 32 → blkOfAddr f.addr ≠ 17 → fieldKey f ≠ fieldKey FWU_ROLLBACK_COUNT → pd0Held f.addr = false → t.rd f = f.dflt

/-- The causes that SYS_RST_CAUSE holds. -/
def resetCauses : List Field :=
  [SYS_RST_CAUSE_PORST, SYS_RST_CAUSE_RSTN, SYS_RST_CAUSE_WDOG, SYS_RST_CAUSE_FWRST, SYS_RST_CAUSE_RTCWAKE]

/-- SYS_RST_CAUSE holds this cause and no other. -/
def CauseAlone (t : State) (f : Field) : Prop := ∀ g ∈ resetCauses, t.rd g = if fieldKey g = fieldKey f then 1 else 0

/-- The outputs are as R390 holds them before step 13: no interrupt pin is driven, and what step 13 enables (alarm outputs, pulses,
the drive comparison) is not live. -/
def OutputsHeld (t : State) : Prop := t.red.live = false ∧ t.irqPins = none ∧ t.nmiPin = none

/-- Every byte of the NOR flash reads as before. -/
def NorKept (s t : State) : Prop := ∀ a, Memory.read norErased t.nor a = Memory.read norErased s.nor a

/-- Every byte of the DRAM reads as before. -/
def DramKept (s t : State) : Prop := ∀ a, Memory.read dramBlank t.dram a = Memory.read dramBlank s.dram a

/-- The interrupt lines are what their sources and routes make them (R39, R40). -/
abbrev LinesFollow (s : State) : Prop := s.fab.lines = s.irqLines ∧ s.fab.nmi = s.nmiLine

end Sys2Proof.Machine
end

