-- ==== Sys2Proof/WellFormed.lean ====
section
/-! DEFINITION. Which commands are well formed: each operand within what its wires, its field or its kind of thing
can carry. The meanings are total and do not ask for it; a command outside it stands for nothing outside the part. -/

namespace Sys2Proof

/-- An access is 1, 2, 4 or 8 bytes wide and carries a value of that width at a 32-bit address, or at one of BAR2, which the model lays
above those (R29, R43). -/
def Access.wf (a : Access) : Bool :=
  (a.size == 1 || a.size == 2 || a.size == 4 || a.size == 8)
    && (decide (a.addr < 2 ^ 32) || (decide (2 ^ 33 ≤ a.addr) && decide (a.addr < 2 ^ 33 + 0x2000))) && decide (a.data < 256 ^ a.size)

/-- A second write of the same cycle comes from the other master and is well formed too (R33). -/
def otherWf (a : Access) (o : Option Access) : Bool :=
  match o with
  | none => true
  | some b => b.wf && b.master != a.master

/-- A write of a 64-bit pair brings one half at least, each a word (R30). -/
def halvesWf (lo hi : Option Nat) : Bool :=
  (lo.isSome || hi.isSome) && decide (lo.getD 0 < 2 ^ 32) && decide (hi.getD 0 < 2 ^ 32)

/-- The fields of a C37.118 command frame's origin (R284). -/
def CmdFrom.wf (c : CmdFrom) : Bool :=
  decide (c.idcode < 2 ^ 16) && decide (c.ip < 2 ^ 32) && decide (c.sport < 2 ^ 16) && decide (c.port < 6) && decide (c.mac < 2 ^ 48)

/-- The well-formed commands. -/
def Instr.wf (i : Instr) : Bool :=
  match i with
  | .porstAssert => true
  | .porstRelease _ => true
  | .rstRelease => true
  | .ircStable _ => true
  | .ircStartTimeout => true
  | .ircRestart => true
  | .strapSample xdly mode pos => decide (xdly < 8) && decide (mode < 4) && decide (pos < 2)
  | .refStartDelayEnd => true
  | .monitorWindowEnd count => decide (count < 1024)
  | .missingEdgeTrip => true
  | .pllLock us _ _ => decide (us ≤ 400)
  | .pllLockTimeout => true
  | .limitedServiceRetry _ _ => true
  | .sysStartGo _ => true
  | .lockwaitExpiry => true
  | .serviceStart => true
  | .fallstartComplete _ => true
  | .failoverIrcTimeout => true
  | .ircRelockDone _ => true
  | .ircTrim code => decide (code < 4096)
  | .clkSwReturnRef _ => true
  | .clkSwIrcDirect _ => true
  | .clkSwPllOnIrc _ => true
  | .clockSwitchComplete _ => true
  | .gateClose unit => decide (unit < 19)
  | .quiesceTimeout unit addr _ _ => decide (unit < 19) && decide (addr < 2 ^ 32)
  | .domainSwitchStep _ => true
  | .hibernate _ v => decide (v < 2 ^ 32)
  | .rtcAlarmWake _ => true
  | .watchdogTimeout => true
  | .pfailAssert => true
  | .pfailCopyDone _ => true
  | .pfailRelease => true
  | .registerWrite a other => a.wf && otherWf a other
  | .blkClr _ blk _ => decide (blk < 20)
  | .blkLock _ blk v => decide (blk < 20) && decide (v < 2 ^ 32)
  | .tableRead _ blk => decide (blk < 20)
  | .tableWrite _ blk => decide (blk < 20)
  | .tableCommandDone _ blk => decide (blk < 20)
  | .pairLowRead a => a.wf
  | .applyStrobe _ mask => decide (mask < 2 ^ 32)
  | .applyTakeEffect blks => decide (blks < 2 ^ 20)
  | .voteSweep => true
  | .nmiAck _ mask again => decide (mask < 2 ^ 32) && decide (again < 32)
  | .pcieLinkChange up width speed => decide (up < 2) && decide (width < 4) && decide (speed < 4)
  | .qspiRead addr words => decide (addr < 2 ^ 32) && decide (words < 2 ^ 32)
  | .qspiWrite addr data => decide (addr < 2 ^ 32) && data.all (fun w => decide (w < 2 ^ 32))
  | .qspiStatus => true
  | .qspiWordDiscard addr cmd clocks => decide (addr < 2 ^ 32) && decide (cmd < 256) && decide (clocks < 8)
  | .dpDataRead _ => true
  | .dpDataWrite v => decide (v < 2 ^ 32)
  | .dpBurstRead => true
  | .dpBurstWrite => true
  | .dpBurstAbort moved => decide (moved ≤ 256)
  | .dpBurstDone ecc => ecc.all (fun i => decide (i < 256))
  | .tnsIncWrite _ lo hi => halvesWf lo hi
  | .timeSnapshot _ => true
  | .servoUpdate x => decide (1 ≤ x.source) && decide (x.source ≤ 4) && decide (x.leap < 3) && decide (x.gm < 2 ^ 64) && decide (x.gmClass < 256)
  | .slewEnd => true
  | .sourceTimeout src => decide (1 ≤ src) && decide (src ≤ 4)
  | .revertExpiry => true
  | .holdoverExpiry => true
  | .domainTransfer _ => true
  | .ppsInEdge _ _ => true
  | .irigbFrame f => decide (f.quality < 16) && decide (f.leap < 3)
  | .ppsOutEdge => true
  | .ppsOutEnd => true
  | .timeStepForward _ => true
  | .timeStepBackward _ => true
  | .leapSecond => true
  | .tsqPop _ n => decide (n < 4)
  | .linkUp n _ => decide (n < 6)
  | .linkDown n _ => decide (n < 6)
  | .srefChange k _ rx => decide (k < 2) && decide (rx < 16)
  | .frameReceived n _ => decide (n < 6)
  | .pauseFrame n quanta => decide (n < 6) && decide (quanta < 65536)
  | .pauseExpiry n => decide (n < 6)
  | .lpiEntry n => decide (n < 4)
  | .fifoFlush _ n _ => decide (n < 6)
  | .flushComplete n words => decide (n < 6) && decide (words < 2 ^ 32)
  | .flushForced n words => decide (n < 6) && decide (words < 2 ^ 32)
  | .frameTransmit n _ => decide (n < 6)
  | .collision n _ => decide (4 ≤ n) && decide (n < 6)
  | .backoffExpiry n => decide (4 ≤ n) && decide (n < 6)
  | .beaconTimeout n => decide (4 ≤ n) && decide (n < 6)
  | .beaconReceived n => decide (4 ≤ n) && decide (n < 6)
  | .parseFrame n => decide (n < 6)
  | .codedFrameDecoded _ => true
  | .pairClaimTimeout ctx => decide (ctx < 4096)
  | .pairDecisionReceived ctx _ => decide (ctx < 4096)
  | .laneLock k _ => decide (k < 24)
  | .laneLockLoss k => decide (k < 24)
  | .laneFaultInterval k => decide (k < 24)
  | .sampleInstant frames => decide (frames.length ≤ 24)
  | .firBankSelect _ bank => decide (bank < 2)
  | .acqSync _ => true
  | .acqSyncInstant => true
  | .syncNEdge => true
  | .syncNTimeout => true
  | .statusInputAccept idx => decide (idx < 64)
  | .chatterEnd idx _ => decide (idx < 64)
  | .phasorGridPoint flags => decide (flags.length ≤ 8)
  | .vsHoldExpiry d => decide (d < 8)
  | .homeStreamComplete h _ => decide (h < 32)
  | .ssoUpdate m _ => decide (m < 16)
  | .slotOpen => true
  | .speculationPoint => true
  | .commitPoint => true
  | .freeze port => decide (port < 8)
  | .ccdCfgWrite m a => a.wf && a.master == m && (a.addr == 0x70000 || a.addr == 0x70004)
  | .subjunctiveEvaluationStart => true
  | .jobDispatch => true
  | .outletStart => true
  | .outletComplete => true
  | .laneJobComplete lane _ => decide (lane < 16)
  | .directAlarmTimer d => decide (d < 2048)
  | .almHoldExpiry p => decide (p < 16)
  | .alarmAck _ d => decide (d < 2 ^ 32)
  | .firmwareSubmit => true
  | .selfTestDue => true
  | .delayRelease => true
  | .pubQueueDrain n => decide (n < 6)
  | .pubAgeDrop n => decide (n < 6)
  | .cmdTransmissionOff c => c.wf
  | .cmdTransmissionOn c => c.wf
  | .cmdSendHeader c => c.wf
  | .cmdSendCfg1 c => c.wf
  | .cmdSendCfg2 c => c.wf
  | .cmdSendCfg3 c => c.wf
  | .cmdExtendedFrame c => c.wf
  | .commandPeriodResolve => true
  | .tcpSessionIdle k => decide (k < 63)
  | .integrationStep _ => true
  | .meterResults p => decide (p < 48)
  | .flowDatagram n => decide (n < 6)
  | .transferStale t => decide (t < 256)
  | .meterSnapshot _ => true
  | .intervalClose => true
  | .recordPop _ => true
  | .mdReset _ p => decide (p < 2 ^ 32)
  | .pulseStart j => decide (j < 16)
  | .pulseEnd j => decide (j < 16)
  | .retentionCopy => true
  | .sealWrite _ v => decide (v < 2 ^ 32)
  | .manualTrigger _ mask => decide (mask < 2 ^ 32)
  | .captureRelease _ c => decide (c < 2 ^ 32)
  | .capPostWrite _ v => decide (v < 2 ^ 32)
  | .capRdptrWrite _ lo hi => halvesWf lo hi
  | .capPartWrite _ addr v => decide (addr < 2 ^ 32) && decide (v < 2 ^ 32)
  | .archiveFind _ serial => decide (serial < 2 ^ 32)
  | .archiveFindDone => true
  | .elsJobStart _ => true
  | .elsJobResume _ => true
  | .elsJobCancel _ => true
  | .elisionJobEnd _ => true
  | .eventRecord => true
  | .rateWindowEnd => true
  | .logReadSeq _ seq => decide (seq < 2 ^ 32)
  | .logReadNext _ => true
  | .objectSelect _ idx => decide (idx < 2 ^ 32)
  | .objectConfigure _ addr v => decide (addr < 2 ^ 32) && decide (v < 2 ^ 32)
  | .recorderClear _ => true
  | .mirrorProgram _ => true
  | .degradedRowTest _ => true
  | .memoryScrub mem addr err => decide (mem < 11) && decide (err < 3) && decide (addr < 2 ^ 33)
  | .zlControlCell c => decide (c.serial < 2 ^ 64) && decide (c.claim < 2 ^ 16) && (c.ack.getD 0 < 2 ^ 16) && decide (c.setcrc < 2 ^ 32)
  | .claimCellSend => true
  | .zlLinkTimeout => true
  | .zlLaneFail lane => decide (lane < 2)
  | .healthHoldoffExpiry => true
  | .claimAckTimeout => true
  | .auditSnapshotReceived _ => true
  | .healthReportReceived r => decide (r.serial < 2 ^ 32) && decide (r.result < 8)
  | .laneUnfence _ v fails => decide (v < 2 ^ 32) && decide (fails ≤ 64)
  | .lcToProvisioned _ => true
  | .lcToDeployed _ => true
  | .lcToDecommissioned _ => true
  | .keyLoad _ => true
  | .keyLoadWrapped _ => true
  | .keyEndOverlap _ => true
  | .keyDestroy _ => true
  | .keyWrapOut _ => true
  | .keyProgramOtp _ => true
  | .keyOverlapExpiry slot => decide (slot < 64)
  | .keyMaskRefresh bad => decide (bad.getD 0 < 64)
  | .otpRevoke _ v => decide (v < 2 ^ 32)
  | .stagingErase _ => true
  | .stagingWrite _ => true
  | .stagingVerify _ => true
  | .stagingCommit _ => true
  | .stagingAbort _ => true
  | .activate _ v => decide (v < 2 ^ 32)
  | .activationRestart _ => true
  | .trialConfirm _ => true
  | .trialAutoconfirm => true
  | .headerRewrite _ => true
  | .healthConditionExpiry c => (c == 5 || c == 9 || c == 10)
  | .mainSupplyReturn => true
  | .xtal32Valid => true
  | .keyCommandDone _ => true
  | .stagingCommandDone => true

end Sys2Proof
end

