-- ==== Sys2Proof/Certificates/Slice0/Obligations.lean ====
section
/-! DEFINITION. The statements about the part that provers are asked to prove. -/

open Sys2Proof Sys2Proof.Machine

/-- Where a command stands at the front of the queue, a step is that command's effect on the state with the queue's rest. -/
def Obligations.StepRunsFrontCommand : Prop :=
  ∀ (c : Instr) (rest : List Instr) (s : State), s.pending = c :: rest → step s = exec c { s with pending := rest }

/-- On an empty queue a step passes one core tick (model's choice, log 3): while the clocks of PD1 run the time counter takes its
increment, eight times in IRC-direct (R71, R86), and nothing while they do not (R13); the running time and the real-time clock go on by a
tick. Every register and every other part of the state stays as it was. -/
def Obligations.IdleStepIsOneTick : Prop :=
  ∀ s : State, s.pending = [] → ∃ t, step s = .next t
    ∧ t.tai = s.tai + (if s.up then (if s.ircDirect then 8 else 1) * s.inc else 0)
    ∧ t.mono = s.mono + (if s.ircDirect then 8 else 1) * tickU
    ∧ t.rtc = s.rtc + (if s.ircDirect then 8 else 1) * tickU
    ∧ Frame [] [.time] s t

/-- Every command answers a next state, whatever the state and the operands, with the queue of waiting commands as it was; so a step
never stops, and takes exactly the command at the front. -/
def Obligations.EveryCommandCompletes : Prop :=
  (∀ (c : Instr) (s : State), ∃ t, exec c s = .next t ∧ t.pending = s.pending)
    ∧ ∀ s : State, ∃ t, step s = .next t ∧ t.pending = s.pending.tail

/-- After every step, the IRQ_N lines are asserted exactly where a routed source is active, and NMI_N exactly while a cause is set:
an invariant that every command and every tick keeps. -/
def Obligations.LinesFollowEveryStep : Prop :=
  ∀ s t : State, LinesFollow s → step s = .next t → LinesFollow t

/-- The state after reset meets the invariant of the interrupt lines, with every line deasserted; the pins are not driven. -/
def Obligations.LinesFollowAtReset : Prop :=
  LinesFollow State.reset ∧ State.reset.fab.lines = 0 ∧ State.reset.fab.nmi = false
    ∧ State.reset.irqPins = none ∧ State.reset.nmiPin = none

/-- After reset every field holds the value of its Default column (where the spec gives none, the model's value of log 9), no command
waits, and the start sequence has not begun. NOR bytes read as erased and DRAM bytes as blank: the model's choices (log 5, log 6). -/
def Obligations.ResetLeavesDefaults : Prop :=
  (∀ f : Field, State.reset.rd f = f.dflt) ∧ State.reset.pending = [] ∧ State.reset.boot.stage = .porst ∧ State.reset.tai = 0
    ∧ State.reset.red.live = false
    ∧ ∀ a, Memory.read norErased State.reset.nor a = 0xFF ∧ Memory.read dramBlank State.reset.dram a = 0

/-- PORST_N driven low stops the part, with OSPI_RESET_N low. Its release begins step 3 with PORST alone in SYS_RST_CAUSE: what is fresh
stays so, and the real-time clock goes on; where PD0 has lost its supply, that clock and every other register of PD0 start from their
defaults. The release of RST_N, and a watchdog timeout after 525 periods of the 32 kHz clock, begin step 3 with their own cause alone; a
fail-over that finds no IRC by 7 periods after the trip holds reset with WDOG alone. Each of PORST_N low, RST_N, the watchdog and that
fail-over leaves every field of PD1–PD7 outside the key store that PD0 does not hold at its default, the outputs held, the real-time clock
running on and the NOR flash as it was. -/
def Obligations.ResetsRestartTheSequence : Prop :=
  (∀ s : State, Runs .porstAssert s (fun t => t.boot.stage = .porst ∧ t.ospiReset = true ∧ OutputsHeld t ∧ t.rtc = s.rtc ∧ t.mono = s.mono
      ∧ Fresh t ∧ NorKept s t))
  ∧ (∀ (p : Bool) (s : State), s.boot.stage = .porst → Runs (.porstRelease p) s (fun t => t.boot.stage = .ircStart
      ∧ CauseAlone t SYS_RST_CAUSE_PORST ∧ (Fresh s → Fresh t) ∧ t.rtc = (if p || s.boot.pd0Lost then 0 else s.rtc) ∧ t.mono = s.mono
      ∧ (p = true → ∀ f : Field, f.lo < 32 → pd0Held f.addr = true → f.addr ≠ SYS_RST_CAUSE_PORST.addr → t.rd f = f.dflt)
      ∧ NorKept s t))
  ∧ (∀ s : State, s.boot.stage ≠ .porst → Runs .rstRelease s (fun t => t.boot.stage = .ircStart
      ∧ CauseAlone t SYS_RST_CAUSE_RSTN ∧ OutputsHeld t ∧ t.rtc = s.rtc ∧ t.mono = s.mono ∧ Fresh t ∧ NorKept s t))
  ∧ (∀ s : State, s.pd1Clocked = true → Runs .watchdogTimeout s (fun t => t.boot.stage = .ircStart
      ∧ CauseAlone t SYS_RST_CAUSE_WDOG ∧ OutputsHeld t ∧ t.rtc = s.rtc + 525 * secU / 32768 ∧ t.mono = s.mono + 525 * secU / 32768
      ∧ Fresh t ∧ NorKept s t))
  ∧ ∀ s : State, s.boot.stage = .pending → s.mono ≤ s.boot.tripAt + 7 * secU / 32768 → Runs .failoverIrcTimeout s (fun t =>
      t.boot.stage = .ircHold ∧ t.mono = s.boot.tripAt + 7 * secU / 32768 ∧ t.rtc + s.mono = s.rtc + t.mono
      ∧ CauseAlone t SYS_RST_CAUSE_WDOG ∧ OutputsHeld t ∧ Fresh t ∧ NorKept s t)

/-- The IRC becomes stable within 200 µs, or reset is held and it is started again 10 ms later; 16 IRC cycles after it is stable the
straps are sampled into SYS_STRAP; after the start delay of XDLY the monitor's first window begins; a first window whose count is within
3 of 500, with no missing edge in it, lets the PLL start; the 32 kHz crystal takes over in PD0. After a fast wake the start delay counts from
the release, in whole periods of the 32 kHz clock: it leads to the window where the straps are sampled, else to the PLL, and the straps are
sampled later, once. Each of these changes nothing else. -/
def Obligations.StartSequenceSteps : Prop :=
  (∀ (us : Nat) (s : State), s.boot.stage = .ircStart → us ≤ 200 → Runs (.ircStable us) s (fun t => t.boot.stage = .strap
      ∧ t.rd CLK_STAT_IRC_STABLE = 1 ∧ t.mono = s.mono + us * 1000 * nsU ∧ t.tai = s.tai ∧ Frame [CLK_STAT_IRC_STABLE] [.time, .boot] s t))
  ∧ (∀ s : State, s.boot.stage = .ircStart → Runs .ircStartTimeout s (fun t => t.boot.stage = .ircHold ∧ t.mono = s.mono + 200000 * nsU
      ∧ t.tai = s.tai ∧ Frame [] [.time, .boot, .log] s t))
  ∧ (∀ s : State, s.boot.stage = .ircHold → Runs .ircRestart s (fun t => t.boot.stage = .ircStart ∧ t.mono = s.mono + 10000000 * nsU
      ∧ t.tai = s.tai ∧ Frame [] [.time, .boot] s t))
  ∧ (∀ (x m p : Nat) (s : State), s.boot.stage = .strap → s.boot.strapped = false → s.fastWake = false → x < 8 → m < 4 → p < 2 →
      Runs (.strapSample x m p) s (fun t =>
      t.boot.stage = .refDelay ∧ t.rd SYS_STRAP_XDLY = x ∧ t.rd SYS_STRAP_BOOT_MODE = m ∧ t.rd SYS_STRAP_PAIR_POS = p
      ∧ t.mono = s.mono + 320 * nsU ∧ Frame [SYS_STRAP_XDLY, SYS_STRAP_BOOT_MODE, SYS_STRAP_PAIR_POS] [.time, .boot] s t))
  ∧ (∀ (x m p : Nat) (s : State), s.boot.stage = .pll ∨ s.boot.stage = .run → s.boot.strapped = false → s.fastWake = true →
      s.is CLK_STAT_IRC_STABLE = true → x < 8 → m < 4 → p < 2 → Runs (.strapSample x m p) s (fun t =>
      t.boot = { s.boot with strapped := true } ∧ t.rd SYS_STRAP_XDLY = x ∧ t.rd SYS_STRAP_BOOT_MODE = m ∧ t.rd SYS_STRAP_PAIR_POS = p
      ∧ s.mono + 320 * nsU ≤ t.mono ∧ Frame [SYS_STRAP_XDLY, SYS_STRAP_BOOT_MODE, SYS_STRAP_PAIR_POS] [.time, .boot] s t))
  ∧ (∀ s : State, s.boot.stage = .refDelay → s.fastWake = false → Runs .refStartDelayEnd s (fun t => t.boot.stage = .window
      ∧ t.mono = s.mono + 12500 * 2 ^ s.rd SYS_STRAP_XDLY * 20 * nsU ∧ Frame [] [.time, .boot] s t))
  ∧ (∀ s : State, s.boot.stage = .ircStart ∨ s.boot.stage = .strap ∨ s.boot.stage = .refDelay → s.fastWake = true →
      Runs .refStartDelayEnd s (fun t => t.boot.stage = (if s.boot.stage = .refDelay then .window else .pll)
      ∧ t.mono = max s.mono (s.boot.releaseAt + up32k (12500 * 2 ^ s.rd SYS_STRAP_XDLY * 20 * nsU)) ∧ Frame [] [.time, .boot] s t))
  ∧ (∀ (n : Nat) (s : State), s.boot.stage = .window → s.boot.tripped = false → 497 < n → n < 503 →
      Runs (.monitorWindowEnd n) s (fun t => t.boot.stage = .pll
      ∧ t.rd CLK_MON_CNT_COUNT = n ∧ t.mono = s.mono + 10000 * nsU ∧ Frame [CLK_MON_CNT_COUNT] [.time, .boot] s t))
  ∧ ∀ s : State, Runs .xtal32Valid s (fun t => t.boot.xtalOk = true ∧ Frame [] [.boot] s t)

/-- The PLL that locks within 400 µs starts the management core: with BOOT_MODE 2 or 3 it leads to recovery, on PCIe or QSPI, and with
BOOT_MODE 0 or 1 and no valid header to recovery on PCIe. A PLL that does not lock leads to limited service on the IRC, with CLKFAIL and
NOREF set; with BOOT_MODE 2 or 3 that is recovery too. The retry of limited service waits a second from the last, and on success
clears NOREF and selects the reference; from limited service it goes on to the strobe of step 13 or, in held mode, waits for GO.
SYS_START.GO in held mode carries out step 13. The lock wait passes with nothing else changed. Once the wait is satisfied, with nothing
waiting to be applied, service starts: with PD4 on, at the first core tick at which the first slot time after now is reached. -/
def Obligations.RecoveryLimitedServiceAndServiceStart : Prop :=
  (∀ (us b f : Nat) (s : State), s.boot.stage = .pll → s.boot.tripped = false → us ≤ 400 → 2 ≤ s.rd SYS_STRAP_BOOT_MODE →
      bit (s.rd PWR_STAT_ON) 7 = 0 →
      Runs (.pllLock us b f) s (fun t => t.boot.stage = .run ∧ t.rd SYS_BOOT_STAT_PHASE = 11 ∧ t.rd CLK_STAT_PLL_LOCK = 1
        ∧ t.boot.hostPort = s.rd SYS_STRAP_BOOT_MODE - 2 ∧ t.mono = s.mono + us * 1000 * nsU))
  ∧ (∀ (us b f : Nat) (s : State), s.boot.stage = .pll → s.boot.tripped = false → us ≤ 400 → s.rd SYS_STRAP_BOOT_MODE < 2 →
      s.header 0 = none → s.header 1 = none → bit (s.rd PWR_STAT_ON) 7 = 0 →
      Runs (.pllLock us b f) s (fun t => t.boot.stage = .run ∧ t.rd SYS_BOOT_STAT_PHASE = 11 ∧ t.rd CLK_STAT_PLL_LOCK = 1
        ∧ t.boot.hostPort = 0 ∧ t.mono = s.mono + us * 1000 * nsU))
  ∧ (∀ s : State, s.boot.stage = .pll → 2 ≤ s.rd SYS_STRAP_BOOT_MODE →
      Runs .pllLockTimeout s (fun t => t.boot.stage = .run ∧ t.boot.tripped = true ∧ t.rd SYS_BOOT_STAT_PHASE = 11
        ∧ t.rd CLK_STAT_STATE = 1 ∧ t.rd SYS_NMI_CAUSE_CLKFAIL = 1 ∧ t.rd SYS_BOOT_STAT_NOREF = 1 ∧ t.mono = s.mono + 400000 * nsU))
  ∧ (∀ (f : Nat) (s : State), s.up = true → s.is SYS_BOOT_STAT_NOREF = true →
      Runs (.limitedServiceRetry false f) s (fun t => s.boot.limitedAt + secU ≤ t.mono ∧ t.boot.limitedAt = t.mono
        ∧ Frame [] [.time, .boot] s t))
  ∧ (∀ (f : Nat) (s : State), s.up = true → s.is SYS_BOOT_STAT_NOREF = true → s.rd SYS_BOOT_STAT_PHASE ≠ 10 →
      Runs (.limitedServiceRetry true f) s (fun t => s.boot.limitedAt + secU ≤ t.mono ∧ t.boot.tripped = false
        ∧ t.rd SYS_BOOT_STAT_NOREF = 0 ∧ t.rd CLK_STAT_PLL_LOCK = 1 ∧ t.rd CLK_STAT_STATE = 0))
  ∧ (∀ (f : Nat) (s : State), s.up = true → s.is SYS_BOOT_STAT_NOREF = true → s.rd SYS_BOOT_STAT_PHASE = 10 →
      Runs (.limitedServiceRetry true f) s (fun t => t.rd SYS_BOOT_STAT_PHASE = (if s.rd SYS_STRAP_BOOT_MODE = 1 then 7 else 8)
        ∧ t.boot.tripped = false ∧ t.rd SYS_BOOT_STAT_NOREF = 0))
  ∧ (∀ (m : Master) (s : State), Accepted s m SYS_START_GO.addr → s.rd SYS_BOOT_STAT_PHASE = 7 →
      Runs (.sysStartGo m) s (fun t => t.rd SYS_BOOT_STAT_PHASE = 8 ∧ t.red.live = true ∧ t.boot.step13At = s.mono))
  ∧ (∀ s : State, s.up = true → s.rd SYS_BOOT_STAT_PHASE = 8 → s.rd SYS_START_CFG_LOCKWAIT ≠ 0 →
      Runs .lockwaitExpiry s (fun t => s.boot.step13At + s.rd SYS_START_CFG_LOCKWAIT * secU ≤ t.mono ∧ Frame [] [.time] s t))
  ∧ ∀ s : State, s.up = true → s.rd SYS_BOOT_STAT_PHASE = 8 → s.mayServe = true → s.pend = [] →
      Runs .serviceStart s (fun t => t.rd SYS_BOOT_STAT_PHASE = 9 ∧ t.ccd.started = s.on 4 ∧ t.fwu.actAt = none
        ∧ (s.on 4 = true → s.rd CCD_CFG_RATE ≠ 0 → 
            s.nowNs < s.ccdStart.nextSlotNs ∧ (0 < s.inc → s.ccdStart.nextSlotNs * nsU ≤ t.tai
            ∧ t.tai < s.ccdStart.nextSlotNs * nsU + (if s.ircDirect then 8 else 1) * s.inc)))

/-- A good window is counted and changes nothing else; a count 3 or more from 500 trips the monitor. A trip with the reference selected
and no stable IRC holds the clocks with CLK_STAT.STATE 4; with a stable IRC it moves the domains to the IRC, with STATE 1 and CLKFAIL set, 2 IRC
cycles later, which the counter of a running part adds. Each trip off the reference clears REF_OK and PLL_LOCK (PLL_LOCK: the model's
choice, log 42). Missing edges in the first window of step 6 make it a failing one (model's choice, log 42). The pending fail-over
completes when the IRC is stable, setting FALLSTART. With FO_RELOCK the PLL locks to the IRC; once a second the IRC is trimmed. -/
def Obligations.ClockMonitorAndFailover : Prop :=
  (∀ (n : Nat) (s : State), s.armed = true → s.boot.stage ≠ .window → s.is CLK_STAT_IRC_STABLE = true →
      s.is CLK_STAT_REF_OK = true → 497 < n → n < 503 →
      Runs (.monitorWindowEnd n) s (fun t => t.rd CLK_MON_CNT_COUNT = n ∧ t.boot.windows = s.boot.windows + 1
        ∧ s.boot.windowAt + 10000 * nsU ≤ t.mono ∧ Frame [CLK_MON_CNT_COUNT] [.time, .boot] s t))
  ∧ (∀ (n : Nat) (s : State), s.armed = true → s.boot.stage ≠ .window → s.is CLK_STAT_IRC_STABLE = true →
      s.boot.tripped = false → n ≤ 497 ∨ 503 ≤ n → n < 1024 →
      s.onRef = false → Runs (.monitorWindowEnd n) s (fun t => t.boot.tripped = true ∧ t.boot.windows = 0 ∧ t.rd CLK_STAT_REF_OK = 0
        ∧ t.rd CLK_MON_CNT_COUNT = n ∧ t.rd CLK_MON_TRIPS_TRIPS = (s.cnt CLK_MON_TRIPS_TRIPS).rd CLK_MON_TRIPS_TRIPS
        ∧ Frame [CLK_MON_CNT_COUNT, CLK_MON_TRIPS_TRIPS, CLK_STAT_REF_OK] [.time, .boot, .log, .tns] s t))
  ∧ (∀ (n : Nat) (s : State), s.up = true → s.is CLK_STAT_IRC_STABLE = true → s.boot.tripped = false →
      n ≤ 497 ∨ 503 ≤ n → n < 1024 → s.onRef = true →
      Runs (.monitorWindowEnd n) s (fun t => t.boot.stage = .run ∧ t.boot.tripped = true ∧ t.boot.ircFlag = true ∧ t.boot.trimFrozen = true
        ∧ t.rd CLK_STAT_STATE = 1 ∧ t.rd CLK_STAT_REF_OK = 0 ∧ t.rd CLK_STAT_PLL_LOCK = 0 ∧ t.rd SYS_NMI_CAUSE_CLKFAIL = 1
        ∧ t.rd CLK_MON_CNT_COUNT = n ∧ s.boot.windowAt + 10040 * nsU ≤ t.mono ∧ NorKept s t))
  ∧ (∀ s : State, s.armed = true → s.boot.tripped = false → s.onRef = true → s.is CLK_STAT_IRC_STABLE = false →
      Runs .missingEdgeTrip s (fun t => t.boot.stage = .pending ∧ t.boot.tripped = true ∧ t.boot.ircFlag = true ∧ t.boot.tripAt = s.mono
        ∧ t.rd CLK_STAT_STATE = 4 ∧ t.rd CLK_STAT_REF_OK = 0 ∧ t.rd CLK_STAT_PLL_LOCK = 0
        ∧ Frame [CLK_MON_TRIPS_TRIPS, CLK_STAT_REF_OK, CLK_STAT_PLL_LOCK, CLK_STAT_STATE] [.boot, .log, .tns] s t))
  ∧ (∀ s : State, s.up = true → s.boot.tripped = false → s.onRef = true → s.is CLK_STAT_IRC_STABLE = true →
      Runs .missingEdgeTrip s (fun t => t.boot.stage = .run ∧ t.boot.tripped = true ∧ t.boot.ircFlag = true ∧ t.boot.trimFrozen = true
        ∧ t.rd CLK_STAT_STATE = 1 ∧ t.rd CLK_STAT_REF_OK = 0 ∧ t.rd CLK_STAT_PLL_LOCK = 0 ∧ t.rd SYS_NMI_CAUSE_CLKFAIL = 1
        ∧ t.tai = s.tai + 40 * nsU ∧ t.mono = s.mono + 40 * nsU ∧ NorKept s t))
  ∧ (∀ s : State, s.armed = true → s.boot.tripped = false → s.onRef = false → s.boot.stage ≠ .window →
      Runs .missingEdgeTrip s (fun t => t.boot.tripped = true ∧ t.boot.stage = s.boot.stage ∧ t.rd CLK_STAT_REF_OK = 0
        ∧ Frame [CLK_MON_TRIPS_TRIPS, CLK_STAT_REF_OK] [.boot, .log, .tns] s t))
  ∧ (∀ s : State, s.boot.stage = .window → Runs .missingEdgeTrip s (fun t => t.boot = { s.boot with tripped := true } ∧ Frame [] [.boot] s t))
  ∧ (∀ (n : Nat) (s : State), s.boot.stage = .pending → Runs (.fallstartComplete n) s (fun t => t.boot.stage = s.boot.resume
        ∧ t.rd SYS_NMI_CAUSE_FALLSTART = 1 ∧ t.rd CLK_STAT_IRC_STABLE = 1 ∧ t.rd CLK_STAT_STATE = 1
        ∧ t.mono = s.mono + n * 20 * nsU + 40 * nsU ∧ t.tai = s.tai + (if s.boot.resume = .run then 40 * nsU else 0) ∧ NorKept s t))
  ∧ (∀ (us : Nat) (s : State), s.up = true → s.rd CLK_STAT_STATE = 1 → s.is CLK_CTRL_FO_RELOCK = true → s.boot.ircFlag = true →
      s.is CLK_STAT_PLL_LOCK = false → Runs (.ircRelockDone us) s (fun t => t.rd CLK_STAT_STATE = 2 ∧ t.rd CLK_STAT_PLL_LOCK = 1
        ∧ s.mono + us * 1000 * nsU ≤ t.mono ∧ NorKept s t))
  ∧ ∀ (c : Nat) (s : State), s.up = true → s.boot.trimFrozen = false → 100 ≤ s.boot.windows → s.rd CLK_STAT_STATE = 0 →
      s.is CLK_STAT_PLL_LOCK = true → c < 4096 → Runs (.ircTrim c) s (fun t => t.rd CLK_IRC_TRIM_TRIM = c
        ∧ s.boot.trimAt + secU ≤ t.mono ∧ Frame [CLK_IRC_TRIM_TRIM] [.time, .boot] s t)

/-- A CLK_SW command with no change waiting and no fail-over pending sets SW_BUSY and STATE 3; a change to an IRC that is not stable leaves
the multiplexer hung. While a change waits or a fail-over is pending the command only records event 0x0007. The change completes with the
state of its target; a return to the reference waits for a reference that passes and an IRC that is stable, and takes away the IRC flag.
Stated for acquisition disabled. -/
def Obligations.CommandedClockChanges : Prop :=
  (∀ (m : Master) (s : State), Accepted s m CLK_SW_TARGET.addr → s.is CLK_STAT_SW_BUSY = false → s.rd CLK_STAT_STATE ≠ 4 →
      Runs (.clkSwReturnRef m) s (fun t => t.rd CLK_STAT_SW_BUSY = 1 ∧ t.rd CLK_STAT_STATE = 3
          ∧ t.rd CLK_STAT_IRC_STABLE = s.rd CLK_STAT_IRC_STABLE ∧ t.boot.swTarget = 1 ∧ t.boot.stage = s.boot.stage)
      ∧ Runs (.clkSwIrcDirect m) s (fun t => t.rd CLK_STAT_SW_BUSY = 1 ∧ t.rd CLK_STAT_STATE = 3 ∧ t.boot.swTarget = 2
          ∧ t.boot.stage = (if s.is CLK_STAT_IRC_STABLE then s.boot.stage else .hung))
      ∧ Runs (.clkSwPllOnIrc m) s (fun t => t.rd CLK_STAT_SW_BUSY = 1 ∧ t.rd CLK_STAT_STATE = 3 ∧ t.boot.swTarget = 3
          ∧ t.boot.stage = (if s.is CLK_STAT_IRC_STABLE then s.boot.stage else .hung)))
  ∧ (∀ (m : Master) (s : State), Accepted s m CLK_SW_TARGET.addr → s.is CLK_STAT_SW_BUSY = true ∨ s.rd CLK_STAT_STATE = 4 → Listens s →
      Runs (.clkSwReturnRef m) s (fun t => Tells s t 0x0007 1 s.clkStat 0 0 ∧ Frame writeCounters [.fab, .gate, .log] s t)
      ∧ Runs (.clkSwIrcDirect m) s (fun t => Tells s t 0x0007 2 s.clkStat 0 0 ∧ Frame writeCounters [.fab, .gate, .log] s t)
      ∧ Runs (.clkSwPllOnIrc m) s (fun t => Tells s t 0x0007 3 s.clkStat 0 0 ∧ Frame writeCounters [.fab, .gate, .log] s t))
  ∧ (∀ (n : Nat) (s : State), s.up = true → s.is CLK_STAT_SW_BUSY = true →
      s.boot.swTarget ≠ 1 ∨ (s.boot.tripped = false ∧ s.is CLK_STAT_IRC_STABLE = true) →
      1 ≤ s.boot.swTarget → s.boot.swTarget ≤ 3 → s.is ACQ_CFG_EN = false →
      Runs (.clockSwitchComplete n) s (fun t => t.rd CLK_STAT_SW_BUSY = 0
        ∧ t.rd CLK_STAT_STATE = (if s.boot.swTarget = 1 then 0 else s.boot.swTarget - 1)
        ∧ s.mono + n * 5 * nsU ≤ t.mono ∧ (s.boot.swTarget = 1 → t.boot.ircFlag = false) ∧ NorKept s t))
  ∧ ∀ (n : Nat) (s : State), s.boot.swTarget = 1 → s.boot.tripped = true ∨ s.is CLK_STAT_IRC_STABLE = false →
      Runs (.clockSwitchComplete n) s (fun t => Frame [] [] s t)

/-- A unit without demand has its gate closed once it has been idle for its time, and nothing else changes but the time that passes; one
that does not quiesce has its access aborted with KIND 7, its gate forced and its reset due: the Elision engine's queue is then gone, the
host logic moves no burst, and nothing else of the DRAM PHY is seen to change. The domain being switched goes off with PWR_STAT.ON
cleared, or one that does not power is marked and stays off; PD7 coming on reads as on. PWR_HIB acts on 0x0000A501 alone and leaves
PD0 alone on. The real-time clock's alarm wakes the part with RTCWAKE alone, or without main supplies is held until they return. -/
def Obligations.GatesDomainsHibernate : Prop :=
  (∀ (u : Nat) (s : State), s.up = true → u < 19 → s.gateWanted u = false →
      Runs (.gateClose u) s (fun t => bit t.gate.opened u = 0 ∧ (u = 17 → s.gate.phyAt + 4000 * nsU ≤ t.mono)
        ∧ (u = 18 → s.gate.hostAt + 100000 * nsU ≤ t.mono) ∧ Frame [] [.time, .gate] s t))
  ∧ (∀ (u a : Nat) (m : Master) (w : Bool) (s : State), s.up = true → u < 19 → bit s.gate.opened u = 1 → a < 2 ^ 32 →
      Runs (.quiesceTimeout u a m w) s (fun t => bit t.gate.opened u = 0 ∧ bit t.gate.reset u = 1
        ∧ t.rd SYS_ERR_INFO_KIND = 7 ∧ t.rd SYS_ERR_ADDR_ADDR = a ∧ (u = 16 → t.els = []) ∧ (u = 18 → t.fab.dpOp = 0 ∧ t.fab.dpLen = 0)))
  ∧ (∀ (a : Nat) (m : Master) (w : Bool) (s : State), s.up = true → bit s.gate.opened 17 = 1 → a < 2 ^ 32 → Listens s →
      Runs (.quiesceTimeout 17 a m w) s (fun t => Tells s t 0x0011 17 a (mNum m) 0
        ∧ t.rd CLK_FORCED_CNT_FORCED = (s.cnt CLK_FORCED_CNT_FORCED).rd CLK_FORCED_CNT_FORCED
        ∧ Frame [SYS_ERR_ADDR_ADDR, SYS_ERR_INFO_MASTER, SYS_ERR_INFO_WRITE, SYS_ERR_INFO_WIDTH, SYS_ERR_INFO_KIND, CLK_FORCED_CNT_FORCED]
            [.gate, .fab, .log] s t))
  ∧ (∀ (k : Nat) (s : State), s.up = true → s.nextSwitch = some (k, true) →
      Runs (.domainSwitchStep false) s (fun t => bit t.boot.pwrFail k = 1 ∧ t.rd PWR_STAT_ON = s.rd PWR_STAT_ON ∧ NorKept s t ∧ DramKept s t))
  ∧ (∀ (k : Nat) (b : Bool) (s : State), s.up = true → s.nextSwitch = some (k, false) →
      Runs (.domainSwitchStep b) s (fun t => bit (t.rd PWR_STAT_ON) k = 0 ∧ NorKept s t))
  ∧ (∀ s : State, s.up = true → s.nextSwitch = some (7, true) →
      Runs (.domainSwitchStep true) s (fun t => bit (t.rd PWR_STAT_ON) 7 = 1 ∧ NorKept s t ∧ DramKept s t))
  ∧ (∀ (m : Master) (s : State), Accepted s m PWR_HIB_CMD.addr →
      Runs (.hibernate m 0xA501) s (fun t => t.boot.stage = .hibernate ∧ t.rd PWR_STAT_ON = 1 ∧ t.red.live = false ∧ NorKept s t))
  ∧ (∀ (m : Master) (v : Nat) (s : State), Accepted s m PWR_HIB_CMD.addr → v < 2 ^ 32 → v ≠ 0xA501 →
      Runs (.hibernate m v) s (fun t => Frame writeCounters [.fab, .gate] s t))
  ∧ (∀ s : State, s.boot.stage = .hibernate → s.is PWR_WAKE_CFG_RTC = true → s.boot.alarmHeld = false →
      Runs (.rtcAlarmWake true) s (fun t => t.boot.stage = .ircStart ∧ t.boot.wakeCause = 3 ∧ CauseAlone t SYS_RST_CAUSE_RTCWAKE
        ∧ t.rtc / secU % 2 ^ 32 = s.rd PWR_WAKE_SEC_SEC % 2 ^ 32 ∧ NorKept s t)
      ∧ Runs (.rtcAlarmWake false) s (fun t => t.boot.alarmHeld = true ∧ t.boot.stage = .hibernate
        ∧ t.rtc / secU % 2 ^ 32 = s.rd PWR_WAKE_SEC_SEC % 2 ^ 32 ∧ Frame [] [.time, .boot] s t))
  ∧ ∀ s : State, s.boot.stage = .hibernate → s.boot.alarmHeld = true →
      Runs .mainSupplyReturn s (fun t => t.boot.stage = .ircStart ∧ t.boot.alarmHeld = false ∧ CauseAlone t SYS_RST_CAUSE_RTCWAKE
        ∧ NorKept s t)

/-- PFAIL_N low sets PFAIL, clears COPY_DONE and is counted; with PD5 on the metering registers are copied, and a running quantity engine
pauses. The copy's end sets COPY_DONE with nothing else changed but time and the logs; PFAIL_N high again ends the pause. -/
def Obligations.PfailPausesAndResumes : Prop :=
  (∀ s : State, s.up = true → s.is PWR_PFAIL_STAT_PFAIL = false → s.qtyRuns = false →
      Runs .pfailAssert s (fun t => t.rd PWR_PFAIL_STAT_PFAIL = 1 ∧ t.rd PWR_PFAIL_STAT_COPY_DONE = 0 ∧ t.boot.pfailAt = s.mono
        ∧ t.rd PWR_PFAIL_CNT_COUNT = (s.cnt PWR_PFAIL_CNT_COUNT).rd PWR_PFAIL_CNT_COUNT
        ∧ (s.on 5 = true → t.qty.copyAt = s.mono) ∧ (s.on 5 = false → t.qty = s.qty)
        ∧ Frame [PWR_PFAIL_STAT_PFAIL, PWR_PFAIL_STAT_COPY_DONE, PWR_PFAIL_CNT_COUNT, QTY_RET_STAT_A_OK, QTY_RET_STAT_B_OK] [.boot, .qty] s t))
  ∧ (∀ s : State, s.up = true → s.is PWR_PFAIL_STAT_PFAIL = false → s.qtyRuns = true →
      Runs .pfailAssert s (fun t => t.rd PWR_PFAIL_STAT_PFAIL = 1 ∧ t.rd PWR_PFAIL_STAT_COPY_DONE = 0 ∧ t.boot.pfailAt = s.mono
        ∧ s.mono ≤ t.mono ∧ t.qty.paused = some t.mono ∧ t.qty.copyAt = t.mono ∧ NorKept s t ∧ DramKept s t))
  ∧ (∀ (us : Nat) (s : State), s.up = true → s.is PWR_PFAIL_STAT_PFAIL = true → s.is PWR_PFAIL_STAT_COPY_DONE = false →
      Runs (.pfailCopyDone us) s (fun t => t.rd PWR_PFAIL_STAT_COPY_DONE = 1 ∧ s.boot.pfailAt + us * 1000 * nsU ≤ t.mono
        ∧ Frame [PWR_PFAIL_STAT_COPY_DONE] [.time, .log] s t))
  ∧ ∀ s : State, s.up = true → s.is PWR_PFAIL_STAT_PFAIL = true →
      Runs .pfailRelease s (fun t => t.rd PWR_PFAIL_STAT_PFAIL = 0 ∧ t.qty.paused = none
        ∧ (s.qty.paused = none → Frame [PWR_PFAIL_STAT_PFAIL] [.log] s t))

/-- One register of each access code: an RW field reads back what was written; an RWA field keeps its value in force and its buffer takes
the value; the three buffered copies of an RWV field take it; RO and ROC fields ignore it; an RWK field takes it while its block is
unlocked, and under the lock keeps its value with event 0xD011. A write narrower than a word is refused with KIND 1 and changes no register but the
error ones. Of two writes of one RW register in a cycle the host's stands, and the contention is counted and recorded. -/
def Obligations.RegisterWriteByAccessCode : Prop :=
  (∀ (m : Master) (v : Nat) (s : State), Accepted s m 0x800C → v < 2 ^ 32 →
      Runs (.registerWrite ⟨m, 0x800C, 4, v⟩ none) s (fun t => t.rd PWR_WAKE_CFG_RTC = bit v 0 ∧ t.rd PWR_WAKE_CFG_FASTWAKE = bit v 1
        ∧ Frame (PWR_WAKE_CFG_RTC :: PWR_WAKE_CFG_FASTWAKE :: writeCounters) [.fab, .gate] s t))
  ∧ (∀ (m : Master) (v : Nat) (s : State), Accepted s m 0x20048 → v < 2 ^ 32 →
      Runs (.registerWrite ⟨m, 0x20048, 4, v⟩ none) s (fun t => t.rdBuf TNS_HOLD_HOLD_MAX = bits v 0 16 ∧ t.rdBuf TNS_HOLD_RATE = bits v 16 16
        ∧ Frame writeCounters [.bufs, .fab, .gate] s t))
  ∧ (∀ (m : Master) (v : Nat) (s : State), Accepted s m 0xE0000 → v < 2 ^ 32 →
      Runs (.registerWrite ⟨m, 0xE0000, 4, v⟩ none) s (fun t => (∀ k, k < 3 → t.rdBuf (copyOf k RED_CFG_ROLE) = bits v 4 4)
        ∧ (∀ k, k < 3 → t.rdBuf (copyOf k RED_CFG_PAIR_EN) = bit v 0) ∧ Frame writeCounters [.bufs, .fab, .gate] s t))
  ∧ (∀ (m : Master) (a v : Nat) (s : State), a = 0x64 ∨ a = CLK_MON_TRIPS_TRIPS.addr → Accepted s m a → v < 2 ^ 32 →
      Runs (.registerWrite ⟨m, a, 4, v⟩ none) s (fun t => Frame writeCounters [.fab, .gate] s t))
  ∧ (∀ (m : Master) (v : Nat) (s : State), Accepted s m 0x100000 → v < 2 ^ 32 → s.is (BLK_LOCK_LOCK 19) = false →
      Runs (.registerWrite ⟨m, 0x100000, 4, v⟩ none) s (fun t => t.rd HST_CFG_PORT = bit v 0 ∧ t.rd HST_CFG_PINS_OFF = bit v 1
        ∧ Frame (HST_CFG_PORT :: HST_CFG_PINS_OFF :: writeCounters) [.fab, .gate] s t))
  ∧ (∀ (m : Master) (v : Nat) (s : State), Accepted s m 0x100000 → v < 2 ^ 32 → s.is (BLK_LOCK_LOCK 19) = true → Listens s →
      Runs (.registerWrite ⟨m, 0x100000, 4, v⟩ none) s (fun t => Tells s t 0xD011 0x100000 v (mNum m) 1
        ∧ Frame writeCounters [.fab, .gate, .log] s t))
  ∧ (∀ (v w : Nat) (s : State), Accepted s .mc 0x800C → Accepted s .host 0x800C → v < 2 ^ 32 → w < 2 ^ 32 → Listens s →
      Runs (.registerWrite ⟨.mc, 0x800C, 4, v⟩ (some ⟨.host, 0x800C, 4, w⟩)) s (fun t => t.rd PWR_WAKE_CFG_RTC = bit w 0
        ∧ t.rd PWR_WAKE_CFG_FASTWAKE = bit w 1 ∧ t.rd SYS_FAB_CONT_COUNT = (s.cnt SYS_FAB_CONT_COUNT).rd SYS_FAB_CONT_COUNT
        ∧ Tells s t 0xD010 0x800C v w 0
        ∧ Frame (PWR_WAKE_CFG_RTC :: PWR_WAKE_CFG_FASTWAKE :: SYS_FAB_CONT_COUNT :: writeCounters) [.fab, .gate, .log] s t))
  ∧ ∀ (m : Master) (a v z : Nat) (s : State), s.up = true → inWindow a = true → z = 1 ∨ z = 2 →
      Runs (.registerWrite ⟨m, a, z, v⟩ none) s (fun t => t.rd SYS_ERR_INFO_KIND = 1 ∧ t.rd SYS_ERR_INFO_WRITE = 1
        ∧ Frame [SYS_ERR_ADDR_ADDR, SYS_ERR_INFO_MASTER, SYS_ERR_INFO_WRITE, SYS_ERR_INFO_WIDTH, SYS_ERR_INFO_KIND] [.fab, .gate, .log] s t)

/-- Writing 1 to LOCK locks the block; a set LOCK keeps its value with event 0xD011. CLRCNT sets every ROC counter of its block to its
default, the clear coming before a count of the same cycle, and in SYS before the count of the write itself. NMI_ACK clears exactly the acknowledged causes. The voter writes the majority over a copy
that disagrees, and over three that all differ the safe value, with the VOTE cause. -/
def Obligations.LocksCountersCausesVoter : Prop :=
  (∀ (m : Master) (b v : Nat) (s : State), b < 20 → Accepted s m (BLK_LOCK_LOCK b).addr → s.is (BLK_LOCK_LOCK b) = false →
      Runs (.blkLock m b v) s (fun t => t.rd (BLK_LOCK_LOCK b) = v % 2 ∧ Frame (BLK_LOCK_LOCK b :: writeCounters) [.fab, .gate] s t))
  ∧ (∀ (m : Master) (b v : Nat) (s : State), b < 20 → Accepted s m (BLK_LOCK_LOCK b).addr → s.is (BLK_LOCK_LOCK b) = true → Listens s →
      Runs (.blkLock m b v) s (fun t => Tells s t 0xD011 (BLK_LOCK_LOCK b).addr v (mNum m) 1 ∧ Frame writeCounters [.fab, .gate, .log] s t))
  ∧ (∀ (m : Master) (b : Nat) (s : State), b < 20 → Accepted s m (BLK_CLR_CLRCNT b).addr →
      Runs (.blkClr m b []) s (fun t => (∀ f : Field, f.lo < 32 → blkOfAddr f.addr = b → rocKey (fieldKey f) = true →
            b ≠ 0 ∨ fieldKey f ∉ writeCounters.map fieldKey → t.rd f = f.dflt)
        ∧ (b = 0 → t.rd (match m with
          | .mc => SYS_FAB_WR_MC_COUNT
          | .host => SYS_FAB_WR_HC_COUNT) = 1)
        ∧ KeepsRest [.fab, .gate, .log, .ports] s t))
  ∧ (∀ (m : Master) (b : Nat) (f : Field) (s : State), b < 20 → Accepted s m (BLK_CLR_CLRCNT b).addr → f.acc = .roc → f.lo < 32 →
      blkOfAddr f.addr = b → rocKey (fieldKey f) = true → f.dflt = 0 → 0 < f.width → b ≠ 0 ∨ fieldKey f ∉ writeCounters.map fieldKey →
      Runs (.blkClr m b [f]) s (fun t => t.rd f = 1))
  ∧ (∀ (m : Master) (mask : Nat) (s : State), Accepted s m SYS_NMI_ACK_MASK.addr →
      Runs (.nmiAck m mask 0) s (fun t => (∀ i, i < 5 → t.rd { SYS_NMI_CAUSE_CLKFAIL with lo := i }
            = (if bit mask i = 1 then 0 else s.rd { SYS_NMI_CAUSE_CLKFAIL with lo := i }))
        ∧ Frame ([0, 1, 2, 3, 4].map (fun i => { SYS_NMI_CAUSE_CLKFAIL with lo := i }) ++ writeCounters) [.fab, .gate] s t))
  ∧ (∀ (v : Nat) (s : State), s.up = true → v < 16 →
      vote (s.rd (copyOf 0 RED_CFG_ROLE)) (s.rd (copyOf 1 RED_CFG_ROLE)) (s.rd (copyOf 2 RED_CFG_ROLE)) = some v →
      Runs .voteSweep s (fun t => ∀ k, k < 3 → t.rd (copyOf k RED_CFG_ROLE) = v))
  ∧ ∀ s : State, s.up = true →
      vote (s.rd (copyOf 0 RED_CFG_ROLE)) (s.rd (copyOf 1 RED_CFG_ROLE)) (s.rd (copyOf 2 RED_CFG_ROLE)) = none →
      Runs .voteSweep s (fun t => (∀ k, k < 3 → t.rd (copyOf k RED_CFG_ROLE) = 0) ∧ t.rd SYS_NMI_CAUSE_VOTE = 1)

/-- A command within the table sets BUSY and no flag, and its end clears BUSY; shown in full on the node table, where a read puts the entry's
buffered fields into the port's buffer and a write takes them from it without changing the values in force. An entry past the table's end is flagged RANGE and
nothing moves; a write to the key slots is flagged DENIED. A command given while BUSY is refused with KIND 5 and event 0xD040. -/
def Obligations.TablePorts : Prop :=
  (∀ (m : Master) (b : Nat) (s : State), b < 20 → Accepted s m (TP_CMD_OP b (mNum m)).addr → s.is (TP_STAT_BUSY b (mNum m)) = false →
      s.rd (TP_IDX_ENTRY b (mNum m)) < (tblSize b (s.rd (TP_IDX_TABLE b (mNum m)))).1 → hasTables b = true →
      Runs (.tableRead m b) s (fun t => t.rd (TP_STAT_BUSY b (mNum m)) = 1 ∧ t.rd (TP_STAT_RANGE b (mNum m)) = 0 ∧ KeepsRest [.free, .fab, .gate] s t)
      ∧ Runs (.tableWrite m b) s (fun t => t.rd (TP_STAT_BUSY b (mNum m)) = 1 ∧ t.rd (TP_STAT_RANGE b (mNum m)) = 0
          ∧ t.rd (TP_STAT_DENIED b (mNum m)) = b2n (b == 17) ∧ KeepsRest [.bufs, .free, .fab, .gate, .log] s t))
  ∧ (∀ (m : Master) (b : Nat) (s : State), b < 20 → Accepted s m (TP_CMD_OP b (mNum m)).addr → s.is (TP_STAT_BUSY b (mNum m)) = false →
      (tblSize b (s.rd (TP_IDX_TABLE b (mNum m)))).1 ≤ s.rd (TP_IDX_ENTRY b (mNum m)) → hasTables b = true →
      Runs (.tableRead m b) s (fun t => t.rd (TP_STAT_RANGE b (mNum m)) = 1
        ∧ Frame ([TP_STAT_BUSY b (mNum m), TP_STAT_RANGE b (mNum m), TP_STAT_DENIED b (mNum m)] ++ writeCounters) [.fab, .gate] s t)
      ∧ Runs (.tableWrite m b) s (fun t => t.rd (TP_STAT_RANGE b (mNum m)) = 1
          ∧ Frame ([TP_STAT_BUSY b (mNum m), TP_STAT_RANGE b (mNum m), TP_STAT_DENIED b (mNum m)] ++ writeCounters) [.fab, .gate] s t))
  ∧ (∀ (m : Master) (e : Nat) (s : State), Accepted s m (TP_CMD_OP 9 (mNum m)).addr → s.is (TP_STAT_BUSY 9 (mNum m)) = false →
      s.rd (TP_IDX_TABLE 9 (mNum m)) = 3 → s.rd (TP_IDX_ENTRY 9 (mNum m)) = e → e < 4096 →
      Runs (.tableRead m 9) s (fun t => t.rd (TP_BUF 9 (mNum m) 0)
          = (s.rdBuf (NOD_EN e) + s.rdBuf (NOD_GROUP e) * 2 + s.rdBuf (NOD_GRP_EN e) * 64) % 2 ^ 32)
      ∧ Runs (.tableWrite m 9) s (fun t => t.rdBuf (NOD_GROUP e) = bits (s.rd (TP_BUF 9 (mNum m) 0)) 1 5
          ∧ t.rdBuf (NOD_PH e) = bits (s.rd (TP_BUF 9 (mNum m) 1)) 0 15 ∧ t.rdBuf (NOD_FCOL e) = bits (s.rd (TP_BUF 9 (mNum m) 1)) 16 12
          ∧ t.rd (NOD_GROUP e) = s.rd (NOD_GROUP e) ∧ t.rd (NOD_PH e) = s.rd (NOD_PH e)))
  ∧ (∀ (m : Master) (b : Nat) (s : State), b < 20 → hasTables b = true → Accepted s m (TP_CMD_OP b (mNum m)).addr →
      s.is (TP_STAT_BUSY b (mNum m)) = true → Listens s →
      Runs (.tableRead m b) s (fun t => t.rd SYS_ERR_INFO_KIND = 5
        ∧ Tells s t 0xD040 b (s.rd (TP_IDX_ENTRY b (mNum m)) + s.rd (TP_IDX_TABLE b (mNum m)) * 65536) (mNum m) 0
        ∧ Frame [SYS_ERR_ADDR_ADDR, SYS_ERR_INFO_MASTER, SYS_ERR_INFO_WRITE, SYS_ERR_INFO_WIDTH, SYS_ERR_INFO_KIND] [.fab, .gate, .log] s t)
      ∧ Runs (.tableWrite m b) s (fun t => t.rd SYS_ERR_INFO_KIND = 5
        ∧ Tells s t 0xD040 b (s.rd (TP_IDX_ENTRY b (mNum m)) + s.rd (TP_IDX_TABLE b (mNum m)) * 65536) (mNum m) 0
        ∧ Frame [SYS_ERR_ADDR_ADDR, SYS_ERR_INFO_MASTER, SYS_ERR_INFO_WRITE, SYS_ERR_INFO_WIDTH, SYS_ERR_INFO_KIND] [.fab, .gate, .log] s t))
  ∧ ∀ (m : Master) (b : Nat) (s : State), s.up = true → hasTables b = true → s.is (TP_STAT_BUSY b (mNum m)) = true →
      Runs (.tableCommandDone m b) s (fun t => t.rd (TP_STAT_BUSY b (mNum m)) = 0 ∧ Frame [TP_STAT_BUSY b (mNum m)] [] s t)

/-- A read of a pair's low word puts the high word into the master's shadow, and a read of the high word answers from it. A change of the PCIe link is shown
and recorded. QSPI reads answer a failed word as 0 and set ERR; QSPI writes go to consecutive addresses; the status byte gives ERR and the lines, and
clears ERR; a word cut short is recorded. -/
def Obligations.PairsAndHostLinks : Prop :=
  (∀ (m : Master) (a : Nat) (s : State), s.up = true → busFail s m false 4 a = none → pairOf a = 1 → isPort (mNum m) a = false →
      s.regFail false a = false → a ≠ 0x100038 →
      Runs (.pairLowRead ⟨m, a, 4, 0⟩) s (fun t => assoc t.fab.shadow (shadowKey m (a + 4))
          = some ((((s.hostGate m).respond m .served).draw.2).wordOf m ((s.hostGate m).respond m .served).draw.1 (a + 4))
        ∧ Frame [] [.free, .fab, .gate] s t))
  ∧ (∀ (m : Master) (a w : Nat) (s : State), s.up = true → busFail s m false 4 a = none → pairOf a = 2 → isPort (mNum m) a = false →
      s.regFail false a = false → a ≠ 0x100038 → assoc s.fab.shadow (shadowKey m a) = some w →
      Runs (.pairLowRead ⟨m, a, 4, 0⟩) s (fun t => (match m with
          | .mc => t.fab.rdMc
          | .host => t.fab.rdHost) = [w] ∧ Frame [] [.free, .fab, .gate] s t))
  ∧ (∀ (u w p : Nat) (s : State), s.up = true → s.on 7 = true → s.boot.hostPort = 0 → u < 2 → w < 4 → p < 4 →
      Runs (.pcieLinkChange u w p) s (fun t => t.rd HST_STAT_LINK_UP = u ∧ t.rd HST_STAT_WIDTH = w ∧ t.rd HST_STAT_SPEED = p
        ∧ (Listens s → s.rd HST_STAT_LINK_UP ≠ u → Tells s t 0xD060 u w p 0)
        ∧ Frame [HST_STAT_LINK_UP, HST_STAT_WIDTH, HST_STAT_SPEED] [.log] s t))
  ∧ (∀ s : State, s.qspiOn = true → busFail s .host false 4 0 = none →
      Runs (.qspiRead 0 1) s (fun t => t.fab.rdHost = [s.rd SYS_ID_STEP * 2 ^ SYS_ID_STEP.lo + s.rd SYS_ID_PART * 2 ^ SYS_ID_PART.lo]
        ∧ Frame [] [.free, .fab, .gate] s t))
  ∧ (∀ (a : Nat) (s : State), s.qspiOn = true → inWindow a = false →
      Runs (.qspiRead a 1) s (fun t => t.fab.rdHost = [0] ∧ t.fab.qspiErr = true ∧ t.rd SYS_ERR_INFO_KIND = 3))
  ∧ (∀ (x y : Nat) (s : State), s.qspiOn = true → busFail s .host true 4 0x800C = none → x < 2 ^ 32 → y < 2 ^ 32 →
      Runs (.qspiWrite 0x800C [x, y]) s (fun t => t.rd PWR_WAKE_CFG_RTC = bit x 0 ∧ t.rd PWR_WAKE_CFG_FASTWAKE = bit x 1
        ∧ t.rd PWR_WAKE_SEC_SEC = y ∧ Frame (PWR_WAKE_CFG_RTC :: PWR_WAKE_CFG_FASTWAKE :: PWR_WAKE_SEC_SEC :: writeCounters) [.fab, .gate] s t))
  ∧ (∀ s : State, s.qspiOn = true → Runs .qspiStatus s (fun t =>
        t.fab.rdHost = [b2n s.fab.qspiErr + 2 * b2n (s.irqLines != 0) + 4 * b2n s.nmiLine] ∧ t.fab.qspiErr = false ∧ Frame [] [.fab] s t))
  ∧ ∀ (a c n : Nat) (s : State), s.qspiOn = true → Listens s →
      Runs (.qspiWordDiscard a c n) s (fun t => Tells s t 0xD070 a c n 0 ∧ Frame [] [.log] s t)

/-- With PAIR 0 a read answers the word at ADDR and advances it by 4; a write stores its four bytes there, least significant first, and
advances it. With PAIR 1 the first read answers the low word and holds the high one, which the second answers, advancing ADDR by 8; the
first write is held, and the second stores both words. A write to one of the first two partitions is denied and stores nothing. A burst
command sets BUSY and moves ADDR past the burst; at its end every word has moved, BUSY clears and a read sets READY, and ECC where a word was
uncorrectable; an abort leaves ADDR at the next word, the words moved before it in the window or in memory. With the DRAM in self-refresh these accesses wait (model's choice, log 50). -/
def Obligations.DataPort : Prop :=
  (∀ s : State, s.up = true → busFail s .host false 4 0x100038 = none → s.ircDirect = false → s.is HST_DP_STAT_BUSY = false →
      s.is HST_DP_CTRL_PAIR = false → s.dpRefuse false 4 = none →
      Runs (.dpDataRead false) s (fun t => t.fab.rdHost = [s.dpWord s.dpOfs] ∧ t.rd HST_DP_ADDR_LO_ADDR = (s.dpOfs + 4) % 2 ^ 32
        ∧ Frame [HST_DP_STAT_RANGE, HST_DP_STAT_DENIED, HST_DP_STAT_ECC, HST_DP_ADDR_LO_ADDR, HST_DP_ADDR_HI_ADDR] [.free, .gate, .fab] s t))
  ∧ (∀ s : State, s.up = true → busFail s .host false 4 0x100038 = none → s.ircDirect = false → s.is HST_DP_STAT_BUSY = false →
      s.is HST_DP_CTRL_PAIR = true → s.fab.dpHeld = none → s.dpRefuse false 8 = none →
      Runs (.dpDataRead false) s (fun t => t.fab.rdHost = [s.dpWord s.dpOfs] ∧ t.fab.dpHeld = some (false, s.dpWord (s.dpOfs + 4))
        ∧ Frame [HST_DP_STAT_RANGE, HST_DP_STAT_DENIED, HST_DP_STAT_ECC] [.free, .gate, .fab] s t))
  ∧ (∀ (v : Nat) (s : State), s.up = true → busFail s .host false 4 0x100038 = none → s.ircDirect = false → s.is HST_DP_STAT_BUSY = false →
      s.is HST_DP_CTRL_PAIR = true → s.fab.dpHeld = some (false, v) →
      Runs (.dpDataRead false) s (fun t => t.fab.rdHost = [v] ∧ t.fab.dpHeld = none ∧ t.rd HST_DP_ADDR_LO_ADDR = (s.dpOfs + 8) % 2 ^ 32
        ∧ Frame [HST_DP_ADDR_LO_ADDR, HST_DP_ADDR_HI_ADDR] [.free, .gate, .fab] s t))
  ∧ (∀ (v : Nat) (s : State), Accepted s .host 0x100038 → s.ircDirect = false → s.is HST_DP_STAT_BUSY = false → s.is HST_DP_CTRL_PAIR = false →
      s.dpRefuse true 4 = none → v < 2 ^ 32 →
      Runs (.dpDataWrite v) s (fun t => t.dram = Memory.writeN dramBlank s.dram (s.partBase (s.rd HST_DP_SEL_PART) + s.dpOfs) (leBytes 4 v)
        ∧ t.rd HST_DP_ADDR_LO_ADDR = (s.dpOfs + 4) % 2 ^ 32
        ∧ Frame ([HST_DP_STAT_RANGE, HST_DP_STAT_DENIED, HST_DP_STAT_ECC, HST_DP_ADDR_LO_ADDR, HST_DP_ADDR_HI_ADDR] ++ writeCounters)
            [.gate, .fab, .dram] s t))
  ∧ (∀ (v : Nat) (s : State), Accepted s .host 0x100038 → s.ircDirect = false → s.is HST_DP_STAT_BUSY = false → s.is HST_DP_CTRL_PAIR = true →
      s.fab.dpHeld = none → s.dpRefuse true 8 = none → v < 2 ^ 32 →
      Runs (.dpDataWrite v) s (fun t => t.fab.dpHeld = some (true, v)
        ∧ Frame ([HST_DP_STAT_RANGE, HST_DP_STAT_DENIED, HST_DP_STAT_ECC] ++ writeCounters) [.gate, .fab] s t))
  ∧ (∀ (v w : Nat) (s : State), Accepted s .host 0x100038 → s.ircDirect = false → s.is HST_DP_STAT_BUSY = false → s.is HST_DP_CTRL_PAIR = true →
      s.fab.dpHeld = some (true, w) → v < 2 ^ 32 →
      Runs (.dpDataWrite v) s (fun t => t.dram = Memory.writeN dramBlank (Memory.writeN dramBlank s.dram
            (s.partBase (s.rd HST_DP_SEL_PART) + s.dpOfs) (leBytes 4 w)) (s.partBase (s.rd HST_DP_SEL_PART) + s.dpOfs + 4) (leBytes 4 v)
        ∧ t.fab.dpHeld = none ∧ t.rd HST_DP_ADDR_LO_ADDR = (s.dpOfs + 8) % 2 ^ 32
        ∧ Frame ([HST_DP_ADDR_LO_ADDR, HST_DP_ADDR_HI_ADDR] ++ writeCounters) [.gate, .fab, .dram] s t))
  ∧ (∀ (v : Nat) (s : State), Accepted s .host 0x100038 → s.ircDirect = false → s.is HST_DP_STAT_BUSY = false → s.is HST_DP_CTRL_PAIR = false →
      s.rd HST_DP_SEL_PART < 2 →
      Runs (.dpDataWrite v) s (fun t => t.rd HST_DP_STAT_DENIED = 1
        ∧ Frame ([HST_DP_STAT_RANGE, HST_DP_STAT_DENIED, HST_DP_STAT_ECC] ++ writeCounters) [.gate, .fab, .log] s t))
  ∧ (∀ s : State, Accepted s .host HST_DP_CMD_OP.addr → s.is HST_DP_STAT_BUSY = false → s.dpRefuse false (4 * s.dpBlen) = none →
      Runs .dpBurstRead s (fun t => t.rd HST_DP_STAT_BUSY = 1 ∧ t.rd HST_DP_STAT_READY = 0
        ∧ t.fab.dpOp = 1 + 4 * s.rd HST_DP_SEL_PART ∧ t.fab.dpLen = s.dpBlen ∧ t.rd HST_DP_ADDR_LO_ADDR = (s.dpOfs + 4 * s.dpBlen) % 2 ^ 32
        ∧ KeepsRest [.gate, .fab] s t))
  ∧ (∀ s : State, Accepted s .host HST_DP_CMD_OP.addr → s.is HST_DP_STAT_BUSY = false → s.dpRefuse true (4 * s.dpBlen) = none →
      Runs .dpBurstWrite s (fun t => t.rd HST_DP_STAT_BUSY = 1 ∧ t.fab.dpOp = 2 + 4 * s.rd HST_DP_SEL_PART ∧ t.fab.dpLen = s.dpBlen
        ∧ t.rd HST_DP_ADDR_LO_ADDR = (s.dpOfs + 4 * s.dpBlen) % 2 ^ 32 ∧ KeepsRest [.gate, .fab] s t))
  ∧ (∀ s : State, s.up = true → s.on 7 = true → s.ircDirect = false → s.is HST_DP_STAT_BUSY = true → s.fab.dpOp % 4 = 1 → s.fab.dpLen ≤ 256 →
      Runs (.dpBurstDone []) s (fun t => t.rd HST_DP_STAT_BUSY = 0 ∧ t.rd HST_DP_STAT_READY = 1
        ∧ (∀ i, i < s.fab.dpLen → t.rd (HST_WIN i) = leAt (s.dramRead (s.partBase (s.fab.dpOp / 4) + s.fab.dpAddr + 4 * i) 4) 0 4)
        ∧ KeepsRest [.fab] s t))
  ∧ (∀ (e : List Nat) (i : Nat) (s : State), s.up = true → s.on 7 = true → s.ircDirect = false → s.is HST_DP_STAT_BUSY = true →
      s.fab.dpOp % 4 = 1 → i ∈ e → i < s.fab.dpLen → s.fab.dpLen ≤ 256 →
      Runs (.dpBurstDone e) s (fun t => t.rd HST_DP_STAT_ECC = 1 ∧ t.rd HST_DP_STAT_BUSY = 0 ∧ t.rd HST_DP_STAT_READY = 1))
  ∧ (∀ s : State, s.up = true → s.on 7 = true → s.ircDirect = false → s.is HST_DP_STAT_BUSY = true → s.fab.dpOp % 4 = 2 →
      Runs (.dpBurstDone []) s (fun t => t.rd HST_DP_STAT_BUSY = 0
        ∧ t.dram = (List.range s.fab.dpLen).foldl (fun d i => Memory.writeN dramBlank d
            (s.partBase (s.fab.dpOp / 4) + s.fab.dpAddr + 4 * i) (leBytes 4 (s.rd (HST_WIN i)))) s.dram
        ∧ Frame [HST_DP_STAT_BUSY] [.fab, .dram] s t))
  ∧ (∀ (n : Nat) (s : State), Accepted s .host HST_DP_CMD_OP.addr → s.is HST_DP_STAT_BUSY = true →
      Runs (.dpBurstAbort n) s (fun t => t.rd HST_DP_STAT_BUSY = 0 ∧ t.fab.dpLen = 0
        ∧ t.rd HST_DP_ADDR_LO_ADDR = (s.fab.dpAddr + 4 * min n s.fab.dpLen) % 2 ^ 32
        ∧ (s.fab.dpOp % 4 = 1 → ∀ i, i < min n s.fab.dpLen →
            t.rd (HST_WIN i) = leAt (s.dramRead (s.partBase (s.fab.dpOp / 4) + s.fab.dpAddr + 4 * i) 4) 0 4)
        ∧ (s.fab.dpOp % 4 ≠ 1 → t.dram = (List.range (min n s.fab.dpLen)).foldl (fun d i => Memory.writeN dramBlank d
              (s.partBase (s.fab.dpOp / 4) + s.fab.dpAddr + 4 * i) (leBytes 4 (s.rd (HST_WIN i)))) s.dram
            ∧ KeepsRest [.fab, .gate, .dram] s t)))
  ∧ ∀ (e : List Nat) (v : Nat) (s : State), s.ircDirect = true → busFail s .host true 4 0x100038 = none →
      Runs (.dpBurstDone e) s (fun t => Frame [] [] s t) ∧ Runs (.dpDataWrite v) s (fun t => Frame [] [] s t)

/-- The strobe copies the buffer of each strobed block that is powered into its pending copy, and nothing in force changes; when a waiting block of
those that do not work in slots takes effect, the values it holds are in force and it waits no more, shown on the clock block. -/
def Obligations.ApplyStrobeAndTakeEffect : Prop :=
  (∀ (m : Master) (mask b : Nat) (s : State), Accepted s m SYS_APPLY_MASK.addr → b < 20 → bit mask b = 1 → blkBuffered b = true →
      s.on (blkDom b) = true →
      Runs (.applyStrobe m mask) s (fun t => assoc t.pend b = some (s.blockBufs b) ∧ bit (t.rd SYS_APPLY_STAT_PEND) b = 1
        ∧ Frame (SYS_APPLY_STAT_PEND :: writeCounters) [.pend, .fab, .gate, .log] s t))
  ∧ ∀ (v : Nat) (s : State), s.up = true → s.pend = [(1, [(fieldKey CLK_CTRL_FO_RELOCK, v)])] →
      Runs (.applyTakeEffect 2) s (fun t => t.pend = [] ∧ t.rd CLK_CTRL_FO_RELOCK = v ∧ bit (t.rd SYS_APPLY_STAT_PEND) 1 = 0
        ∧ Frame [CLK_CTRL_FO_RELOCK, SYS_APPLY_STAT_PEND, CLK_STAT_IRC_STABLE] [.pend, .time, .log] s t)

/-- A write of TNS_INC takes effect at the first core tick after its high word: the old increment still counts at that tick. Within the clamp
of TNS_INC_LIM the value is taken as written; beyond it the register holds the bound and event 0x1013 names the value, the limit and the
master. A low word alone changes no increment; a high word alone goes with the low word held, or with the register's. At the end of a slew
the increment returns to the servo's estimate, where that lies within the clamp. -/
def Obligations.IncrementAndSlewEnd : Prop :=
  (∀ (m : Master) (lo hi : Nat) (s : State), Accepted s m TNS_INC_LO_FRAC.addr → lo < 2 ^ 32 → hi < 16 →
      incLow (s.eff TNS_INC_LIM_PPM) ≤ hi * 2 ^ 32 + lo → hi * 2 ^ 32 + lo ≤ incHigh (s.eff TNS_INC_LIM_PPM) →
      Runs (.tnsIncWrite m (some lo) (some hi)) s (fun t => t.inc = hi * 2 ^ 32 + lo
        ∧ t.tai = s.tai + (if s.ircDirect then 8 else 1) * s.inc
        ∧ Frame (TNS_INC_LO_FRAC :: TNS_INC_HI_NS :: writeCounters) [.time, .tns, .fab, .gate] s t))
  ∧ (∀ (m : Master) (lo hi : Nat) (s : State), Accepted s m TNS_INC_LO_FRAC.addr → lo < 2 ^ 32 → hi < 16 → Listens s →
      incHigh (s.eff TNS_INC_LIM_PPM) < hi * 2 ^ 32 + lo →
      Runs (.tnsIncWrite m (some lo) (some hi)) s (fun t => t.inc = incHigh (s.eff TNS_INC_LIM_PPM)
        ∧ Tells s t 0x1013 hi lo (s.eff TNS_INC_LIM_PPM) (mNum m)
        ∧ Frame (TNS_INC_LO_FRAC :: TNS_INC_HI_NS :: writeCounters) [.time, .tns, .fab, .gate, .log] s t))
  ∧ (∀ (m : Master) (lo hi : Nat) (s : State), Accepted s m TNS_INC_LO_FRAC.addr → lo < 2 ^ 32 → hi < 16 → Listens s →
      hi * 2 ^ 32 + lo < incLow (s.eff TNS_INC_LIM_PPM) →
      Runs (.tnsIncWrite m (some lo) (some hi)) s (fun t => t.inc = incLow (s.eff TNS_INC_LIM_PPM)
        ∧ Tells s t 0x1013 hi lo (s.eff TNS_INC_LIM_PPM) (mNum m)
        ∧ Frame (TNS_INC_LO_FRAC :: TNS_INC_HI_NS :: writeCounters) [.time, .tns, .fab, .gate, .log] s t))
  ∧ (∀ (m : Master) (hi : Nat) (s : State), Accepted s m TNS_INC_HI_NS.addr → hi < 16 →
      incLow (s.eff TNS_INC_LIM_PPM) ≤ hi * 2 ^ 32 + s.tns.loHeld.getD (s.rd TNS_INC_LO_FRAC) →
      hi * 2 ^ 32 + s.tns.loHeld.getD (s.rd TNS_INC_LO_FRAC) ≤ incHigh (s.eff TNS_INC_LIM_PPM) →
      s.tns.loHeld.getD 0 < 2 ^ 32 →
      Runs (.tnsIncWrite m none (some hi)) s (fun t => t.inc = hi * 2 ^ 32 + s.tns.loHeld.getD (s.rd TNS_INC_LO_FRAC) ∧ t.tns.loHeld = none
        ∧ t.tai = s.tai + (if s.ircDirect then 8 else 1) * s.inc
        ∧ Frame (TNS_INC_LO_FRAC :: TNS_INC_HI_NS :: writeCounters) [.time, .tns, .fab, .gate] s t))
  ∧ (∀ (m : Master) (lo : Nat) (s : State), Accepted s m TNS_INC_LO_FRAC.addr →
      Runs (.tnsIncWrite m (some lo) none) s (fun t => t.inc = s.inc ∧ t.tns.loHeld = some (lo % 2 ^ 32)
        ∧ Frame writeCounters [.tns, .fab, .gate] s t))
  ∧ ∀ (x : Nat) (s : State), s.up = true → s.tns.slewEnd = some x → incLow (s.eff TNS_INC_LIM_PPM) ≤ s.tns.est →
      s.tns.est ≤ incHigh (s.eff TNS_INC_LIM_PPM) →
      Runs .slewEnd s (fun t => x ≤ t.mono ∧ t.inc = s.tns.est ∧ t.rd TNS_STAT_SLEW = 0 ∧ t.tns.slewEnd = none
        ∧ Frame [TNS_STAT_SLEW, TNS_INC_LO_FRAC, TNS_INC_HI_NS] [.time, .tns] s t)

/-- A write of 1 to TNS_SNAP puts the counter at the next core tick, the epoch, the time quality and the IRC flag into the snapshot of the
writing master, and changes nothing of the other master's. -/
def Obligations.SnapshotOfTheWritingMaster : Prop :=
  ∀ (m : Master) (s : State), Accepted s m TNS_SNAP_GO.addr →
    Runs (.timeSnapshot m) s (fun t => t.tai = s.tick.tai
      ∧ t.rd (forM m TNS_SEC_HI_SEC) = secOf t.tai / 2 ^ 32 % 2 ^ TNS_SEC_HI_SEC.width
      ∧ t.rd (forM m TNS_SEC_LO_SEC) = secOf t.tai % 2 ^ 32 ∧ t.rd (forM m TNS_NS_NS) = nsOf t.tai
      ∧ t.rd (forM m TNS_FRAC_FRAC) = t.tai % nsU ∧ t.rd (forM m TNS_SNAP_Q_QUAL) = s.quality
      ∧ t.rd (forM m TNS_SNAP_Q_IRC) = b2n s.boot.ircFlag ∧ t.rd (forM m TNS_SNAP_Q_EPOCH) = s.epoch % 2 ^ TNS_SNAP_Q_EPOCH.width
      ∧ Frame ([TNS_SEC_HI_SEC, TNS_SEC_LO_SEC, TNS_NS_NS, TNS_FRAC_FRAC, TNS_SNAP_Q_EPOCH, TNS_SNAP_Q_QUAL, TNS_SNAP_Q_IRC].map (forM m)
          ++ writeCounters) [.time, .fab, .gate] s t)

/-- An update of the active, valid PTP source whose offset is 0 writes the increment it brings, shows offset 0 and counts towards the lock; the
16th such update in ACQUIRING makes the servo LOCKED. An offset within TNS_STEP_MAX is slewed, with TNS_STAT.SLEW set, for the time the offset
takes: the increment stands TNS_INC_LIM from the estimate on the side of the correction, or at the clamp's bound where that lies nearer
(the model's choice, log 40); stated where the estimate leaves room on that side. -/
def Obligations.ServoUpdates : Prop :=
  (∀ (x : ServoMeas) (s : State), s.up = true → x.source = 1 ∨ x.source = 2 → s.srcEn x.source = true → (s.src x.source).valid = true →
      s.rd TNS_STAT_SRC = x.source → x.announce = false → x.utcOfs = none → x.leap = 0 → x.offset = 0 → s.is TNS_STAT_SLEW = false →
      s.rd TNS_STAT_STATE = 2 → incLow (s.eff TNS_INC_LIM_PPM) ≤ x.inc → x.inc ≤ incHigh (s.eff TNS_INC_LIM_PPM) →
      Runs (.servoUpdate x) s (fun t => t.inc = x.inc ∧ t.tns.est = x.inc ∧ t.rd TNS_OFFSET_NS = 0 ∧ t.rd TNS_STAT_STATE = 2
        ∧ t.tns.run = s.tns.run + 1 ∧ (t.src x.source).inc = x.inc ∧ t.tns.holdE = x.uncert + x.filt
        ∧ Frame [TNS_INC_LO_FRAC, TNS_INC_HI_NS, TNS_INC_ALT_LO_FRAC, TNS_INC_ALT_HI_NS, TNS_OFFSET_NS, TNS_STAT_ALT_OK] [.tns] s t))
  ∧ (∀ (x : ServoMeas) (s : State), s.up = true → x.source = 1 ∨ x.source = 2 → s.srcEn x.source = true → (s.src x.source).valid = true →
      s.rd TNS_STAT_SRC = x.source → x.announce = false → x.utcOfs = none → x.leap = 0 → x.offset = 0 → s.is TNS_STAT_SLEW = false →
      s.rd TNS_STAT_STATE = 1 → s.tns.run = 15 →
      Runs (.servoUpdate x) s (fun t => t.rd TNS_STAT_STATE = 2 ∧ t.tns.run = 16 ∧ t.tns.everLocked = true ∧ NorKept s t ∧ DramKept s t))
  ∧ ∀ (x : ServoMeas) (s : State), s.up = true → x.source = 1 ∨ x.source = 2 → s.srcEn x.source = true → (s.src x.source).valid = true →
      s.rd TNS_STAT_SRC = x.source → x.announce = false → x.utcOfs = none → x.leap = 0 → x.offset ≠ 0 →
      x.offset.natAbs ≤ s.eff TNS_STEP_MAX_NS →
      (if x.offset < 0 then incLow (s.eff TNS_INC_LIM_PPM) < x.inc else x.inc < incHigh (s.eff TNS_INC_LIM_PPM)) →
      Runs (.servoUpdate x) s (fun t => t.rd TNS_STAT_SLEW = 1 ∧ t.tns.est = x.inc ∧ t.tai = s.tai ∧ t.rd TNS_OFFSET_NS = i32 (satS 32 x.offset)
        ∧ t.inc = clamp (incLow (s.eff TNS_INC_LIM_PPM)) (incHigh (s.eff TNS_INC_LIM_PPM))
            (if x.offset < 0 then x.inc - tickU * s.eff TNS_INC_LIM_PPM / 1000000 else x.inc + tickU * s.eff TNS_INC_LIM_PPM / 1000000)
        ∧ t.tns.slewEnd = some (s.mono + (x.offset.natAbs * nsU + (t.inc - x.inc + (x.inc - t.inc)) - 1) / (t.inc - x.inc + (x.inc - t.inc)) * tickU))

/-- A source that times out becomes invalid, when its limit has run out. While another source of TNS_CTRL.PRIO is valid the servo goes on with
nothing else changed; with none left, the time-out of the active source turns LOCKED into HOLDOVER with no active source. A higher source that has stayed valid for REVERT seconds is selected. HOLD_MAX seconds in HOLDOVER
lead to EXPIRED. -/
def Obligations.SourceTimeoutRevertHoldover : Prop :=
  (∀ (n : Nat) (s : State), s.up = true → 1 ≤ n → n ≤ 4 → (s.src n).valid = true →
      (∃ k, k ≠ n ∧ k ∈ s.prioList ∧ (s.src k).valid = true) →
      Runs (.sourceTimeout n) s (fun t => (t.src n).valid = false ∧ (t.src n).measured = false ∧ s.srcDue n ≤ t.mono
        ∧ Frame [TNS_STAT_ALT_OK] [.time, .free, .log, .tns] s t))
  ∧ (∀ (n : Nat) (s : State), s.up = true → 1 ≤ n → n ≤ 4 → (s.src n).valid = true →
      (∀ k, k ≠ n → k ∈ s.prioList → (s.src k).valid = false) → s.rd TNS_STAT_STATE = 2 → s.rd TNS_STAT_SRC = n →
      Runs (.sourceTimeout n) s (fun t => (t.src n).valid = false ∧ t.rd TNS_STAT_STATE = 3 ∧ t.rd TNS_STAT_SRC = 0
        ∧ t.tns.leftAt = t.mono ∧ s.srcDue n ≤ t.mono))
  ∧ (∀ (n x : Nat) (s : State), s.up = true → s.rd TNS_STAT_SRC ≠ 0 → s.reverts = [(n, x)] → 3 ≤ n → (s.src n).measured = false →
      s.rd TNS_STAT_STATE = 1 ∨ s.rd TNS_STAT_STATE = 2 → s.tns.domAct = 1 ∨ s.tns.domAct = 2 →
      Runs .revertExpiry s (fun t => x ≤ t.mono ∧ t.rd TNS_STAT_SRC = n
        ∧ Frame [TNS_STAT_SRC, TNS_STAT_ALT_OK] [.time, .log, .tns] s t))
  ∧ ∀ s : State, s.up = true → s.rd TNS_STAT_STATE = 3 → s.is TNS_HOLD_HOLD_MAX = true →
      Runs .holdoverExpiry s (fun t => t.rd TNS_STAT_STATE = 4 ∧ s.tns.leftAt + s.rd TNS_HOLD_HOLD_MAX * secU ≤ t.mono ∧ t.tns.leftAt = s.tns.leftAt
        ∧ NorKept s t ∧ DramKept s t)

/-- With ALT_OK the transfer puts TNS_INC_ALT into TNS_INC and makes the standby domain active, the counter not being written (stated with no
offset to correct), and ALT_OK falls until the new standby domain has an increment; without a servo in ACQUIRING or LOCKED it enters
ACQUIRING. With ALT_OK 0 only event 0x1022 is recorded, with the first reason that holds. With XFER 1 the write is ignored. -/
def Obligations.DomainTransfer : Prop :=
  (∀ (m : Master) (s : State), Accepted s m TNS_XFER_GO.addr → s.is TNS_STAT_XFER = false → s.is TNS_STAT_ALT_OK = true →
      s.tns.domAct = 1 ∨ s.tns.domAct = 2 → s.rd TNS_STAT_STATE = 1 ∨ s.rd TNS_STAT_STATE = 2 →
      (s.src s.standby).measured = true → (s.src s.standby).offset = 0 →
      incLow (s.eff TNS_INC_LIM_PPM) ≤ s.rd TNS_INC_ALT_HI_NS * 2 ^ 32 + s.rd TNS_INC_ALT_LO_FRAC →
      s.rd TNS_INC_ALT_HI_NS * 2 ^ 32 + s.rd TNS_INC_ALT_LO_FRAC ≤ incHigh (s.eff TNS_INC_LIM_PPM) →
      Runs (.domainTransfer m) s (fun t => t.inc = s.rd TNS_INC_ALT_HI_NS * 2 ^ 32 + s.rd TNS_INC_ALT_LO_FRAC
        ∧ t.rd TNS_STAT_SRC = s.standby ∧ t.tns.domAct = s.standby ∧ t.tai = s.tick.tai ∧ t.rd TNS_STAT_ALT_OK = 0
        ∧ Frame ([TNS_INC_LO_FRAC, TNS_INC_HI_NS, TNS_STAT_SRC, TNS_STAT_ALT_OK, TNS_STAT_SLEW] ++ writeCounters)
            [.time, .fab, .gate, .log, .tns] s t))
  ∧ (∀ (m : Master) (s : State), Accepted s m TNS_XFER_GO.addr → s.is TNS_STAT_XFER = false → s.is TNS_STAT_ALT_OK = true →
      s.tns.domAct = 1 ∨ s.tns.domAct = 2 → s.rd TNS_STAT_STATE = 0 ∨ s.rd TNS_STAT_STATE = 3 ∨ s.rd TNS_STAT_STATE = 4 →
      (s.src s.standby).measured = true → (s.src s.standby).offset = 0 →
      incLow (s.eff TNS_INC_LIM_PPM) ≤ s.rd TNS_INC_ALT_HI_NS * 2 ^ 32 + s.rd TNS_INC_ALT_LO_FRAC →
      s.rd TNS_INC_ALT_HI_NS * 2 ^ 32 + s.rd TNS_INC_ALT_LO_FRAC ≤ incHigh (s.eff TNS_INC_LIM_PPM) →
      Runs (.domainTransfer m) s (fun t => t.inc = s.rd TNS_INC_ALT_HI_NS * 2 ^ 32 + s.rd TNS_INC_ALT_LO_FRAC
        ∧ t.rd TNS_STAT_SRC = s.standby ∧ t.tns.domAct = s.standby ∧ t.tai = s.tick.tai ∧ t.rd TNS_STAT_STATE = 1 ∧ t.rd TNS_STAT_ALT_OK = 0))
  ∧ (∀ (m : Master) (s : State), Accepted s m TNS_XFER_GO.addr → s.is TNS_STAT_XFER = false → s.is TNS_STAT_ALT_OK = false → Listens s →
      Runs (.domainTransfer m) s (fun t => Tells s t 0x1022 s.standby
          (if s.srcEn s.standby = false then 1 else if (s.src s.standby).valid = false then 2 else 3) (mNum m) 0
        ∧ Frame writeCounters [.fab, .gate, .log] s t))
  ∧ ∀ (m : Master) (s : State), Accepted s m TNS_XFER_GO.addr → s.is TNS_STAT_XFER = true →
      Runs (.domainTransfer m) s (fun t => Frame writeCounters [.fab, .gate] s t)

/-- A PPS_IN pulse of less than 1 µs or more than 900 ms is rejected with event 0x1030, as is one whose edge lies more than 100 µs from 1 s
after the last; any other is taken, its stamp less the input path and the cable delay against the nearest second (stated for that without
IRIG-B). An IRIG-B frame without the extension that is asked for, with a wrong parity, or whose time does not follow on the last is rejected with
event 0x1031; a good one whose time follows on the last counts towards validity. PPS_OUT goes active at its edge for WIDTH ms when the
servo state allows it, and inactive at the end. -/
def Obligations.PulsesAndIrig : Prop :=
  (∀ (ago width l : Nat) (s : State), s.up = true → s.is TNS_PPSI_CFG_EN = true → width < 1000 ∨ 900000000 < width →
      s.tns.ppsLast = some l → Listens s →
      Runs (.ppsInEdge ago width) s (fun t =>
        Tells s t 0x1030 1 (width / 1000) (i32 ((((stampOf s.mono - ago : Nat) : Int) - (l : Int)) / 16000)) 0
        ∧ t.tns.ppsLast = some l ∧ Frame [] [.log, .tns] s t))
  ∧ (∀ (ago width l : Nat) (s : State), s.up = true → s.is TNS_PPSI_CFG_EN = true → 1000 ≤ width → width ≤ 900000000 →
      s.tns.ppsLast = some l → 1600000 < (((stampOf s.mono - ago : Nat) : Int) - (l : Int) - 16000000000).natAbs → Listens s →
      Runs (.ppsInEdge ago width) s (fun t =>
        Tells s t 0x1030 2 (width / 1000) (i32 ((((stampOf s.mono - ago : Nat) : Int) - (l : Int)) / 16000)) 0
        ∧ t.tns.ppsLast = some l ∧ Frame [] [.log, .tns] s t))
  ∧ (∀ (ago width : Nat) (s : State), s.up = true → s.is TNS_PPSI_CFG_EN = true → 1000 ≤ width → width ≤ 900000000 →
      (s.tns.ppsLast.all fun l => decide ((((stampOf s.mono - ago : Nat) : Int) - (l : Int) - 16000000000).natAbs ≤ 1600000)) = true →
      s.tns.srcs.length = 4 →
      Runs (.ppsInEdge ago width) s (fun t => t.tns.ppsLast = some (stampOf s.mono - ago)
        ∧ (t.src 4).good = (s.src 4).good + 1 ∧ (t.src 4).lastAt = (stampOf s.mono - ago) * 2 ^ 28
        ∧ ((s.src 3).valid = false → (t.src 4).offset = roundDiv (roundDiv (s.inStamp ago (s.rd TNS_PPSI_CFG_DELAY)) 16000000000 * 16000000000
            - (s.inStamp ago (s.rd TNS_PPSI_CFG_DELAY) : Int)) 16)
        ∧ Frame [TNS_STAT_ALT_OK] [.free, .log, .tns] s t))
  ∧ (∀ (f : IrigFrame) (s : State), s.up = true → s.is TNS_IRIG_CFG_EN = true → s.is TNS_IRIG_CFG_REQ1344 = true → f.ext = false → Listens s →
      Runs (.irigbFrame f) s (fun t => Tells s t 0x1031 3 0 0 0 ∧ t.tns.irigLast = some f.sec ∧ Frame [] [.log, .tns] s t))
  ∧ (∀ (f : IrigFrame) (s : State), s.up = true → s.is TNS_IRIG_CFG_EN = true → f.ext = true → f.parityOk = false → Listens s →
      Runs (.irigbFrame f) s (fun t => Tells s t 0x1031 1 0 0 0 ∧ t.tns.irigLast = some f.sec ∧ Frame [] [.log, .tns] s t))
  ∧ (∀ (f : IrigFrame) (l : Nat) (s : State), s.up = true → s.is TNS_IRIG_CFG_EN = true → f.ext = true → f.parityOk = true →
      s.tns.irigLast = some l → f.sec ≠ l + 1 → Listens s →
      Runs (.irigbFrame f) s (fun t => Tells s t 0x1031 2 0 0 0 ∧ t.tns.irigLast = some f.sec ∧ Frame [] [.log, .tns] s t))
  ∧ (∀ (f : IrigFrame) (l : Nat) (s : State), s.up = true → s.is TNS_IRIG_CFG_EN = true → f.ext = true → f.parityOk = true →
      s.tns.irigLast = some l → f.sec = l + 1 → s.tns.srcs.length = 4 → s.rd TNS_STAT_SRC ≠ 3 →
      Runs (.irigbFrame f) s (fun t => t.tns.irigLast = some f.sec ∧ (t.src 3).good = (s.src 3).good + 1 ∧ (t.src 3).lastAt = s.mono
        ∧ Frame [TNS_STAT_ALT_OK] [.free, .log, .tns] s t))
  ∧ (∀ s : State, s.up = true → s.ppsOn = true → 0 < s.inc →
      Runs .ppsOutEdge s (fun t => t.tns.ppsActive = true ∧ s.tns.ppsNext * secU - s.rd TNS_PPSO_CFG_ADV * nsU ≤ t.tai
        ∧ t.tns.ppsEnd = t.mono + s.eff TNS_PPSO_CFG_WIDTH * 1000000 * nsU ∧ Frame [] [.time, .tns] s t))
  ∧ ∀ s : State, s.up = true → s.tns.ppsActive = true →
      Runs .ppsOutEnd s (fun t => t.tns.ppsActive = false ∧ s.tns.ppsEnd ≤ t.mono ∧ Frame [] [.time, .tns] s t)

/-- A forward step adds its nanoseconds at the next core tick and leaves the epoch; a backward step takes them off and starts the next epoch: stated
with the domains of the slots, the samples and the meters not running. A step of zero changes nothing. A pending leap second changes TNS_UTC.OFS by one, buffer and
all, clears LSP and toggles LSOCC: stated with PD5 off. -/
def Obligations.StepsAndLeapSeconds : Prop :=
  (∀ (m : Master) (s : State), Accepted s m TNS_STEP_CMD_GO.addr → s.stepNsOf = 0 →
      Runs (.timeStepForward m) s (fun t => Frame writeCounters [.fab, .gate] s t))
  ∧ (∀ (m : Master) (s : State), Accepted s m TNS_STEP_CMD_GO.addr → 0 < s.stepNsOf → s.on 4 = false → s.on 5 = false → s.acq.next = none →
      Runs (.timeStepForward m) s (fun t => t.tai = (s.tick.tai + s.stepNsOf.natAbs * nsU) % taiMod ∧ t.epoch = s.epoch
        ∧ t.mono = s.tick.mono ∧ t.rd TNS_STEP_CNT_FWD = (s.cnt TNS_STEP_CNT_FWD).rd TNS_STEP_CNT_FWD ∧ t.inc = s.inc ∧ NorKept s t ∧ DramKept s t))
  ∧ (∀ (m : Master) (s : State), Accepted s m TNS_STEP_CMD_GO.addr → s.stepNsOf < 0 → s.on 4 = false → s.on 5 = false → s.acq.next = none →
      Runs (.timeStepBackward m) s (fun t =>
        t.tai = (s.tick.tai + taiMod - s.stepNsOf.natAbs * nsU % taiMod) % taiMod
        ∧ t.epoch = (s.epoch + 1) % 2 ^ TNS_EPOCH_EPOCH.width
        ∧ t.mono = s.tick.mono ∧ t.rd TNS_STEP_CNT_BACK = (s.cnt TNS_STEP_CNT_BACK).rd TNS_STEP_CNT_BACK ∧ t.inc = s.inc ∧ NorKept s t ∧ DramKept s t))
  ∧ ∀ (x : Nat) (s : State), s.up = true → s.tns.leapAt = some x → s.on 5 = false → 0 < s.inc →
      Runs .leapSecond s (fun t => x * secU ≤ t.tai ∧ t.tns.leapAt = none
        ∧ t.rd TNS_UTC_OFS = (if s.rd TNS_UTC_LSDIR = 0 then (s.rd TNS_UTC_OFS + 1) % 65536 else (s.rd TNS_UTC_OFS + 65535) % 65536)
        ∧ t.rdBuf TNS_UTC_OFS = t.rd TNS_UTC_OFS ∧ t.rd TNS_UTC_LSP = 0 ∧ t.rd TNS_UTC_LSOCC = (1 - s.rd TNS_UTC_LSOCC) % 2
        ∧ Frame [TNS_UTC_OFS, TNS_UTC_LSP, TNS_UTC_LSOCC] [.bufs, .time, .tns, .ing, .log] s t)

/-- A powered port with a mode, a reference and no link comes up with the SPEED of its mode. A link that drops clears LINK and SPEED and
empties the transmit buffer, and a frame being received then counts in FCSERR. The loss of a reference takes both its ports down; its return
only sets the flag and records event 0x2004. -/
def Obligations.LinksUpAndDown : Prop :=
  (∀ (n v : Nat) (s : State), s.portUp n = true → s.portMode n ≠ 0 → s.is (NET_P_STAT_LINK n) = false → s.srefOk n = true →
      Runs (.linkUp n v) s (fun t => t.rd (NET_P_STAT_LINK n) = 1 ∧ t.rd (NET_P_STAT_SPEED n) = modeSpeed (s.portMode n) v
        ∧ NorKept s t ∧ DramKept s t))
  ∧ (∀ (n : Nat) (r : Bool) (s : State), s.portUp n = true → s.is (NET_P_STAT_LINK n) = true →
      Runs (.linkDown n r) s (fun t => t.rd (NET_P_STAT_LINK n) = 0 ∧ t.rd (NET_P_STAT_SPEED n) = 0 ∧ (t.port n).tx = [] ∧ (t.port n).held = []
        ∧ (r = true → t.rd (NET_P_FCSERR_COUNT n) = (s.cnt (NET_P_FCSERR_COUNT n)).rd (NET_P_FCSERR_COUNT n))
        ∧ NorKept s t ∧ DramKept s t))
  ∧ (∀ (k rx : Nat) (s : State), s.up = true → s.on 2 = true → k < 2 →
      s.rd (if k = 0 then NET_SREF_STAT_SREF0_OK else NET_SREF_STAT_SREF1_OK) = 0 → Listens s →
      Runs (.srefChange k true rx) s (fun t => t.rd (if k = 0 then NET_SREF_STAT_SREF0_OK else NET_SREF_STAT_SREF1_OK) = 1
        ∧ Tells s t 0x2004 k 1 0 0 ∧ Frame [if k = 0 then NET_SREF_STAT_SREF0_OK else NET_SREF_STAT_SREF1_OK] [.log] s t))
  ∧ ∀ (k rx : Nat) (s : State), s.up = true → s.on 2 = true → k < 2 →
      s.rd (if k = 0 then NET_SREF_STAT_SREF0_OK else NET_SREF_STAT_SREF1_OK) = 1 →
      Runs (.srefChange k false rx) s (fun t => t.rd (if k = 0 then NET_SREF_STAT_SREF0_OK else NET_SREF_STAT_SREF1_OK) = 0
        ∧ t.rd (NET_P_STAT_LINK (2 * k)) = 0 ∧ t.rd (NET_P_STAT_LINK (2 * k + 1)) = 0 ∧ NorKept s t ∧ DramKept s t)

/-- A frame that fails a check of R112 raises that check's counter and changes no other register, no FIFO, and on a trunk port nothing else.
A stranger is counted, the first since the clear with event 0x2010. One that passes, with room for it and more than the writer's margin, and is no
PTP message, is the last of the FIFO, its stamp with the epoch, quality and IRC flag of the stamp's instant, which are the present ones where
nothing has changed since, and is counted with its bytes. With the FIFO full it is counted in OVF, and the first sets the OVF flag with event
0x2020. -/
def Obligations.FrameAdmission : Prop :=
  (∀ (n : Nat) (f : RxFrame) (c : Field) (s : State), s.portUp n = true → s.is (NET_P_STAT_LINK n) = true →
      s.is (NET_P_FSTAT_FLUSH_BUSY n) = false → s.admission n f = .drop c →
      Runs (.frameReceived n f) s (fun t => t.rd c = (s.cnt c).rd c ∧ (∀ k, (t.port k).fifo = (s.port k).fifo)
        ∧ Frame [c] [.ports] s t ∧ (n < 4 → Frame [c] [] s t)))
  ∧ (∀ (n : Nat) (f : RxFrame) (s : State), s.portUp n = true → s.is (NET_P_STAT_LINK n) = true →
      s.is (NET_P_FSTAT_FLUSH_BUSY n) = false → s.admission n f = .stranger → s.ports.length = 6 → Listens s →
      Runs (.frameReceived n f) s (fun t => t.rd (NET_P_STRANGER_COUNT n) = (s.cnt (NET_P_STRANGER_COUNT n)).rd (NET_P_STRANGER_COUNT n)
        ∧ (t.port n).stranger = true ∧ (t.port n).fifo = (s.port n).fifo
        ∧ ((s.port n).stranger = false → Tells s t 0x2010 n (frameDst f.bytes / 2 ^ 32) (frameDst f.bytes) (frameSrc f.bytes))
        ∧ Frame [NET_P_STRANGER_COUNT n] [.ports, .log] s t))
  ∧ (∀ (n : Nat) (f : RxFrame) (u : Bool) (s : State), s.portUp n = true → s.is (NET_P_STAT_LINK n) = true →
      s.is (NET_P_FSTAT_FLUSH_BUSY n) = false → s.admission n f = .pass u → s.ports.length = 6 →
      (s.port n).fill + f.bytes.length + 4 + 512 ≤ fifoCap n → isPtp f.bytes = false →
      Runs (.frameReceived n f) s (fun t =>
        (t.port n).fifo = (s.port n).fifo ++ [⟨f.bytes, f.bytes.length + 4, s.rxStamp n f.ago, (s.asOf f.ago).epoch, (s.asOf f.ago).qual,
            (s.asOf f.ago).irc, frameTag f.bytes, u⟩]
        ∧ ((∀ x ∈ s.tns.marks, x.time + f.ago * 2 ^ 28 ≤ s.mono) →
            s.asOf f.ago = ⟨s.mono, 0, s.epoch, s.quality, s.ircFlag, s.ircDirect⟩)
        ∧ t.rd (NET_P_RX_OK_LO_COUNT n) + t.rd (NET_P_RX_OK_HI_COUNT n) * 2 ^ 32
            = (s.rd (NET_P_RX_OK_LO_COUNT n) + s.rd (NET_P_RX_OK_HI_COUNT n) * 2 ^ 32 + 1) % 2 ^ 64
        ∧ t.rd (NET_P_RX_BYTES_LO_COUNT n) + t.rd (NET_P_RX_BYTES_HI_COUNT n) * 2 ^ 32
            = (s.rd (NET_P_RX_BYTES_LO_COUNT n) + s.rd (NET_P_RX_BYTES_HI_COUNT n) * 2 ^ 32 + (f.bytes.length + 4)) % 2 ^ 64
        ∧ Frame [NET_P_RX_OK_LO_COUNT n, NET_P_RX_OK_HI_COUNT n, NET_P_RX_BYTES_LO_COUNT n, NET_P_RX_BYTES_HI_COUNT n,
            NET_P_FSTAT_THR n, NET_P_FSTAT_OVF n] [.ports, .log] s t))
  ∧ ∀ (n : Nat) (f : RxFrame) (u : Bool) (s : State), s.portUp n = true → s.is (NET_P_STAT_LINK n) = true →
      s.is (NET_P_FSTAT_FLUSH_BUSY n) = false → s.admission n f = .pass u → fifoCap n ≤ (s.port n).fill →
      s.is (NET_P_FSTAT_OVF n) = false → Listens s →
      Runs (.frameReceived n f) s (fun t => t.rd (NET_P_OVF_COUNT n) = (s.cnt (NET_P_OVF_COUNT n)).rd (NET_P_OVF_COUNT n)
        ∧ t.rd (NET_P_FSTAT_OVF n) = 1 ∧ Tells s t 0x2020 n (f.bytes.length + 4) 0 0
        ∧ (t.port n).fifo = (s.port n).fifo ∧ Frame [NET_P_OVF_COUNT n, NET_P_FSTAT_OVF n] [.free, .ports, .log] s t)

/-- A PAUSE frame honoured with no pause running holds transmission for its quanta from the end of the frame being sent; one not honoured, or
on a field port, is only counted and recorded. The pause ends at its instant with its microseconds counted. A port idle for EEE.IDLE µs
enters low-power idle, which is counted. FLUSH empties the FIFO at once, or, within a frame, stays busy until the frame's end marker comes or,
1,024 producer cycles after the write, the MAC is reset. -/
def Obligations.PauseIdleFlush : Prop :=
  (∀ (n q : Nat) (s : State), s.portUp n = true → s.is (NET_P_STAT_LINK n) = true → n < 4 → s.is (NET_P_CFG_PAUSE_HON n) = true →
      (s.port n).pause = none → 0 < q → q < 65536 → s.ports.length = 6 → Listens s →
      Runs (.pauseFrame n q) s (fun t =>
        (t.port n).pause = some (max s.mono (s.port n).txUntil, max s.mono (s.port n).txUntil + psU (q * 512 * s.bitPs n))
        ∧ t.rd (NET_P_PAUSE_RX_COUNT n) = (s.cnt (NET_P_PAUSE_RX_COUNT n)).rd (NET_P_PAUSE_RX_COUNT n)
        ∧ Tells s t 0x2030 n q 1 0 ∧ Frame [NET_P_PAUSE_RX_COUNT n] [.ports, .log] s t))
  ∧ (∀ (n q : Nat) (s : State), s.portUp n = true → s.is (NET_P_STAT_LINK n) = true →
      4 ≤ n ∨ s.is (NET_P_CFG_PAUSE_HON n) = false → (s.port n).pause = none → q < 65536 → Listens s →
      Runs (.pauseFrame n q) s (fun t => Tells s t 0x2030 n q 0 0
        ∧ t.rd (NET_P_PAUSE_RX_COUNT n) = (s.cnt (NET_P_PAUSE_RX_COUNT n)).rd (NET_P_PAUSE_RX_COUNT n)
        ∧ Frame [NET_P_PAUSE_RX_COUNT n] [.log] s t))
  ∧ (∀ (n f u : Nat) (s : State), s.portUp n = true → (s.port n).pause = some (f, u) →
      Runs (.pauseExpiry n) s (fun t => (t.port n).pause = none ∧ u ≤ t.mono
        ∧ t.rd (NET_P_PAUSE_US_COUNT n) = (s.cntN (NET_P_PAUSE_US_COUNT n) ((u - f) / (1000 * nsU))).rd (NET_P_PAUSE_US_COUNT n)
        ∧ Frame [NET_P_PAUSE_US_COUNT n] [.time, .ports] s t))
  ∧ (∀ (n : Nat) (s : State), s.portUp n = true → n < 4 → s.is (NET_P_CFG_EEE_EN n) = true →
      (1 ≤ s.portMode n ∧ s.portMode n ≤ 3) ∨ (s.portMode n = 5 ∧ s.rd (NET_P_STAT_SPEED n) ≠ 0) → s.is (NET_P_STAT_LINK n) = true → (s.port n).tx = [] → s.is (NET_P_STAT_LPI_TX n) = false →
      Runs (.lpiEntry n) s (fun t => t.rd (NET_P_STAT_LPI_TX n) = 1
        ∧ (s.port n).idleAt + s.eff (NET_P_EEE_IDLE n) * 1000 * nsU ≤ t.mono
        ∧ t.rd (NET_P_LPI_CNT_COUNT n) = (s.cnt (NET_P_LPI_CNT_COUNT n)).rd (NET_P_LPI_CNT_COUNT n)
        ∧ Frame [NET_P_STAT_LPI_TX n, NET_P_LPI_CNT_COUNT n] [.time] s t))
  ∧ (∀ (m : Master) (n : Nat) (s : State), n < 6 → Accepted s m (0x3101C + 0x200 * n) → s.is (NET_P_FSTAT_FLUSH_BUSY n) = false →
      Runs (.fifoFlush m n false) s (fun t => (t.port n).fifo = [] ∧ t.rd (NET_P_FSTAT_FLUSH_DONE n) = 1 ∧ t.rd (NET_P_FSTAT_FORCED n) = 0
        ∧ t.rd (NET_P_FLUSHED_COUNT n) = (s.cntN (NET_P_FLUSHED_COUNT n) (s.port n).fifo.length).rd (NET_P_FLUSHED_COUNT n)
        ∧ Frame ([NET_P_FSTAT_FLUSH_DONE n, NET_P_FSTAT_FORCED n, NET_P_FSTAT_THR n, NET_P_FSTAT_OVF n, NET_P_FLUSHED_COUNT n] ++ writeCounters)
            [.ports, .fab, .gate, .log] s t))
  ∧ (∀ (m : Master) (n : Nat) (s : State), n < 6 → Accepted s m (0x3101C + 0x200 * n) → s.is (NET_P_FSTAT_FLUSH_BUSY n) = false →
      s.ports.length = 6 →
      Runs (.fifoFlush m n true) s (fun t => (t.port n).fifo = [] ∧ t.rd (NET_P_FSTAT_FLUSH_BUSY n) = 1 ∧ t.rd (NET_P_FSTAT_FLUSH_DONE n) = 0
        ∧ (t.port n).flushFrames = (s.port n).fifo.length ∧ (t.port n).flushAt = s.mono))
  ∧ (∀ (n w : Nat) (s : State), s.portUp n = true → s.is (NET_P_FSTAT_FLUSH_BUSY n) = true → Listens s →
      (s.mono ≤ s.flushDue n → Runs (.flushComplete n w) s (fun t => t.rd (NET_P_FSTAT_FLUSH_BUSY n) = 0 ∧ t.rd (NET_P_FSTAT_FLUSH_DONE n) = 1
          ∧ t.rd (NET_P_FLUSHED_COUNT n) = (s.cnt (NET_P_FLUSHED_COUNT n)).rd (NET_P_FLUSHED_COUNT n)
          ∧ Tells s t 0x2022 n ((s.port n).flushFrames + 1) w 0
          ∧ Frame [NET_P_FSTAT_FLUSH_BUSY n, NET_P_FSTAT_FLUSH_DONE n, NET_P_FLUSHED_COUNT n] [.log] s t))
      ∧ Runs (.flushForced n w) s (fun t => s.flushDue n ≤ t.mono ∧ t.rd (NET_P_FSTAT_FLUSH_BUSY n) = 0 ∧ t.rd (NET_P_FSTAT_FLUSH_DONE n) = 1
          ∧ t.rd (NET_P_FSTAT_FORCED n) = 1 ∧ Tells s t 0x2023 n w 0 0
          ∧ Frame [NET_P_FSTAT_FLUSH_BUSY n, NET_P_FSTAT_FLUSH_DONE n, NET_P_FSTAT_FORCED n, NET_P_FLUSHED_COUNT n] [.time, .log] s t))

/-- With no PTP message due, no pause and no wait for a first BEACON, a frame that is no PTP message and stands at the head of the transmit buffer leaves once it may, with the port's address,
its checksums and its FCS put in, and is counted; without a station address the whole buffer is dropped. A collision counts and sets a
backoff within its range after the jam; a late one, or the 16th, drops the frame with its event. A backoff ends at its instant. A follower that
sees no BEACON for 400 µs falls back to CSMA/CD, and a BEACON ends that. TSQ_POP removes the head of the queue. -/
def Obligations.TransmissionAndCollisions : Prop :=
  (∀ (n o : Nat) (f : TxFrame) (r : List TxFrame) (bs : List Byte) (s : State), s.portUp n = true → s.is (NET_P_STAT_LINK n) = true →
      (s.port n).tx = f :: r → s.stationOk n = true → s.plcaWaits n = false → (s.port n).pause = none →
      ([1, 2].all fun d => !(s.domEn d && s.domPort d == n && decide ((s.ptpTx d).due ≤ s.mono))) = true →
      bs = insertSums f.c37 (patch (f.bytes ++ zeros (60 - f.bytes.length)) 6 (beBytes 6 ((s.slotAddr n 0).getD 0))) →
      isPtp bs = false → f.oneStep = false →
      Runs (.frameTransmit n o) s (fun t => s.txStart n ≤ t.mono ∧ (t.port n).lastSent = bs ++ frameFcs bs ∧ (t.port n).cols = 0
        ∧ t.rd (NET_P_TX_OK_LO_COUNT n) + t.rd (NET_P_TX_OK_HI_COUNT n) * 2 ^ 32
            = (s.rd (NET_P_TX_OK_LO_COUNT n) + s.rd (NET_P_TX_OK_HI_COUNT n) * 2 ^ 32 + 1) % 2 ^ 64
        ∧ Frame [NET_P_STAT_LPI_TX n, NET_P_TX_OK_LO_COUNT n, NET_P_TX_OK_HI_COUNT n, NET_P_TX_BYTES_LO_COUNT n, NET_P_TX_BYTES_HI_COUNT n]
            [.time, .ports] s t))
  ∧ (∀ (n o : Nat) (f : TxFrame) (r : List TxFrame) (s : State), s.portUp n = true → s.is (NET_P_STAT_LINK n) = true →
      (s.port n).tx = f :: r → s.stationOk n = false → Listens s →
      Runs (.frameTransmit n o) s (fun t => (t.port n).tx = [] ∧ (t.port n).held = []
        ∧ (r = [] → (s.port n).held = [] → Tells s t 0x2060 n f.src (max (f.bytes.length + 4) 64) 0)
        ∧ Frame [NET_P_TXDROP_COUNT n] [.ports, .log] s t))
  ∧ (∀ (n b : Nat) (f : TxFrame) (r : List TxFrame) (s : State), s.portUp n = true → s.csma n = true → s.is (NET_P_STAT_LINK n) = true →
      (s.port n).tx = f :: r →
      (b ≤ 512 → (s.port n).cols + 1 ≠ 16 → Runs (.collision n b) s (fun t => (t.port n).cols = (s.port n).cols + 1 ∧ (t.port n).tx = f :: r
          ∧ s.mono + psU 3200000 ≤ (t.port n).backoffUntil
          ∧ (t.port n).backoffUntil ≤ s.mono + psU 3200000 + (2 ^ min ((s.port n).cols + 1) 10 - 1) * psU 51200000
          ∧ t.rd (NET_P_COL_COUNT n) = (s.cnt (NET_P_COL_COUNT n)).rd (NET_P_COL_COUNT n) ∧ Frame [NET_P_COL_COUNT n] [.free, .ports] s t))
      ∧ (512 < b → (s.port n).held = [] → Listens s → Runs (.collision n b) s (fun t => (t.port n).cols = 0 ∧ (t.port n).tx = r ∧ Tells s t 0x2041 n b 0 0
          ∧ Frame [NET_P_COL_COUNT n, NET_P_LATECOL_COUNT n] [.ports, .log] s t))
      ∧ (b ≤ 512 → (s.port n).cols = 15 → (s.port n).held = [] → Listens s → Runs (.collision n b) s (fun t => (t.port n).cols = 0 ∧ (t.port n).tx = r
          ∧ Tells s t 0x2040 n (max (f.bytes.length + 4) 64) 0 0 ∧ Frame [NET_P_COL_COUNT n, NET_P_EXCOL_COUNT n] [.ports, .log] s t)))
  ∧ (∀ (n : Nat) (s : State), s.portUp n = true → (s.port n).backoffUntil ≠ 0 →
      Runs (.backoffExpiry n) s (fun t => (t.port n).backoffUntil = 0 ∧ (s.port n).backoffUntil ≤ t.mono ∧ Frame [] [.time, .ports] s t))
  ∧ (∀ (n : Nat) (s : State), s.portUp n = true → s.portMode n = 9 → s.is (NET_P_STAT_LINK n) = true →
      s.rd (NET_P_PLCA_NODE_ID n) ≠ 0 → (s.port n).fell = false → s.ports.length = 6 → Listens s →
      Runs (.beaconTimeout n) s (fun t => t.rd (NET_P_STAT_PLCA_ACT n) = 0 ∧ (t.port n).fell = true
        ∧ (s.port n).lastBeacon + 400000 * nsU ≤ t.mono
        ∧ Tells s t 0x2042 n (s.rd (NET_P_PLCA_NODE_ID n)) 0 0 ∧ Frame [NET_P_STAT_PLCA_ACT n, NET_P_PLCA_FALLBK_COUNT n] [.time, .ports, .log] s t))
  ∧ (∀ (n : Nat) (s : State), s.portUp n = true → s.portMode n = 9 → s.is (NET_P_STAT_LINK n) = true → s.rd (NET_P_PLCA_NODE_ID n) ≠ 0 →
      s.is (NET_P_STAT_PLCA_ACT n) = false → Listens s →
      Runs (.beaconReceived n) s (fun t => t.rd (NET_P_STAT_PLCA_ACT n) = 1 ∧ (t.port n).fell = false ∧ Tells s t 0x2043 n (s.usSince (s.port n).plcaLostAt) 0 0
        ∧ Frame [NET_P_STAT_PLCA_ACT n] [.ports, .log] s t))
  ∧ ∀ (m : Master) (n : Nat) (s : State), n < 4 → Accepted s m (0x20218 + 0x20 * n) →
      Runs (.tsqPop m n) s (fun t => (t.tsQ n).items = (s.tsQ n).items.drop 1 ∧ (t.tsQ n).seq = (s.tsQ n).seq
        ∧ Frame writeCounters [.fab, .gate, .tns] s t)

/-- The oldest frame of the FIFO whose turn it is is read whole, and the next port has the turn. One that is neither IPv4 nor PTP goes to the management core and is counted; a C37.118 frame on a named port that has
a proper length and no context is counted unknown with event 0x3001. A coded frame whose block decodes to a header frame of a context
that was unpaired when it was identified goes to the management core decoded; one with an uncorrectable error is dropped and counted. A pair member not heard
within the time-out has claim 0, and the pair decides again; the partner's decision holds for frames stamped from now on. -/
def Obligations.ParseAndPairs : Prop :=
  (∀ (n : Nat) (e : RxEntry) (r : List RxEntry) (s : State), s.turnPort = some n → (s.port n).fifo = e :: r → etherType e.bytes ≠ 0x0800 →
      isPtp e.bytes = false →
      s.ccd.lateQ = [] → s.ccd.discQ = [] →
      Runs (.parseFrame n) s (fun t => (t.port n).fifo = r ∧ t.ing.mgmt = [(n, e.bytes)] ∧ t.ing.cmds = [] ∧ t.ing.turn = (n + 1) % 6
        ∧ t.rd (ING_P_MGMT_COUNT n) = (s.cnt (ING_P_MGMT_COUNT n)).rd (ING_P_MGMT_COUNT n)
        ∧ Frame [ING_P_MGMT_COUNT n, NET_P_FSTAT_THR n, NET_P_FSTAT_OVF n] [.ports, .ccd, .ing, .log] s t))
  ∧ (∀ (n : Nat) (e : RxEntry) (r : List RxEntry) (ip : Ip) (u : Udp) (s : State), s.turnPort = some n → (s.port n).fifo = e :: r →
      etherType e.bytes = 0x0800 → parseIp e.bytes = some ip → ip.proto = 17 → u = parseUdp e.bytes ip → u.payload ≠ [] →
      byteAt u.payload 0 = 0xAA → u.dport ≠ 0 → s.rd NET_C37_UDP_PORT0 = u.dport → 22 ≤ beAt u.payload 2 2 → beAt u.payload 2 2 ≤ u.payload.length →
      beAt u.payload 2 2 ≤ 9216 → e.unchecked = false → byteAt u.payload 1 / 16 % 8 = 0 →
      (∀ c, s.is (CTX_EN c) = false) → s.ccd.lateQ = [] → s.ccd.discQ = [] →
      Runs (.parseFrame n) s (fun t => (t.port n).fifo = r ∧ t.ing.mgmt = []
        ∧ t.rd (ING_P_UNKNOWN_COUNT n) = (s.cnt (ING_P_UNKNOWN_COUNT n)).rd (ING_P_UNKNOWN_COUNT n)
        ∧ (s.is (NET_P_FSTAT_THR n) = true → Listens s → Tells s t 0x3001 n ip.src u.dport (beAt u.payload 4 2))
        ∧ Frame [ING_P_UNKNOWN_COUNT n, NET_P_FSTAT_THR n, NET_P_FSTAT_OVF n] [.ports, .ccd, .ing, .log] s t))
  ∧ (∀ (w : CodedIn) (r : List CodedIn) (inner rest : List Byte) (s : State), s.up = true → s.on 2 = true → s.on 6 = true →
      s.elsCurrent = some .decode → s.ing.coded = w :: r → elsDecode (slice w.block 16 (w.block.length - 20)) = .inl (inner, rest) →
      inner.length = leAt inner 4 4 → 52 ≤ inner.length → inner.length ≤ 65536 →
      crc32c (inner.take (inner.length - 4)) = leAt inner (inner.length - 4) 4 → byteAt inner 8 = 1 → byteAt inner 9 = 2 →
      48 + 4 * ((leAt inner 36 2 + 31) / 32) + 24 * leAt inner 40 2 + 4 = inner.length → leAt inner 42 2 = 0 →
      (s.putEntry w.ctx w.cfg).pairOf w.ctx = none → s.ccd.lateQ = [] → s.ccd.discQ = [] →
      Runs (.codedFrameDecoded false) s (fun t => t.ing.coded = r ∧ t.ing.mgmt = s.ing.mgmt ++ [(w.port, inner)]
        ∧ (∀ f ∈ ctxFields w.ctx, t.rd f = s.rd f % 2 ^ f.width)
        ∧ Frame ([ELS_JOBS_COUNT, ELS_STAT_QUEUE, ELS_STAT_BUSY, ELS_IN_LO_COUNT, ELS_IN_HI_COUNT, ELS_OUT_LO_COUNT, ELS_OUT_HI_COUNT,
            ING_P_MGMT_COUNT w.port] ++ ctxFields w.ctx) [.els, .ing, .ccd] s t))
  ∧ (∀ (w : CodedIn) (r : List CodedIn) (s : State), s.up = true → s.on 2 = true → s.on 6 = true →
      s.elsCurrent = some .decode → s.ing.coded = w :: r →
      Runs (.codedFrameDecoded true) s (fun t => t.ing.coded = r
        ∧ t.rd ING_ELSDROP_COUNT = (s.cnt ING_ELSDROP_COUNT).rd ING_ELSDROP_COUNT
        ∧ Frame [ELS_JOBS_COUNT, ELS_STAT_QUEUE, ELS_STAT_BUSY, ING_ELSDROP_COUNT] [.els, .ing, .log] s t))
  ∧ (∀ (c p x : Nat) (s : State), s.up = true → s.on 2 = true → s.rate ≠ 0 → s.pairOf c = some p → assoc s.ing.heardAt c = some x →
      s.is RED_STAT_LINK = false →
      Runs (.pairClaimTimeout c) s (fun t => x + s.eff ING_PAIR_TMO * (secU / s.rate) < t.mono ∧ t.claimNow c = 0
        ∧ assoc t.ing.accept (min c p) = some (t.pairOwn (min c p) (max c p)) ∧ Frame [] [.time, .red, .ing, .log] s t))
  ∧ ∀ (c p : Nat) (b : Bool) (s : State), s.zlOn = true → s.is RED_STAT_LINK = true → s.is RED_STAT_DRIVING = false → s.pairOf c = some p →
      Runs (.pairDecisionReceived c b) s (fun t => assoc t.ing.accept (min c p) = some (if b then c else p)
        ∧ (∀ x, stampOf s.tai ≤ x → t.pairTold (min c p) x = some (if b then c else p)) ∧ Frame [] [.ing, .log] s t)

/-- A lane whose modulators are clocked locks: LOCK and its round trip show, its stages start anew, RUN reads 1 and event 0x4001 is recorded. A locked
lane that loses its lock shows it at once; where it is enabled with acquisition, and a sample was valid before, a gap of cause 3 opens after the last valid
instant, else event 0x4002 is all. At the end of its interval a lane with PARMAX or more parity errors goes into fault, with event 0x4003 and, where it
is enabled with acquisition, a gap of cause 4; it stays in fault while the errors go on; with fewer errors a fault ends and the lane's stages start anew.
Each interval counts its errors afresh. -/
def Obligations.LaneLockLossAndFault : Prop :=
  (∀ (k r : Nat) (s : State), s.laneClk k = true → k < 24 → s.is (ACQ_L_STAT_LOCK k) = false → s.acq.lanes.length = 24 → Listens s →
      Runs (.laneLock k r) s (fun t => t.rd (ACQ_L_STAT_LOCK k) = 1 ∧ t.rd (ACQ_L_STAT_RTD k) = r % 2 ^ (ACQ_L_STAT_RTD k).width
        ∧ t.rd ACQ_STAT_RUN = 1 ∧ (t.lane k).hist = [] ∧ (t.lane k).dec = [] ∧ (t.lane k).settled = false ∧ Tells s t 0x4001 k r 0 0
        ∧ Frame [ACQ_L_STAT_LOCK k, ACQ_L_STAT_RTD k, ACQ_STAT_RUN, ACQ_STAT_GAP] [.acq, .log] s t))
  ∧ (∀ (k : Nat) (s : State), s.acqOn = true → k < 24 → s.is (ACQ_L_STAT_LOCK k) = true →
      s.laneEn k = false ∨ s.is ACQ_CFG_EN = false ∨ s.acq.lastValid = none → Listens s →
      Runs (.laneLockLoss k) s (fun t => t.rd (ACQ_L_STAT_LOCK k) = 0 ∧ t.acq.gaps = s.acq.gaps ∧ Tells s t 0x4002 k 0 0 0
        ∧ Frame [ACQ_L_STAT_LOCK k, ACQ_STAT_RUN, ACQ_STAT_GAP] [.acq, .log] s t))
  ∧ (∀ (k : Nat) (v : AcqInst) (s : State), s.acqOn = true → k < 24 → s.is (ACQ_L_STAT_LOCK k) = true → s.laneEn k = true → s.is ACQ_CFG_EN = true →
      s.acq.lastValid = some v → s.acq.gaps.any (fun g => g.cause == 3 && g.lanes == 2 ^ k) = false →
      Runs (.laneLockLoss k) s (fun t => t.rd (ACQ_L_STAT_LOCK k) = 0 ∧ t.rd ACQ_STAT_GAP = 1 ∧ t.acq.gaps = s.acq.gaps ++ [⟨3, 2 ^ k, v, 0⟩] ∧ NorKept s t))
  ∧ (∀ (k : Nat) (s : State), s.acqOn = true → k < 24 → s.eff ACQ_FAULT_PARMAX ≤ (s.lane k).perr → s.is (ACQ_L_STAT_FAULT k) = false →
      s.laneEn k = false ∨ s.is ACQ_CFG_EN = false ∨ s.acq.lastValid = none → Listens s →
      Runs (.laneFaultInterval k) s (fun t => t.rd (ACQ_L_STAT_FAULT k) = 1 ∧ (t.lane k).perr = 0 ∧ Tells s t 0x4003 k (s.lane k).perr 0 0
        ∧ Frame [ACQ_L_STAT_FAULT k] [.time, .acq, .log] s t))
  ∧ (∀ (k : Nat) (v : AcqInst) (s : State), s.acqOn = true → k < 24 → s.eff ACQ_FAULT_PARMAX ≤ (s.lane k).perr → s.is (ACQ_L_STAT_FAULT k) = false →
      s.laneEn k = true → s.is ACQ_CFG_EN = true → s.acq.lastValid = some v → s.acq.gaps.any (fun g => g.cause == 4 && g.lanes == 2 ^ k) = false →
      Runs (.laneFaultInterval k) s (fun t => t.rd (ACQ_L_STAT_FAULT k) = 1 ∧ t.rd ACQ_STAT_GAP = 1 ∧ (t.lane k).perr = 0
        ∧ t.acq.gaps = s.acq.gaps ++ [⟨4, 2 ^ k, v, 0⟩] ∧ NorKept s t))
  ∧ (∀ (k : Nat) (s : State), s.acqOn = true → k < 24 → s.eff ACQ_FAULT_PARMAX ≤ (s.lane k).perr → s.is (ACQ_L_STAT_FAULT k) = true →
      Runs (.laneFaultInterval k) s (fun t => (t.lane k).perr = 0 ∧ Frame [] [.time, .acq] s t))
  ∧ (∀ (k : Nat) (s : State), s.acqOn = true → k < 24 → (s.lane k).perr < s.eff ACQ_FAULT_PARMAX →
      Runs (.laneFaultInterval k) s (fun t => t.rd (ACQ_L_STAT_FAULT k) = 0 ∧ (t.lane k).perr = 0
        ∧ (s.is (ACQ_L_STAT_FAULT k) = true → (t.lane k).hist = [] ∧ (t.lane k).settled = false)
        ∧ Frame [ACQ_L_STAT_FAULT k] [.time, .acq] s t))
  ∧ ∀ (k n : Nat) (s : State), s.acqOn = true → k < 24 → assoc s.acq.msDone k = some n → 0 < s.inc →
      Runs (.laneFaultInterval k) s (fun t => (n + 1) * 1000000 * nsU ≤ t.tai)

/-- An output instant delivers one sample of 192 words for that instant, at or after its time, GAP on every channel of a disabled lane and on all while
acquisition does not run, and the next instant follows. BANK is written at once. A sync is armed by ACQ_SYNC, without effect while one is armed. It is
performed at once with SRC 0b10, at the top of the second after the arming with SRC 0b00 or 0b11, and with SRC 0b01 at the SYNC_N edge or, 2 s after
arming without one, at the next top of a second: the arming ends, settling begins, and ACQ_SYNC_SEC and ACQ_SYNC_NS hold the stamp of the first edge
after the event. With samples held as GAP already no other gap opens and event 0x4010 is recorded. -/
def Obligations.SamplesBanksAndSyncs : Prop :=
  (∀ (fs : List Nat) (p : Nat × Nat) (s : State), s.acqOn = true → s.acq.next = some p → 0 < s.inc →
      Runs (.sampleInstant fs) s (fun t => t.acq.next = some (instNext s.acqRate p) ∧ instU s.acqRate p ≤ t.tai
        ∧ (∃ x r, t.acq.smp = x :: r ∧ x.sec = p.1 ∧ x.n = p.2 ∧ x.epoch = s.epoch ∧ x.words.length = 192
          ∧ (s.acqRuns = false → x.words = List.replicate 192 (2 ^ 27))
          ∧ ∀ c < 192, s.laneEn (c / 8) = false → x.word c = 2 ^ 27) ∧ NorKept s t))
  ∧ (∀ (m : Master) (b : Nat) (s : State), Accepted s m ACQ_FIR_SEL_BANK.addr →
      Runs (.firBankSelect m b) s (fun t => t.rd ACQ_FIR_SEL_BANK = b % 2 ∧ Frame (ACQ_FIR_SEL_BANK :: writeCounters) [.gate, .fab] s t))
  ∧ (∀ (m : Master) (s : State), Accepted s m ACQ_SYNC_GO.addr → s.acqOn = true → s.is ACQ_STAT_ARMED = false →
      s.rd ACQ_SYNC_CFG_SRC ≠ 2 ∨ s.mclkRuns = false →
      Runs (.acqSync m) s (fun t => t.rd ACQ_STAT_ARMED = 1 ∧ t.acq.armedAt = s.mono ∧ t.acq.armedSec = s.tai / secU
        ∧ Frame (ACQ_STAT_ARMED :: writeCounters) [.gate, .fab, .acq] s t))
  ∧ (∀ (m : Master) (s : State), Accepted s m ACQ_SYNC_GO.addr → s.mclkRuns = true → s.is ACQ_STAT_ARMED = false → s.rd ACQ_SYNC_CFG_SRC = 2 →
      Runs (.acqSync m) s (fun t => t.rd ACQ_STAT_ARMED = 0 ∧ t.rd ACQ_STAT_SETTLING = 1 ∧ t.acq.hold = true
        ∧ edgeTime (edgeNext s.mono) ≤ t.mono ∧ t.rd ACQ_SYNC_SEC_SEC = secOf (t.taiAt (edgeTime (edgeNext s.mono))) % 2 ^ 32
        ∧ t.rd ACQ_SYNC_NS_NS = nsOf (t.taiAt (edgeTime (edgeNext s.mono))) % 2 ^ 30
        ∧ (s.acq.hold = true → Listens s → Tells s t 0x4010 2 (secOf (t.taiAt (edgeTime (edgeNext s.mono)))) (nsOf (t.taiAt (edgeTime (edgeNext s.mono)))) (s.rd ACQ_LANE_EN_EN)
          ∧ Frame ([ACQ_STAT_ARMED, ACQ_STAT_SETTLING, ACQ_SYNC_SEC_SEC, ACQ_SYNC_NS_NS] ++ writeCounters) [.time, .gate, .fab, .acq, .log] s t)))
  ∧ (∀ (m : Master) (s : State), Accepted s m ACQ_SYNC_GO.addr → s.is ACQ_STAT_ARMED = true →
      Runs (.acqSync m) s (fun t => Frame writeCounters [.gate, .fab] s t))
  ∧ (∀ s : State, s.mclkRuns = true → s.is ACQ_STAT_ARMED = true → s.rd ACQ_SYNC_CFG_SRC ≠ 1 → 0 < s.inc →
      Runs .acqSyncInstant s (fun t => t.rd ACQ_STAT_ARMED = 0 ∧ t.rd ACQ_STAT_SETTLING = 1 ∧ t.acq.hold = true
        ∧ (s.acq.armedSec + 1) * secU ≤ t.tai
        ∧ (s.acq.hold = true → Frame [ACQ_STAT_ARMED, ACQ_STAT_SETTLING, ACQ_SYNC_SEC_SEC, ACQ_SYNC_NS_NS] [.time, .acq, .log] s t)))
  ∧ (∀ s : State, s.mclkRuns = true → s.is ACQ_STAT_ARMED = true → s.rd ACQ_SYNC_CFG_SRC = 1 →
      Runs .syncNEdge s (fun t => t.rd ACQ_STAT_ARMED = 0 ∧ t.rd ACQ_STAT_SETTLING = 1 ∧ t.acq.hold = true
        ∧ edgeTime (edgeNext s.mono) ≤ t.mono ∧ t.rd ACQ_SYNC_SEC_SEC = secOf (t.taiAt (edgeTime (edgeNext s.mono))) % 2 ^ 32
        ∧ t.rd ACQ_SYNC_NS_NS = nsOf (t.taiAt (edgeTime (edgeNext s.mono))) % 2 ^ 30
        ∧ (s.acq.hold = true → Listens s → Tells s t 0x4010 1 (secOf (t.taiAt (edgeTime (edgeNext s.mono)))) (nsOf (t.taiAt (edgeTime (edgeNext s.mono)))) (s.rd ACQ_LANE_EN_EN)
          ∧ Frame [ACQ_STAT_ARMED, ACQ_STAT_SETTLING, ACQ_SYNC_SEC_SEC, ACQ_SYNC_NS_NS] [.time, .acq, .log] s t)))
  ∧ ∀ s : State, s.mclkRuns = true → s.is ACQ_STAT_ARMED = true → s.rd ACQ_SYNC_CFG_SRC = 1 →
      Runs .syncNTimeout s (fun t => t.rd ACQ_STAT_ARMED = 0 ∧ t.rd ACQ_STAT_SETTLING = 1 ∧ t.acq.hold = true
        ∧ s.acq.armedAt + 2 * secU ≤ t.mono
        ∧ (s.acq.hold = true → Frame [ACQ_STAT_ARMED, ACQ_STAT_SETTLING, ACQ_SYNC_SEC_SEC, ACQ_SYNC_NS_NS] [.time, .acq, .log] s t))

/-- A level that after INV is opposite to the accepted one and has held for the debounce time replaces it, is counted, and its stamp is that of its first sample, the
debounce time back; more than CHAT_MAX such changes in the second make the input chatter. With no log, capture, trigger or alarm engine to take
the change and no chatter detection, nothing else changes. At the end of chatter the level that then differs from the held one is accepted; one
that does not only records event 0x4031. -/
def Obligations.StatusInputs : Prop :=
  (∀ (i : Nat) (s : State), s.acqOn = true → i < 64 → s.is (ACQ_STI_CFG_EN i) = true → s.chattering i = false →
      s.rd ACQ_STI_STATE_LO_STATE < 2 ^ 32 → s.rd ACQ_STI_CHAT_LO_CHAT < 2 ^ 32 →
      Runs (.statusInputAccept i) s (fun t => t.stiLevel i = !s.stiLevel i
        ∧ t.rd ACQ_STI_CHGCNT_COUNT = (s.cnt ACQ_STI_CHGCNT_COUNT).rd ACQ_STI_CHGCNT_COUNT
        ∧ t.acq.stiLog.head? = some (stampOf (t.taiAsOf (s.rd (ACQ_STI_CFG_DEB i) * 16000)) - s.rd (ACQ_STI_CFG_DEB i) * 16000, t.stiLevels)
        ∧ t.chattering i = (s.is ACQ_STI_GCFG_CHAT_MAX && decide (s.rd ACQ_STI_GCFG_CHAT_MAX < (assoc t.acq.stiCnt i).getD 0)) ∧ NorKept s t))
  ∧ (∀ (i : Nat) (s : State), s.acqOn = true → i < 64 → s.is (ACQ_STI_CFG_EN i) = true → s.chattering i = false →
      s.rd ACQ_STI_GCFG_CHAT_MAX = 0 → s.is CAP_CFG_STI_EN = false → s.is (ACQ_STI_CFG_LOG i) = false →
      (∀ k, s.rd (CAP_TRIG_CFG_SRC k) ≠ 0x23) → s.on 4 = false → s.ccd.lateQ = [] → s.ccd.discQ = [] →
      Runs (.statusInputAccept i) s (fun t =>
        Frame [ACQ_STI_STATE_LO_STATE, ACQ_STI_STATE_HI_STATE, ACQ_STI_CHGCNT_COUNT] [.time, .acq, .ccd] s t))
  ∧ (∀ (i : Nat) (raw : Bool) (s : State), s.acqOn = true → i < 64 → s.chattering i = true →
      s.is (ACQ_STI_CFG_EN i) = false ∨ s.stiIn i raw = s.stiLevel i → Listens s →
      Runs (.chatterEnd i raw) s (fun t => t.chattering i = false ∧ Tells s t 0x4031 i (b2n (s.stiIn i raw)) 0 0
        ∧ Frame [ACQ_STI_CHAT_LO_CHAT, ACQ_STI_CHAT_HI_CHAT] [.log] s t))
  ∧ ∀ (i : Nat) (raw : Bool) (s : State), s.acqOn = true → i < 64 → s.chattering i = true → s.is (ACQ_STI_CFG_EN i) = true →
      s.stiIn i raw ≠ s.stiLevel i → s.rd ACQ_STI_STATE_LO_STATE < 2 ^ 32 → s.rd ACQ_STI_CHAT_LO_CHAT < 2 ^ 32 →
      Runs (.chatterEnd i raw) s (fun t => t.stiLevel i = s.stiIn i raw
        ∧ t.rd ACQ_STI_CHGCNT_COUNT = (s.cnt ACQ_STI_CHGCNT_COUNT).rd ACQ_STI_CHGCNT_COUNT
        ∧ t.chattering i = (s.is ACQ_STI_GCFG_CHAT_MAX && decide (s.rd ACQ_STI_GCFG_CHAT_MAX < (assoc t.acq.stiCnt i).getD 0)) ∧ NorKept s t)

/-- A grid point is worked no earlier than its time, and the next follows. With every detector's source in a gap, values and flags hold and READY falls. A
home-stream frame flagged twice is missing: LASTSTAT 0xC000, its bit in PHS_HS_MISS set; otherwise LASTSTAT is the STAT of the frame formed and the bit
says whether it is missing. With PD4 off, where no slot takes the frame, nothing else changes. The vector-shift flag falls when its hold ends (nothing else
changes where no trigger and no alarm engine takes it), and holds during a gap. A monitor without history is not ready; one with history is
ready and shows new values, which an update flagged twice does not. -/
def Obligations.PhasorsAndMonitors : Prop :=
  (∀ (fs : List Nat) (s : State), s.phsRuns = true → 0 < s.inc →
      Runs (.phasorGridPoint fs) s (fun t => t.phs.grid = some (instNext 2400 (s.phs.grid.getD (instFrom 2400 s.tai)))
        ∧ t.rd PHS_STAT_RUN = b2n s.acqRuns
        ∧ tauU (gridTau (s.phs.grid.getD (instFrom 2400 s.tai)) + s.maxG s.lomLanes) + 53000 * nsU ≤ t.tai ∧ NorKept s t))
  ∧ (∀ (fs : List Nat) (s : State), s.phsRuns = true → (∀ d < 8, s.lomGap d = true ∧ nth fs d 0 = 0) →
      Runs (.phasorGridPoint fs) s (fun t => (∀ d < 8, t.rd (PHS_LOM_STAT_READY d) = 0)
        ∧ Frame (PHS_STAT_RUN :: (List.range 8).map PHS_LOM_STAT_READY ++ (List.range 16).map PHS_SSO_STAT_READY) [.time, .phs] s t))
  ∧ (∀ (h n : Nat) (p : Nat × Nat) (s : State), s.phsRuns = true → s.rate ≠ 0 → assoc s.phs.homeAt h = some p → 2 ≤ n → h < 32 → s.on 4 = false →
      Runs (.homeStreamComplete h n) s (fun t => t.rd (HSM_LASTSTAT h) = 0xC000 ∧ bit (t.rd PHS_HS_MISS_MISS) h = 1
        ∧ t.rd RED_RES_CNT_COUNT = ((s.cnt RED_RES_CNT_COUNT).cnt RED_RES_CNT_COUNT).rd RED_RES_CNT_COUNT
        ∧ Frame [HSM_LASTSTAT h, PHS_HS_MISS_MISS, RED_RES_CNT_COUNT] [.time, .phs, .log] s t))
  ∧ (∀ (h : Nat) (p : Nat × Nat) (g : RegFile) (u s : State), s.phsRuns = true → s.rate ≠ 0 → assoc s.phs.homeAt h = some p → h < 32 → s.on 4 = false →
      g = s.phsVals (gridNs s.rate p) →
      u = s.advanceTo (tauU (slotTau s.rate p + ((s.classH (g.get (HSM_CLASS h) == 1) (s.rate / max 1 (gEff g (HSM_DIV h)))
            + s.classT (g.get (HSM_CLASS h) == 1) (s.rate / max 1 (gEff g (HSM_DIV h))) / 2 : Nat) : Int) + s.maxG (homeChans g h)) + 53000 * nsU) →
      Runs (.homeStreamComplete h 0) s (fun t => t.rd (HSM_LASTSTAT h) = (u.homeFrame g h p false).stat % 2 ^ 16
        ∧ bit (t.rd PHS_HS_MISS_MISS) h = b2n ((u.homeFrame g h p false).kind == 2)
        ∧ Frame [HSM_LASTSTAT h, PHS_HS_MISS_MISS] [.time, .phs, .log] s t))
  ∧ (∀ (d e : Nat) (s : State), s.phsRuns = true → d < 8 → s.is (PHS_LOM_STAT_VS d) = true → s.lomGap d = false → (s.lom d).holdEnd = some e → 0 < s.inc →
      Runs (.vsHoldExpiry d) s (fun t => t.rd (PHS_LOM_STAT_VS d) = 0 ∧ (t.lom d).holdEnd = none ∧ e ≤ t.tai ∧ NorKept s t
        ∧ ((∀ k, s.rd (CAP_TRIG_CFG_SRC k) ≠ 0x21) → s.on 4 = false → Frame [PHS_LOM_STAT_VS d] [.time, .phs] s t)))
  ∧ (∀ (d : Nat) (s : State), s.phsRuns = true → d < 8 → s.lomGap d = true → Runs (.vsHoldExpiry d) s (fun t => Frame [] [] s t))
  ∧ (∀ (m : Nat) (s : State), s.phsRuns = true → m < 16 → s.is (PHS_SSO_CFG_EN m) = true → s.acq.smp = [] → s.phs.sso.length = 16 →
      Runs (.ssoUpdate m 0) s (fun t => t.rd (PHS_SSO_STAT_READY m) = 0 ∧ (t.ssoOf m).due = t.tai / tenthU + 1
        ∧ Frame [PHS_SSO_STAT_READY m] [.time, .phs] s t))
  ∧ (∀ (m : Nat) (u s : State), s.phsRuns = true → m < 16 → s.is (PHS_SSO_CFG_EN m) = true → 0 < (s.ssoOf m).due →
      (s.ssoOf m).run + 1 < s.eff (PHS_SSO_THR_SSO_N m) → u = s.advanceTo ((s.ssoOf m).due * tenthU) →
      (s.ssoOf m).since ≤ (((s.ssoOf m).due * (secT / 10) : Nat) : Int) - s.maxG [s.rd (PHS_SSO_CFG_CH m)] - ((2 * secT : Nat) : Int) →
      (u.chWin (s.rd (PHS_SSO_CFG_CH m)) ((((s.ssoOf m).due * (secT / 10) : Nat) : Int) - s.maxG [s.rd (PHS_SSO_CFG_CH m)] - ((2 * secT : Nat) : Int))
        ((((s.ssoOf m).due * (secT / 10) : Nat) : Int) - s.maxG [s.rd (PHS_SSO_CFG_CH m)])).isSome = true →
      Runs (.ssoUpdate m 0) s (fun t => t.rd (PHS_SSO_STAT_READY m) = 1
        ∧ Frame [PHS_SSO_STAT_READY m, PHS_SSO_F1 m, PHS_SSO_A1 m, PHS_SSO_F2 m, PHS_SSO_A2 m] [.time, .phs] s t))
  ∧ ∀ (m n : Nat) (s : State), s.phsRuns = true → m < 16 → s.is (PHS_SSO_CFG_EN m) = true → 2 ≤ n →
      Runs (.ssoUpdate m n) s (fun t => t.rd RED_RES_CNT_COUNT = ((s.cnt RED_RES_CNT_COUNT).cnt RED_RES_CNT_COUNT).rd RED_RES_CNT_COUNT
        ∧ Frame [PHS_SSO_STAT_READY m, RED_RES_CNT_COUNT] [.time, .phs, .log] s t)

/-- At a slot time with nothing waiting to be applied and no slot held, the slot opens in its ring position when that is free, with the next serial
number and the state OPEN, or is held with CCD_STAT.HELD when it is not; the grid goes on to the next slot time either way. The speculation point makes a slot SPECULATED and new with its quorum; the
commit point makes it COMMITTING with the counter as its C; neither changes any other slot. -/
def Obligations.SlotInstants : Prop :=
  (∀ s : State, s.slotsRun = true → s.slotWaits = false → s.pend = [] → s.ccd.helds = [] → s.ccd.paused = false → s.posFree = true →
      0 < s.inc →
      Runs .slotOpen s (fun t => t.ccd.o = some s.nextSlotNs ∧ t.ccd.grid = gridStep s.rate s.ccd.grid 1 ∧ s.nextSlotNs * nsU ≤ t.tai
        ∧ (∃ x, t.slot (s.rd CCD_NEXT_SERIAL_SERIAL % 128) = some x ∧ x.serial = s.rd CCD_NEXT_SERIAL_SERIAL ∧ x.t = s.nextSlotNs ∧ x.st = 2
            ∧ x.epoch = s.epoch ∧ x.released = false)
        ∧ t.rd CCD_NEXT_SERIAL_SERIAL = (s.rd CCD_NEXT_SERIAL_SERIAL + 1) % 2 ^ 32
        ∧ t.rd CCD_OPENED_COUNT = (s.cnt CCD_OPENED_COUNT).rd CCD_OPENED_COUNT))
  ∧ (∀ s : State, s.slotsRun = true → s.slotWaits = false → s.pend = [] → s.ccd.helds = [] → s.ccd.paused = false → s.posFree = false → 0 < s.inc →
      Runs .slotOpen s (fun t => t.ccd.o = some s.nextSlotNs ∧ t.ccd.grid = gridStep s.rate s.ccd.grid 1 ∧ t.rd CCD_STAT_HELD = 1
        ∧ (∃ h, t.ccd.helds = [h] ∧ h.t = s.nextSlotNs) ∧ t.ccd.ring = s.ccd.ring
        ∧ t.rd CCD_NEXT_SERIAL_SERIAL = s.rd CCD_NEXT_SERIAL_SERIAL
        ∧ t.rd CCD_DEFERRED_COUNT = (s.cnt CCD_DEFERRED_COUNT).rd CCD_DEFERRED_COUNT))
  ∧ (∀ (x p : Nat) (sl : Slot) (s : State), s.slotsRun = true → s.firstPoint = some (x, 1, p) → x ≤ s.nextSlotNs → s.slot p = some sl → 0 < s.inc →
      Runs .speculationPoint s (fun t => t.slot p = some { sl with st := 3, new := true, specQuor := sl.quorum (s.gen sl.gen) }
        ∧ x * nsU ≤ t.tai ∧ (∀ q, q ≠ p → t.slot q = s.slot q) ∧ Frame [] [.time, .ccd] s t))
  ∧ ∀ (x p : Nat) (sl : Slot) (s : State), s.slotsRun = true → s.firstPoint = some (x, 0, p) → x ≤ s.nextSlotNs → s.slot p = some sl → 0 < s.inc →
      s.ccd.helds = [] → s.ccd.lateQ = [] → s.ccd.discQ = [] →
      Runs .commitPoint s (fun t => t.slot p = some { sl with st := 4, cAt := some (stampOf t.tai), cIrc := s.ircDirect }
        ∧ x * nsU ≤ t.tai ∧ (∀ q, q ≠ p → t.slot q = s.slot q) ∧ Frame [CCD_STAT_HELD] [.time, .ccd] s t)

/-- The oldest COMMITTING slot with no backlog freezes: it is INDICATIVE and its serial is the last committed. The idle outlet port takes the next
outlet item; with the archive off and no audit due it counts a skipped archive entry and changes nothing else. Its completion, with no archive entry of
the slot waiting, releases the slot's position and no other, and the item is gone. -/
def Obligations.FreezeAndRelease : Prop :=
  (∀ (n p : Nat) (sl : Slot) (s : State), s.slotsRun = true → oldestSlot s.ccd.ring (fun x => x.st == 4) = some (p, sl) → s.mayFreeze sl = true →
      Runs (.freeze n) s (fun t => (∃ x, t.slot p = some x ∧ x.st = 5 ∧ x.serial = sl.serial ∧ x.t = sl.t)
        ∧ t.rd CCD_LAST_SERIAL_SERIAL = sl.serial % 2 ^ 32 ∧ NorKept s t ∧ DramKept s t))
  ∧ (∀ (it : Item) (s : State), s.up = true → s.on 4 = true → s.holdCause ≠ 1 → s.outlet = none →
      s.readyItems.find? (fun x => x.typ == 3) = some it → Runs .outletStart s (fun t => t.outlet = some { it with began := some s.mono } ∧ NorKept s t))
  ∧ (∀ (it : Item) (p : Nat) (sl : Slot) (s : State), s.up = true → s.on 4 = true → s.holdCause ≠ 1 → s.outlet = none →
      s.readyItems.find? (fun x => x.typ == 3) = some it → s.bySerial it.serial = some (p, sl) → s.arcOn = false → s.cap.arcWait = none →
      s.red.audSlots.contains sl.serial = false →
      Runs .outletStart s (fun t => t.outlet = some { it with began := some s.mono }
        ∧ t.rd ARC_SKIPPED_COUNT = (s.cnt ARC_SKIPPED_COUNT).rd ARC_SKIPPED_COUNT ∧ Frame [ARC_SKIPPED_COUNT] [.sch, .log] s t))
  ∧ ∀ (it : Item) (p : Nat) (sl : Slot) (s : State), s.up = true → s.on 4 = true → s.outlet = some it → s.cap.arcWait ≠ some it.serial →
      s.bySerial it.serial = some (p, sl) → s.ccd.helds = [] → s.ccd.lateQ = [] → s.ccd.discQ = [] →
      Runs .outletComplete s (fun t => t.slot p = some { sl with released := true } ∧ (∀ q, q ≠ p → t.slot q = s.slot q)
        ∧ (∀ x, x ∈ t.sch.items → x.handle ≠ it.handle) ∧ Frame [CCD_STAT_OPEN] [.ccd, .sch] s t)

/-- A write of CCD_CFG that leaves an allowed rate is taken, one that does not is refused with event 0x5061; a time base of zero is refused likewise. The
idle subjunctive chain takes the slot it chooses if that holds no credit: the slot is no longer new or dirty, holds a credit, and its item is queued. One that
is not new is only cleared at revision 15, or, with event 0x5106 and counted, when its predecessor's checkpoint is lost. With a credit held nothing happens. -/
def Obligations.GridSettingAndSubjunctiveStart : Prop :=
  (∀ (m : Master) (a : Access) (s : State), a.addr = 0x70000 → Accepted s m a.addr → rateOk (bit a.data 0 == 1) (bits a.data 8 8) = true →
      Runs (.ccdCfgWrite m a) s (fun t => t.rd CCD_CFG_FSYS = bit a.data 0 ∧ t.rd CCD_CFG_RATE = bits a.data 8 8
        ∧ Frame ([CCD_CFG_FSYS, CCD_CFG_RATE] ++ writeCounters) [.gate, .fab] s t))
  ∧ (∀ (m : Master) (a : Access) (s : State), a.addr = 0x70000 → Accepted s m a.addr → rateOk (bit a.data 0 == 1) (bits a.data 8 8) = false → Listens s →
      Runs (.ccdCfgWrite m a) s (fun t => Tells s t 0x5061 a.addr a.data (mNum m) 0 ∧ Frame writeCounters [.gate, .fab, .log] s t))
  ∧ (∀ (m : Master) (a : Access) (s : State), a.addr = 0x70004 → Accepted s m a.addr → a.data % 2 ^ 24 ≠ 0 →
      Runs (.ccdCfgWrite m a) s (fun t => t.rd CCD_TBASE_TBASE = a.data % 2 ^ 24 ∧ Frame (CCD_TBASE_TBASE :: writeCounters) [.gate, .fab] s t))
  ∧ (∀ (m : Master) (a : Access) (s : State), a.addr = 0x70004 → Accepted s m a.addr → a.data % 2 ^ 24 = 0 → Listens s →
      Runs (.ccdCfgWrite m a) s (fun t => Tells s t 0x5061 a.addr a.data (mNum m) 0 ∧ Frame writeCounters [.gate, .fab, .log] s t))
  ∧ (∀ (p : Nat) (sl : Slot) (s : State), s.up = true → s.on 4 = true → s.ccd.evS = none → s.subChoice = some (p, sl) → sl.credit = false →
      sl.new = true ∨ (sl.rev ≠ some 15 ∧ s.ccd.lost.contains ((sl.serial + 2 ^ 32 - 1) % 2 ^ 32) = false) →
      Runs .subjunctiveEvaluationStart s (fun t => t.rd CCD_SPECSTAT_SBUSY = 1 ∧ (∃ e, t.ccd.evS = some e ∧ e.serial = sl.serial)
        ∧ (∃ x, t.slot p = some x ∧ x.new = false ∧ x.dirty = false ∧ x.chained = false ∧ x.credit = true ∧ x.serial = sl.serial ∧ x.st = sl.st)
        ∧ (∃ it, it ∈ t.sch.items ∧ it.typ = 1 ∧ it.serial = sl.serial) ∧ (∀ q, q ≠ p → t.slot q = s.slot q)
        ∧ Frame [CCD_SPECSTAT_SBUSY, CCD_SPECSTAT_INFLIGHT, CCD_INFL_MAX_MAX] [.ccd, .sch] s t))
  ∧ (∀ (p : Nat) (sl : Slot) (s : State), s.up = true → s.on 4 = true → s.ccd.evS = none → s.subChoice = some (p, sl) → sl.credit = false →
      sl.new = false → sl.rev = some 15 →
      Runs .subjunctiveEvaluationStart s (fun t => t.slot p = some { sl with dirty := false, chained := false } ∧ Frame [] [.ccd] s t))
  ∧ (∀ (p : Nat) (sl : Slot) (s : State), s.up = true → s.on 4 = true → s.ccd.evS = none → s.subChoice = some (p, sl) → sl.credit = false →
      sl.new = false → sl.rev ≠ some 15 → s.ccd.lost.contains ((sl.serial + 2 ^ 32 - 1) % 2 ^ 32) = true → Listens s →
      Runs .subjunctiveEvaluationStart s (fun t => t.slot p = some { sl with dirty := false, chained := false }
        ∧ t.rd CCD_NOREPLAY_COUNT = (s.cnt CCD_NOREPLAY_COUNT).rd CCD_NOREPLAY_COUNT ∧ Tells s t 0x5106 sl.serial 0 0 0
        ∧ Frame [CCD_NOREPLAY_COUNT] [.ccd, .log] s t))
  ∧ ∀ (p : Nat) (sl : Slot) (s : State), s.subChoice = some (p, sl) → sl.credit = true →
      Runs .subjunctiveEvaluationStart s (fun t => Frame [] [] s t)

/-- A dispatch puts a job of the chosen item on the chosen lane, whose clock runs, and counts for its group; the first job of an indicative evaluation starts it;
a sheddable item of a shed group is dropped, counted and recorded; with nothing to dispatch only the tick passes. A firmware job that completes frees its
lane, and its finished item is gone; one of an item with more to do only counts there; a flagged one goes back to its item and is counted; nothing
completes in IRC-direct. A submission without delay takes the lowest free handle from 320 up, or is refused by reason. A self-test is queued for each lane in
service. A delayed item joins its group when it falls due. -/
def Obligations.Scheduler : Prop :=
  (∀ s : State, s.up = true → s.on 4 = true → s.holdCause = 0 → s.choose = none → Runs .jobDispatch s (fun t => Frame [] [.time] s t))
  ∧ (∀ (l g : Nat) (it : Item) (s : State), s.up = true → s.on 4 = true → s.holdCause = 0 → s.choose = some (l, g, it) → s.item it.handle = some it →
      s.isShed it.grp = false ∨ (it.typ ≠ 4 ∧ it.typ ≠ 5) → it.began.isSome = true ∨ it.typ ≠ 2 → s.sch.lanes.length = 16 →
      Runs .jobDispatch s (fun t => (∃ j, t.laneJob l = some ⟨it.handle, it.gen, it.stage, j⟩)
        ∧ t.rd (SCH_DISP_COUNT it.grp) = (s.cnt (SCH_DISP_COUNT it.grp)).rd (SCH_DISP_COUNT it.grp) ∧ bit t.gate.opened l = 1
        ∧ Frame [SCH_STAT_BUSY, SCH_DISP_COUNT it.grp] [.time, .gate, .ccd, .sch] s t))
  ∧ (∀ (l g p : Nat) (it : Item) (sl : Slot) (s : State), s.up = true → s.on 4 = true → s.holdCause = 0 → s.choose = some (l, g, it) →
      s.item it.handle = some it → it.typ = 2 → it.began = none → it.next = 0 → it.put = [] → it.bars = [] → s.bySerial it.serial = some (p, sl) →
      s.sch.lanes.length = 16 →
      Runs .jobDispatch s (fun t => (∃ st j, t.laneJob l = some ⟨it.handle, it.gen, st, j⟩) ∧ t.rd CCD_SPECSTAT_IBUSY = 1
        ∧ (∃ e, t.ccd.evI = some e ∧ e.serial = sl.serial ∧ e.view = sl.plainView) ∧ NorKept s t))
  ∧ (∀ (l g : Nat) (it : Item) (s : State), s.up = true → s.on 4 = true → s.holdCause = 0 → s.choose = some (l, g, it) → s.sch.items = [it] →
      s.isShed it.grp = true → it.typ = 5 → Listens s →
      Runs .jobDispatch s (fun t => t.sch.items = [] ∧ t.rd SCH_SHEDDROP_COUNT = (s.cnt SCH_SHEDDROP_COUNT).rd SCH_SHEDDROP_COUNT
        ∧ Tells s t 0x7003 5 it.grp it.handle 0
        ∧ Frame [SCH_SHEDDROP_COUNT] [.time, .sch, .log] s t))
  ∧ (∀ (l : Nat) (b : Bool) (s : State), s.rd CLK_STAT_STATE = 1 → Runs (.laneJobComplete l b) s (fun t => Frame [] [] s t))
  ∧ (∀ (l : Nat) (j : LaneJob) (it : Item) (s : State), s.up = true → s.on 4 = true → s.rd CLK_STAT_STATE ≠ 1 → s.laneJob l = some j →
      s.jobItem j = some it → it.put ≠ [] ∨ it.next < it.count ∨ 1 < it.out →
      Runs (.laneJobComplete l false) s (fun t => t.laneJob l = none ∧ t.jobItem j = some { it with out := it.out - 1 }
        ∧ Frame [SCH_STAT_BUSY] [.ccd, .sch] s t))
  ∧ (∀ (l : Nat) (j : LaneJob) (it : Item) (s : State), s.up = true → s.on 4 = true → s.rd CLK_STAT_STATE ≠ 1 → s.laneJob l = some j →
      s.jobItem j = some it → it.typ = 7 → it.stages = [1] → it.stage = 0 → it.next = 1 → it.put = [] → it.out = 1 →
      Runs (.laneJobComplete l false) s (fun t => t.laneJob l = none ∧ (∀ x, x ∈ t.sch.items → x.handle ≠ it.handle)
        ∧ Frame [SCH_STAT_BUSY] [.sch] s t))
  ∧ (∀ (l : Nat) (j : LaneJob) (it : Item) (s : State), s.up = true → s.on 4 = true → s.rd CLK_STAT_STATE ≠ 1 → s.laneJob l = some j →
      s.jobItem j = some it → it.typ ≠ 5 → assoc s.sch.mismatchAt l = none →
      Runs (.laneJobComplete l true) s (fun t => t.laneJob l = none
        ∧ t.rd SCH_RETRY_COUNT = (s.cnt SCH_RETRY_COUNT).rd SCH_RETRY_COUNT
        ∧ t.rd RED_RES_CNT_COUNT = (s.cnt RED_RES_CNT_COUNT).rd RED_RES_CNT_COUNT ∧ assoc t.sch.mismatchAt l = some s.mono
        ∧ Frame [SCH_STAT_BUSY, SCH_RETRY_COUNT, RED_RES_CNT_COUNT] [.sch, .log] s t))
  ∧ (∀ (h : Nat) (s : State), Accepted s .mc SCH_SUB_CMD_GO.addr → s.rd SCH_SUB_W0_TYPE = 7 → s.rd SCH_SUB_W0_KEY = 0 → s.freeHandle 320 704 = some h →
      s.rd SCH_SUB_W2_DELAY = 0 → s.is SCH_SUB_W1_AFTER_EN = false →
      Runs .firmwareSubmit s (fun t => t.rd SCH_SUB_STAT_OK = 1 ∧ t.rd SCH_SUB_STAT_FULL = 0 ∧ t.rd SCH_SUB_STAT_HANDLE = h % 2 ^ SCH_SUB_STAT_HANDLE.width
        ∧ (∃ it, it ∈ t.sch.items ∧ it.handle = h ∧ it.typ = 7 ∧ it.serial = s.rd SCH_SUB_W3_JOB ∧ it.after = none)
        ∧ Frame ([SCH_SUB_STAT_OK, SCH_SUB_STAT_FULL, SCH_SUB_STAT_HANDLE, SCH_SUB_STAT_GEN] ++ writeCounters) [.gate, .fab, .sch] s t))
  ∧ (∀ s : State, Accepted s .mc SCH_SUB_CMD_GO.addr → s.rd SCH_SUB_W0_TYPE ≠ 7 → Listens s →
      Runs .firmwareSubmit s (fun t => t.rd SCH_SUB_STAT_OK = 0 ∧ Tells s t 0x7020 3 0 0 0
        ∧ t.rd SCH_REFUSED_COUNT = (s.cnt SCH_REFUSED_COUNT).rd SCH_REFUSED_COUNT
        ∧ Frame ([SCH_SUB_STAT_OK, SCH_SUB_STAT_FULL, SCH_REFUSED_COUNT] ++ writeCounters) [.gate, .fab, .log] s t))
  ∧ (∀ s : State, s.up = true → s.on 4 = true → s.is SCH_STEST_MS = true →
      Runs .selfTestDue s (fun t => t.sch.stestAt = s.sch.stestAt + s.rd SCH_STEST_MS * 1000000 * nsU ∧ t.sch.stestAt ≤ t.mono
        ∧ (∀ l, s.laneIn l = true → ∃ it, it ∈ t.sch.items ∧ it.typ = 5 ∧ it.serial = l) ∧ Frame [] [.time, .sch] s t))
  ∧ ∀ (e : Dly) (it : Item) (s : State), s.up = true → s.on 4 = true → s.sch.dly = [e] → e.what = .fw it → 0 < s.inc →
      Runs .delayRelease s (fun t => t.sch.dly = [] ∧ e.due ≤ t.tai
        ∧ (∃ x, x ∈ t.sch.items ∧ x.handle = it.handle ∧ x.typ = it.typ ∧ x.grp = s.rd (SCH_MAP_GRP 7)) ∧ Frame [] [.time, .sch] s t)

/-- A direct definition whose duration ends changes its state, its ACT and DRIVE with it (stated with no combination of definitions and no capture trigger).
A pin whose hold ends takes its forced value, or without one is active only if a definition is. An acknowledgement clears LATCHED, or does nothing to a
definition that has not latched. -/
def Obligations.AlarmTimersHoldsAcks : Prop :=
  (∀ (d x : Nat) (e : Dly) (s : State), s.up = true → d < 2048 → s.sch.dly.find? (fun y => y.what == .timer d) = some e → (s.dir d).since = some x →
      (∀ k, s.rd (ALM_SOURCE k) ≠ 0x25 ∧ s.rd (ALM_SOURCE k) ≠ 0x26) → 16 ≤ s.rd (ALM_CAP d) →
      Runs (.directAlarmTimer d) s (fun t => t.rd (ALM_ACT_I d) = b2n (s.dir d).wantOn ∧ t.rd (ALM_DRIVE d) = b2n (s.dir d).wantOn
        ∧ (t.dir d).act = (s.dir d).wantOn ∧ (t.dir d).since = none ∧ KeepsRest [.time, .sch, .ana, .log] s t))
  ∧ (∀ (p : Nat) (e : Dly) (s : State), s.up = true → p < 16 → s.sch.dly.find? (fun y => y.what == .pin p) = some e →
      Runs (.almHoldExpiry p) s (fun t =>
        bit (t.rd ANA_PIN_STATE_LOGIC) p = b2n (if s.is (ANA_PIN_CFG_FORCE p) then s.is (ANA_PIN_CFG_FVAL p) else s.defLevel p)
        ∧ Frame [ANA_PIN_STATE_LOGIC, ANA_PIN_STATE_DRIVEN] [.time, .sch, .ana] s t))
  ∧ (∀ (m : Master) (d : Nat) (s : State), Accepted s m ANA_ALM_ACK_DEF.addr → s.is (ALM_LATCHED (d % 2048)) = true →
      Runs (.alarmAck m d) s (fun t => t.rd (ALM_LATCHED (d % 2048)) = 0 ∧ t.rd (ALM_DRIVE (d % 2048)) = s.rd (ALM_DRIVE (d % 2048))
        ∧ KeepsRest [.gate, .fab, .sch, .ana, .log] s t))
  ∧ ∀ (m : Master) (d : Nat) (s : State), Accepted s m ANA_ALM_ACK_DEF.addr → s.is (ALM_LATCHED (d % 2048)) = false →
      Runs (.alarmAck m d) s (fun t => Frame writeCounters [.gate, .fab] s t)

/-- While the unit drives, the head frame of a queue that has not outlived PUB_MAXAGE enters an open port's transmit buffer as room appears (stated with
nothing held for the buffer), and is counted sent; into a port that takes nothing it is dropped and counted in TXDROP; without room it stays.
While the unit does not drive, the frame is discarded and counted in SUPP. The oldest subjunctive frame of a queue is dropped and counted once it has waited
longer than PUB_MAXAGE. A command session idle for PUB_TCP.IDLE s is closed. -/
def Obligations.PublicationQueues : Prop :=
  (∀ (n : Nat) (f : PubFrame) (r : List PubFrame) (s : State), s.portUp n = true → s.pubQ n = f :: r → f.kind ≠ 0 ∨ s.mono ≤ f.formedAt + s.maxAge →
      s.is RED_STAT_DRIVING = true → s.txOpen n = true → s.txRoom n 2 f.bytes.length = true → (s.port n).held = [] → s.ports.length = 6 →
      Runs (.pubQueueDrain n) s (fun t => t.pubQ n = r ∧ (t.port n).tx = (s.port n).tx ++ [⟨2, f.bytes, f.c37, false⟩]
        ∧ t.rd (OST_SENT f.o) = (s.cnt (OST_SENT f.o)).rd (OST_SENT f.o)
        ∧ Frame [OST_SENT f.o, PUB_QLVL_BYTES n] [.ports, .ccd, .pub] s t))
  ∧ (∀ (n : Nat) (f : PubFrame) (r : List PubFrame) (s : State), s.portUp n = true → s.pubQ n = f :: r → f.kind ≠ 0 ∨ s.mono ≤ f.formedAt + s.maxAge →
      s.is RED_STAT_DRIVING = true → s.txOpen n = false → Listens s →
      Runs (.pubQueueDrain n) s (fun t => t.pubQ n = r ∧ Tells s t 0x2060 n 2 (max (f.bytes.length + 4) 64) 0
        ∧ t.rd (NET_P_TXDROP_COUNT n) = (s.cnt (NET_P_TXDROP_COUNT n)).rd (NET_P_TXDROP_COUNT n)
        ∧ Frame [NET_P_TXDROP_COUNT n, PUB_QLVL_BYTES n] [.pub, .log] s t))
  ∧ (∀ (n : Nat) (f : PubFrame) (r : List PubFrame) (s : State), s.portUp n = true → s.pubQ n = f :: r → f.kind ≠ 0 ∨ s.mono ≤ f.formedAt + s.maxAge →
      s.txOpen n = true → s.txRoom n 2 f.bytes.length = false → Runs (.pubQueueDrain n) s (fun t => Frame [] [] s t))
  ∧ (∀ (n : Nat) (f : PubFrame) (r : List PubFrame) (s : State), s.portUp n = true → s.pubQ n = f :: r → f.kind ≠ 0 ∨ s.mono ≤ f.formedAt + s.maxAge →
      s.is RED_STAT_DRIVING = false → s.txOpen n = false ∨ s.txRoom n 2 f.bytes.length = true →
      Runs (.pubQueueDrain n) s (fun t => t.pubQ n = r ∧ t.rd (OST_SUPP f.o) = (s.cnt (OST_SUPP f.o)).rd (OST_SUPP f.o)
        ∧ Frame [OST_SUPP f.o, PUB_QLVL_BYTES n] [.pub] s t))
  ∧ (∀ (n : Nat) (f : PubFrame) (s : State), s.portUp n = true → (s.pubQ n).find? (fun x => x.kind == 0) = some f →
      Runs (.pubAgeDrop n) s (fun t => t.pubQ n = (s.pubQ n).takeWhile (fun x => x.kind != 0) ++ ((s.pubQ n).dropWhile (fun x => x.kind != 0)).drop 1
        ∧ f.formedAt + s.maxAge < t.mono
        ∧ t.rd (OST_STALEDROP f.o) = (s.cnt (OST_STALEDROP f.o)).rd (OST_STALEDROP f.o)
        ∧ Frame [OST_STALEDROP f.o, PUB_QLVL_BYTES n] [.time, .pub, .log] s t))
  ∧ ∀ (k : Nat) (x : Session) (s : State), s.up = true → s.on 2 = true → s.rd PUB_TCP_IDLE ≠ 0 → nth (s.pub.sessions.map some) k none = some x →
      Runs (.tcpSessionIdle k) s (fun t => t.pub.sessions = s.pub.sessions.take k ++ s.pub.sessions.drop (k + 1)
        ∧ x.lastAt + s.rd PUB_TCP_IDLE * secU ≤ t.mono ∧ Frame [PUB_GATE_SESS] [.time, .pub] s t)

/-- Transmission commands of an allowed client for a stream of the part, over UDP or on a session of the stream, are collected with their arrival stamp and counted.
Requests for the header and the configurations are answered with the frame asked for and counted: over UDP into the transmit buffer of the port (stated for an
open port with room and nothing held), over TCP on the client's session, or on a new one while one is free. An extended frame, a command outside the ACL
and one for no stream are ignored with event 0x2104, counted where there is a stream. The period that ends first is resolved for its stream once nothing earlier
waits: TXON takes the result of R286, a conflict is counted, and the period's commands are used up. -/
def Obligations.CommandsOfClients : Prop :=
  (∀ (c : CmdFrom) (o : Nat) (s : State), s.up = true → s.on 2 = true → c.tcp = false → s.cmdStream c.idcode = some o → s.aclOk o c.ip = true →
      Runs (.cmdTransmissionOff c) s (fun t => t.pub.cmds = s.pub.cmds ++ [⟨o, stampOf s.tai, false, c.ip⟩]
        ∧ t.rd (OST_CMD_OFF o) = (s.cnt (OST_CMD_OFF o)).rd (OST_CMD_OFF o) ∧ Frame [OST_CMD_OFF o] [.pub] s t)
      ∧ Runs (.cmdTransmissionOn c) s (fun t => t.pub.cmds = s.pub.cmds ++ [⟨o, stampOf s.tai, true, c.ip⟩]
        ∧ t.rd (OST_CMD_ON o) = (s.cnt (OST_CMD_ON o)).rd (OST_CMD_ON o) ∧ Frame [OST_CMD_ON o] [.pub] s t)
      ∧ (Listens s → Runs (.cmdExtendedFrame c) s (fun t => Tells s t 0x2104 o c.ip 8 3
          ∧ t.rd (OST_CMD_IGN o) = (s.cnt (OST_CMD_IGN o)).rd (OST_CMD_IGN o) ∧ Frame [OST_CMD_IGN o] [.log] s t)))
  ∧ (∀ (c : CmdFrom) (o i : Nat) (s : State), s.up = true → s.on 2 = true → c.tcp = true → s.cmdStream c.idcode = some o → s.aclOk o c.ip = true →
      s.pub.sessions.findIdx? (fun x => x.ip == c.ip && x.sport == c.sport) = some i → s.boundElsewhere (some i) o = false →
      Runs (.cmdTransmissionOff c) s (fun t => t.pub.cmds = s.pub.cmds ++ [⟨o, stampOf s.tai, false, c.ip⟩] ∧ Frame [OST_CMD_OFF o] [.pub] s t)
      ∧ Runs (.cmdTransmissionOn c) s (fun t => t.pub.cmds = s.pub.cmds ++ [⟨o, stampOf s.tai, true, c.ip⟩] ∧ Frame [OST_CMD_ON o] [.pub] s t))
  ∧ (∀ (i : Instr) (pl : List Byte) (c : CmdFrom) (o : Nat) (s : State),
      (i, pl) ∈ [(.cmdSendHeader c, s.headerFrame o), (.cmdSendCfg1 c, s.cfgFrame o 1), (.cmdSendCfg2 c, s.cfgFrame o 2), (.cmdSendCfg3 c, s.cfgFrame o 3)] →
      s.up = true → s.on 2 = true → c.tcp = false → s.cmdStream c.idcode = some o → s.aclOk o c.ip = true → s.txOpen c.port = true →
      (s.port c.port).held = [] → s.ports.length = 6 → c.port < 6 → s.txRoom c.port 3 (pl.length + 42) = true →
      Runs i s (fun t => t.rd (OST_CFGREQ o) = (s.cnt (OST_CFGREQ o)).rd (OST_CFGREQ o)
        ∧ (t.port c.port).tx = (s.port c.port).tx
            ++ [⟨3, udpFrame c.mac none 0 64 (s.rd (PUB_SRCIP_IP c.port)) c.ip (s.rd NET_C37_UDP_PORT0) c.sport pl, true, false⟩]
        ∧ Frame [OST_CFGREQ o] [.ports] s t))
  ∧ (∀ (i : Instr) (pl : List Byte) (c : CmdFrom) (o k : Nat) (s : State),
      (i, pl) ∈ [(.cmdSendHeader c, s.headerFrame o), (.cmdSendCfg1 c, s.cfgFrame o 1), (.cmdSendCfg2 c, s.cfgFrame o 2), (.cmdSendCfg3 c, s.cfgFrame o 3)] →
      s.up = true → s.on 2 = true → c.tcp = true → s.cmdStream c.idcode = some o → s.aclOk o c.ip = true →
      s.pub.sessions.findIdx? (fun x => x.ip == c.ip && x.sport == c.sport) = some k → s.boundElsewhere (some k) o = false →
      Runs i s (fun t => t.pub.replies = s.pub.replies ++ [(k, pl)] ∧ t.rd (OST_CFGREQ o) = (s.cnt (OST_CFGREQ o)).rd (OST_CFGREQ o)
        ∧ Frame [OST_CFGREQ o] [.pub] s t))
  ∧ (∀ (i : Instr) (pl : List Byte) (c : CmdFrom) (o : Nat) (s : State),
      (i, pl) ∈ [(.cmdSendHeader c, s.headerFrame o), (.cmdSendCfg1 c, s.cfgFrame o 1), (.cmdSendCfg2 c, s.cfgFrame o 2), (.cmdSendCfg3 c, s.cfgFrame o 3)] →
      s.up = true → s.on 2 = true → c.tcp = true → s.cmdStream c.idcode = some o → s.aclOk o c.ip = true →
      s.pub.sessions.findIdx? (fun x => x.ip == c.ip && x.sport == c.sport) = none → s.pub.sessions.length < s.eff PUB_TCP_MAXSESS →
      Runs i s (fun t => t.pub.sessions = s.pub.sessions ++ [⟨c.ip, c.sport, o, s.mono⟩] ∧ t.pub.replies = s.pub.replies ++ [(s.pub.sessions.length, pl)]
        ∧ Frame [OST_CFGREQ o, PUB_GATE_SESS] [.pub] s t))
  ∧ (∀ (i : Instr) (k : Nat) (c : CmdFrom) (s : State),
      (i, k) ∈ [(.cmdTransmissionOff c, 1), (.cmdTransmissionOn c, 2), (.cmdSendHeader c, 3), (.cmdSendCfg1 c, 4), (.cmdSendCfg2 c, 5), (.cmdSendCfg3 c, 6),
        (.cmdExtendedFrame c, 8)] → s.up = true → s.on 2 = true → c.tcp = false → Listens s →
      (s.cmdStream c.idcode = none → Runs i s (fun t => Tells s t 0x2104 0xFFFF c.ip k 1 ∧ Frame [] [.log] s t))
      ∧ (∀ o, s.cmdStream c.idcode = some o → s.aclOk o c.ip = false → Runs i s (fun t => Tells s t 0x2104 o c.ip k 2
          ∧ t.rd (OST_CMD_IGN o) = (s.cnt (OST_CMD_IGN o)).rd (OST_CMD_IGN o) ∧ Frame [OST_CMD_IGN o] [.log] s t)))
  ∧ ∀ (x o : Nat) (g : Nat × Nat) (r : Bool × Nat) (s : State), s.up = true → s.on 2 = true → s.rate ≠ 0 → s.nextPeriod = some (x, o, g) →
      s.backlogClear (16 * x) = true → r = s.resolve o (s.pub.cmds.filter (fun c => c.o == o && s.periodOf c == g)) → 0 < s.inc →
      Runs .commandPeriodResolve s (fun t => x * nsU ≤ t.tai ∧ t.rd (OST_TXON o) = b2n r.1
        ∧ t.rd (OST_CONFLICT o) = (if r.2 = 0 then s.rd (OST_CONFLICT o) else (s.cnt (OST_CONFLICT o)).rd (OST_CONFLICT o))
        ∧ t.pub.cmds = s.pub.cmds.filter (fun c => !(c.o == o && s.periodOf c == g))
        ∧ Frame [OST_TXON o, OST_CONFLICT o] [.time, .pub, .log] s t)

/-- An integration step flagged fewer than four times is made after its samples, snapshots requested are served, and the next step follows; with no electrical point,
no flag and no snapshot it changes nothing else. A gap step within an interval adds its 83,333 ns to the point's gap and changes no register. At the end of a period of 200 ms a point's results
are shown, power as NaN where no step was valid. The first record of a transfer point is taken with its sequence number, and its quantity is added to the
register of its direction; a datagram without the magic number is counted bad. A point without a record for TMO becomes STALE. A snapshot is requested for the
next step boundary, or taken at once while nothing steps. -/
def Obligations.MeteringSteps : Prop :=
  (∀ (n : Nat) (p : Nat × Nat) (s : State), s.qtyRuns = true → s.qty.paused = none → s.qty.next = some p → n < 4 → 0 < s.inc →
      Runs (.integrationStep n) s (fun t => t.qty.next = some (instNext 12000 p) ∧ t.qty.lastStep = stepNs p ∧ t.qty.snaps = []
        ∧ s.stepDue p ≤ t.tai ∧ NorKept s t))
  ∧ (∀ (p : Nat × Nat) (s : State), s.qtyRuns = true → s.qty.paused = none → s.qty.next = some p → (∀ i, i < 48 → s.is (MPT_EN i) = false) → s.qty.snaps = [] →
      Runs (.integrationStep 0) s (fun t => Frame [] [.time, .qty] s t))
  ∧ (∀ (i : Nat) (p : Nat × Nat) (s : State), s.qtyRuns = true → s.qty.paused = none → s.qty.next = some p → s.livePoints = [i] → i < 48 →
      s.is (MPT_FALLBACK i) = false → s.stepValid i p = false → stepNs p < (s.pt i).due * 1000000000 →
      Runs (.integrationStep 0) s (fun t => (t.pt i).gap3 = (s.pt i).gap3 + 250000 ∧ (t.pt i).win = [] ∧ (t.pt i).regs = (s.pt i).regs
        ∧ (t.pt i).gap.isSome = true ∧ t.rd (MPT_RUN i) = 0))
  ∧ (∀ (p : Nat) (s : State), s.qtyRuns = true → p < 48 → s.is (MPT_EN p) = true → 0 < s.inc →
      Runs (.meterResults p) s (fun t => (t.pt p).res = [] ∧ (t.pt p).resN = 0 ∧ ((s.pt p).resN = 0 → t.rd (MPT_P p) = 0x7FC00000 ∧ t.rd (MPT_Q p) = 0x7FC00000)
        ∧ (t.pt p).regs = (s.pt p).regs ∧ assoc t.qty.resAt p = some (t.tai / (200000000 * nsU))
        ∧ Frame ((List.range 3).map (MPT_VRMS p) ++ (List.range 3).map (MPT_IRMS p) ++ (List.range 3).map (MPT_ANG p)
            ++ [MPT_P p, MPT_Q p, MPT_S p, MPT_PF p, MPT_FREQ p]) [.time, .qty] s t))
  ∧ (∀ (n k : Nat) (e : RxEntry) (ip : Ip) (b r : List Byte) (g : MReg) (s : State), s.qtyRuns = true → s.qty.paused = none → s.ing.flow = [(n, e)] → parseIp e.bytes = some ip →
      b = (parseUdp e.bytes ip).payload → beAt b 0 4 = 0x474B4652 → byteAt b 6 = 1 → byteAt b 7 = 1 → leAt b 4 2 = 44 → b.length = 44 →
      leAt b 40 4 = crc32c (b.take 40) → r = slice b 8 32 →
      (List.range 256).find? (fun t => s.is (TPT_EN t) && s.rd (TPT_FLOWID t) == leAt r 0 4) = some k →
      s.rd (TPT_PORT k) + 4 = n → s.rd (TPT_SRCIP k) = ip.src → (s.pt (256 + k)).seqKnown = false →
      e.stamp / 16 ≤ (s.pt (256 + k)).due * 1000000000 → g = nth (s.pt (256 + k)).regs ((leAt r 28 2 + s.rd (TPT_DIRINV k)) % 2) ⟨0, 0, 0⟩ →
      Runs (.flowDatagram n) s (fun t => t.ing.flow = [] ∧ t.rd (TPT_LASTSEQ k) = leAt r 4 4 % 2 ^ 32 ∧ t.rd (TPT_RUN k) = 1 ∧ t.rd (TPT_STALE k) = 0
        ∧ (t.pt (256 + k)).seqKnown = true ∧ (t.pt (256 + k)).lastAt = s.mono
        ∧ (s.is (TPT_FALLBACK k) = false → (s.pt (256 + k)).regs.length = 8 → g.v < 2 ^ 64 → g.frac < 2 ^ 32 → g.wraps < 65536 →
            nth (t.pt (256 + k)).regs ((leAt r 28 2 + s.rd (TPT_DIRINV k)) % 2) ⟨0, 0, 0⟩
              = ⟨(g.v + leAt r 12 8) % 2 ^ 64, g.frac, (g.wraps + (g.v + leAt r 12 8) / 2 ^ 64) % 65536⟩)
        ∧ KeepsRest [.free, .ing, .qty, .log] s t))
  ∧ (∀ (n : Nat) (e : RxEntry) (ip : Ip) (s : State), s.qtyRuns = true → s.qty.paused = none → s.ing.flow = [(n, e)] → parseIp e.bytes = some ip →
      beAt (parseUdp e.bytes ip).payload 0 4 ≠ 0x474B4652 →
      Runs (.flowDatagram n) s (fun t => t.ing.flow = [] ∧ t.rd QTY_FLOW_BAD_COUNT = (s.cnt QTY_FLOW_BAD_COUNT).rd QTY_FLOW_BAD_COUNT
        ∧ Frame [QTY_FLOW_BAD_COUNT] [.free, .ing, .log] s t))
  ∧ (∀ (k : Nat) (s : State), s.qtyRuns = true → k < 256 → s.is (TPT_EN k) = true → s.is (TPT_STALE k) = false →
      Runs (.transferStale k) s (fun t => t.rd (TPT_STALE k) = 1 ∧ (s.pt (256 + k)).lastAt + s.eff (TPT_TMO k) * secU ≤ t.mono
        ∧ Frame [TPT_STALE k] [.time, .log] s t))
  ∧ (∀ (m : Master) (p : Nat × Nat) (s : State), Accepted s m QTY_SNAP_GO.addr → s.qtyRuns = true → s.qty.paused = none → s.qty.next = some p →
      Runs (.meterSnapshot m) s (fun t => t.rd (forM m QTY_SNAP_STAT_DONE) = 0 ∧ m ∈ t.qty.snaps
        ∧ Frame (forM m QTY_SNAP_STAT_DONE :: writeCounters) [.gate, .fab, .qty] s t))
  ∧ ∀ (m : Master) (s : State), Accepted s m QTY_SNAP_GO.addr → s.qtyRuns = false ∨ s.qty.paused.isSome = true ∨ s.qty.next = none →
      Runs (.meterSnapshot m) s (fun t => t.rd (forM m QTY_SNAP_STAT_DONE) = 1
        ∧ t.rd (forM m QTY_SNAP_SEC_SEC) = s.qty.lastStep / 1000000000 % 2 ^ 32
        ∧ t.rd (forM m QTY_SNAP_NS_NS) = s.qty.lastStep % 1000000000 ∧ KeepsRest [.gate, .fab] s t)

/-- A boundary that the only enabled point may close adds one record to the ring, raises its sequence number, begins the next interval there, and is followed by a
retention copy. RECORD_POP removes the oldest record. MD_RST clears the maximum demand of a point with event 0x8070, and does nothing for a number that no
point has. A pulse of the backlog goes out while the outputs may, else it is counted in SUPP; it ends after its width. A routine copy holds the registers. The
first write of 1 to QTY_SEAL seals, a write of 0 before does nothing; a later write is a seal violation, event 0xD011. -/
def Obligations.IntervalsPulsesRetentionSeal : Prop :=
  (∀ (i : Nat) (s : State), s.qtyRuns = true → s.qty.paused = none → s.livePoints = [i] → s.mayClose i = true → s.qty.ring.length < 576 → 0 < s.inc →
      Runs .intervalClose s (fun t => (s.pt i).due * secU ≤ t.tai ∧ (∃ b, t.qty.ring = s.qty.ring ++ [b])
        ∧ (t.pt i).rseq = ((s.pt i).rseq + 1) % 2 ^ 32 ∧ (t.pt i).start = (s.pt i).due * 1000000000
        ∧ t.qty.copySeq = (s.qty.copySeq + 1) % 2 ^ 32 ∧ t.qty.copyAt = t.mono ∧ NorKept s t))
  ∧ (∀ (m : Master) (s : State), Accepted s m QTY_REC_POP_POP.addr →
      Runs (.recordPop m) s (fun t => t.qty.ring = s.qty.ring.drop 1 ∧ t.rd QTY_REC_STAT_COUNT = (s.qty.ring.length - 1) % 2 ^ QTY_REC_STAT_COUNT.width
        ∧ Frame (QTY_REC_STAT_COUNT :: writeCounters) [.gate, .fab, .qty] s t))
  ∧ (∀ (m : Master) (v i : Nat) (s : State), Accepted s m QTY_MD_RST_POINT.addr → i = v % 512 → i < 48 ∨ 256 ≤ i → Listens s →
      Runs (.mdReset m v) s (fun t => t.rd (ptMdLo i) = 0 ∧ t.rd (ptMdHi i) = 0 ∧ t.rd (ptMdTime i) = 0 ∧ (t.pt i).regs = (s.pt i).regs
        ∧ Tells s t 0x8070 i (mNum m) (s.rd (ptMdLo i)) 0 ∧ Frame ([ptMdLo i, ptMdHi i, ptMdTime i] ++ writeCounters) [.gate, .fab, .qty, .log] s t))
  ∧ (∀ (m : Master) (v : Nat) (s : State), Accepted s m QTY_MD_RST_POINT.addr → 48 ≤ v % 512 → v % 512 < 256 →
      Runs (.mdReset m v) s (fun t => Frame writeCounters [.gate, .fab] s t))
  ∧ (∀ (j : Nat) (s : State), s.qtyRuns = true → j < 16 → s.is (QTY_PLS_CFG_EN j) = true → (s.pulse j).backlog ≠ 0 → (s.pulse j).active = false →
      s.pulsesOut = true →
      Runs (.pulseStart j) s (fun t => (t.pulse j).active = true ∧ (t.pulse j).backlog = (s.pulse j).backlog - 1 ∧ t.pulseLevel j = true
        ∧ (t.pulse j).acc = (s.pulse j).acc ∧ (t.pulse j).next = t.mono + s.eff (QTY_PLS_CFG_WIDTH j) * 100000 * nsU
        ∧ (s.pulse j).next ≤ t.mono ∧ Frame [QTY_PLS_STAT_BACKLOG j] [.time, .qty] s t))
  ∧ (∀ (j : Nat) (s : State), s.qtyRuns = true → j < 16 → s.is (QTY_PLS_CFG_EN j) = true → (s.pulse j).backlog ≠ 0 → (s.pulse j).active = false →
      s.pulsesOut = false →
      Runs (.pulseStart j) s (fun t => (t.pulse j).active = false ∧ (t.pulse j).backlog = (s.pulse j).backlog - 1
        ∧ t.rd (QTY_PLS_SUPP_COUNT j) = (s.cnt (QTY_PLS_SUPP_COUNT j)).rd (QTY_PLS_SUPP_COUNT j)
        ∧ Frame [QTY_PLS_STAT_BACKLOG j, QTY_PLS_SUPP_COUNT j] [.time, .qty, .log] s t))
  ∧ (∀ (j : Nat) (s : State), s.up = true → s.on 5 = true → j < 16 → (s.pulse j).active = true →
      Runs (.pulseEnd j) s (fun t => (t.pulse j).active = false ∧ t.pulseLevel j = false ∧ (t.pulse j).backlog = (s.pulse j).backlog
        ∧ (s.pulse j).next ≤ t.mono ∧ Frame [] [.time, .qty] s t))
  ∧ (∀ s : State, s.qtyRuns = true → s.qty.copies.length = 2 →
      Runs .retentionCopy s (fun t => t.qty.copySeq = (s.qty.copySeq + 1) % 2 ^ 32 ∧ s.qty.copyAt + secU ≤ t.mono ∧ t.qty.copyAt = t.mono
        ∧ (∃ c, nth t.qty.copies (t.qty.copySeq % 2) none = some c ∧ c.points = s.qty.points ∧ c.pulses = s.qty.pulses ∧ c.ok = true)
        ∧ t.qty.points = s.qty.points ∧ Frame [QTY_RET_STAT_A_OK, QTY_RET_STAT_B_OK] [.time, .qty] s t))
  ∧ (∀ (m : Master) (v : Nat) (s : State), Accepted s m QTY_SEAL_SEALED.addr → s.qtySealed = false → v % 2 = 1 →
      Runs (.sealWrite m v) s (fun t => t.qtySealed = true
        ∧ Frame ([copyOf 0 QTY_SEAL_SEALED, copyOf 1 QTY_SEAL_SEALED, copyOf 2 QTY_SEAL_SEALED] ++ writeCounters) [.gate, .fab] s t))
  ∧ (∀ (m : Master) (v : Nat) (s : State), Accepted s m QTY_SEAL_SEALED.addr → s.qtySealed = false → v % 2 = 0 →
      Runs (.sealWrite m v) s (fun t => Frame writeCounters [.gate, .fab] s t))
  ∧ ∀ (m : Master) (v : Nat) (s : State), Accepted s m QTY_SEAL_SEALED.addr → s.qtySealed = true → Listens s →
      Runs (.sealWrite m v) s (fun t => t.qtySealed = true ∧ Tells s t 0xD011 QTY_SEAL_SEALED.addr v (mNum m) 0 ∧ Frame writeCounters [.gate, .fab, .log] s t)

/-- A manual trigger of an enabled trigger in MODE 1, with every descriptor free, no sample block in the ring and room in it, takes descriptor 0 and writes one mark
record, which waits in the staging SRAM in IRC-direct; with MODE 0 or no enabled trigger named it does nothing. A release frees a COMPLETE capture with event
0x9004, waits for a filling one, leaves a free one alone, and with 0x7F frees every COMPLETE one. CAP_POST is taken when it fits and is else clamped to
the capacity less PRE with CLAMPED and event 0x9005. The read pointer takes the start of a record or the write position; another value is answered with an
error. A partition size is taken, or refused with event 0x9040 when the sum would pass 7,680 MiB. -/
def Obligations.CaptureCommands : Prop :=
  (∀ (m : Master) (t : Nat) (s : State), Accepted s m CAP_TRIG_MAN_FIRE.addr → t < 16 → s.capMode = 1 → s.is (CAP_TRIG_CFG_EN t) = true →
      (∀ i, i < 64 → (s.capt i).state = 0) → s.cap.capts.length = 64 → s.cap.deadFrom = none → s.cap.lostN = 0 → s.rd CLK_STAT_STATE ≠ 1 →
      (∀ r ∈ s.cap.recs, r.typ ≠ 1) → s.cap.recs.foldl (fun a r => a + r.len) 0 + 40 ≤ s.partSize 0 →
      Runs (.manualTrigger m (2 ^ t)) s (fun u => (u.capt 0).state = 1 ∧ (u.capt 0).trig = t ∧ (∀ i, 0 < i → u.capt i = s.capt i)
        ∧ u.rd (CAP_CAPT_W0_STATE 0) = 1 ∧ u.rd CAP_BSEQ_SEQ = (s.rd CAP_BSEQ_SEQ + 1) % 2 ^ 32
        ∧ (∃ r, u.cap.recs = s.cap.recs ++ [r] ∧ r.typ = 3 ∧ r.len = 40 ∧ r.bseq = s.rd CAP_BSEQ_SEQ)
        ∧ u.rd CAP_TRIGS_COUNT = (s.cnt CAP_TRIGS_COUNT).rd CAP_TRIGS_COUNT ∧ KeepsRest [.dram, .gate, .fab, .log, .cap] s u))
  ∧ (∀ (m : Master) (t : Nat) (s : State), Accepted s m CAP_TRIG_MAN_FIRE.addr → t < 16 → s.capMode = 1 → s.is (CAP_TRIG_CFG_EN t) = true →
      (∀ i, i < 64 → (s.capt i).state = 0) → s.cap.capts.length = 64 → s.cap.deadFrom = none → s.rd CLK_STAT_STATE = 1 → s.cap.staged = [] →
      (∀ r ∈ s.cap.recs, r.typ ≠ 1) →
      Runs (.manualTrigger m (2 ^ t)) s (fun u => (u.capt 0).state = 1 ∧ (u.capt 0).trig = t ∧ u.cap.recs = s.cap.recs
        ∧ (∃ x, u.cap.staged = [x] ∧ x.typ = 3) ∧ u.rd CAP_TRIGS_COUNT = (s.cnt CAP_TRIGS_COUNT).rd CAP_TRIGS_COUNT
        ∧ KeepsRest [.gate, .fab, .log, .cap] s u))
  ∧ (∀ (m : Master) (mask : Nat) (s : State), Accepted s m CAP_TRIG_MAN_FIRE.addr →
      s.capMode = 0 ∨ (∀ t < 16, bit mask t = 1 → s.is (CAP_TRIG_CFG_EN t) = false) →
      Runs (.manualTrigger m mask) s (fun u => Frame writeCounters [.gate, .fab] s u))
  ∧ (∀ (m : Master) (v c : Nat) (s : State), Accepted s m CAP_REL_CAPT.addr → c = v % 128 → c < 64 → s.cap.capts.length = 64 →
      s.cap.deadFrom = none ∨ s.cap.deadCause ≠ 1 → (s.capt c).state = 2 → Listens s →
      Runs (.captureRelease m v) s (fun u => (u.capt c).state = 0 ∧ (∀ i, i ≠ c → u.capt i = s.capt i) ∧ u.rd (CAP_CAPT_W0_STATE c) = 0
        ∧ Tells s u 0x9004 c (mNum m) 0 0 ∧ u.cap.recs = s.cap.recs ∧ KeepsRest [.gate, .fab, .log, .cap] s u))
  ∧ (∀ (m : Master) (v c : Nat) (s : State), Accepted s m CAP_REL_CAPT.addr → c = v % 128 → c < 64 → s.cap.capts.length = 64 →
      s.cap.deadFrom = none ∨ s.cap.deadCause ≠ 1 → (s.capt c).state = 1 →
      Runs (.captureRelease m v) s (fun u => u.capt c = { s.capt c with relWait := some (mNum m) } ∧ (∀ i, i ≠ c → u.capt i = s.capt i)
        ∧ Frame writeCounters [.gate, .fab, .cap] s u))
  ∧ (∀ (m : Master) (v : Nat) (s : State), Accepted s m CAP_REL_CAPT.addr → s.cap.deadFrom = none ∨ s.cap.deadCause ≠ 1 →
      (v % 128 < 64 ∧ (s.capt (v % 128)).state = 0) ∨ (64 ≤ v % 128 ∧ v % 128 ≠ 127) →
      Runs (.captureRelease m v) s (fun u => Frame writeCounters [.gate, .fab] s u))
  ∧ (∀ (m : Master) (v : Nat) (s : State), Accepted s m CAP_REL_CAPT.addr → v % 128 = 127 → s.cap.capts.length = 64 →
      s.cap.deadFrom = none ∨ s.cap.deadCause ≠ 1 →
      Runs (.captureRelease m v) s (fun u => (∀ i < 64, (s.capt i).state = 2 → (u.capt i).state = 0)
        ∧ (∀ i < 64, (s.capt i).state ≠ 2 → u.capt i = s.capt i) ∧ KeepsRest [.gate, .fab, .log, .cap] s u))
  ∧ (∀ (m : Master) (v : Nat) (s : State), Accepted s m CAP_POST_POST.addr → v < 2 ^ 32 → min (s.rdBuf CAP_PRE_PRE) s.capacity + v ≤ s.capacity →
      Runs (.capPostWrite m v) s (fun u => u.rdBuf CAP_POST_POST = v ∧ u.rd CAP_STAT_CLAMPED = 0
        ∧ Frame (CAP_STAT_CLAMPED :: writeCounters) [.bufs, .gate, .fab] s u))
  ∧ (∀ (m : Master) (v : Nat) (s : State), Accepted s m CAP_POST_POST.addr → v < 2 ^ 32 → s.capacity < min (s.rdBuf CAP_PRE_PRE) s.capacity + v → Listens s →
      Runs (.capPostWrite m v) s (fun u => u.rdBuf CAP_POST_POST = s.capacity - min (s.rdBuf CAP_PRE_PRE) s.capacity ∧ u.rd CAP_STAT_CLAMPED = 1
        ∧ Tells s u 0x9005 v (s.capacity - min (s.rdBuf CAP_PRE_PRE) s.capacity) s.capacity 0
        ∧ Frame (CAP_STAT_CLAMPED :: writeCounters) [.bufs, .gate, .fab, .log] s u))
  ∧ (∀ (m : Master) (lo hi : Option Nat) (a x v : Nat) (s : State), Accepted s m a → x < 2 ^ 32 →
      (lo = some x ∧ hi = none ∧ a = CAP_RDPTR_LO_OFS.addr ∧ v = x + s.rd CAP_RDPTR_HI_OFS * 2 ^ 32)
        ∨ (lo = none ∧ hi = some x ∧ a = CAP_RDPTR_HI_OFS.addr ∧ v = s.rd CAP_RDPTR_LO_OFS + x * 2 ^ 32) →
      v * 8 = s.cap.wp ∨ s.cap.recs.any (fun r => r.off == v * 8) = true →
      Runs (.capRdptrWrite m lo hi) s (fun u => u.rd CAP_RDPTR_LO_OFS = v % 2 ^ 32 ∧ u.rd CAP_RDPTR_HI_OFS = v / 2 ^ 32 % 2 ^ 32
        ∧ Frame ([CAP_RDPTR_LO_OFS, CAP_RDPTR_HI_OFS] ++ writeCounters) [.gate, .fab] s u))
  ∧ (∀ (m : Master) (lo hi : Option Nat) (a x v : Nat) (s : State), Accepted s m a → x < 2 ^ 32 →
      (lo = some x ∧ hi = none ∧ a = CAP_RDPTR_LO_OFS.addr ∧ v = x + s.rd CAP_RDPTR_HI_OFS * 2 ^ 32)
        ∨ (lo = none ∧ hi = some x ∧ a = CAP_RDPTR_HI_OFS.addr ∧ v = s.rd CAP_RDPTR_LO_OFS + x * 2 ^ 32) →
      v * 8 ≠ s.cap.wp → s.cap.recs.any (fun r => r.off == v * 8) = false →
      Runs (.capRdptrWrite m lo hi) s (fun u => u.rd SYS_ERR_ADDR_ADDR = a ∧ u.rd SYS_ERR_INFO_WRITE = 1 ∧ u.rd SYS_ERR_INFO_MASTER = mNum m
        ∧ (match m with
          | .mc => u.fab.respMc
          | .host => u.fab.respHost) = s.errForm m true
        ∧ Frame ([SYS_ERR_ADDR_ADDR, SYS_ERR_INFO_MASTER, SYS_ERR_INFO_WRITE, SYS_ERR_INFO_WIDTH, SYS_ERR_INFO_KIND] ++ writeCounters)
            [.free, .gate, .fab] s u))
  ∧ (∀ (m : Master) (f : Field) (v : Nat) (s : State), f ∈ partFields → Accepted s m f.addr →
      (partFields.map (fun g => (s.wr f v).rd g)).foldl (fun a b => a + b) 0 ≤ 7680 →
      Runs (.capPartWrite m f.addr v) s (fun u => u.rd f = v % 2 ^ 13 ∧ Frame (f :: writeCounters) [.gate, .fab] s u))
  ∧ ∀ (m : Master) (f : Field) (v : Nat) (s : State), f ∈ partFields → Accepted s m f.addr → Listens s →
      7680 < (partFields.map (fun g => (s.wr f v).rd g)).foldl (fun a b => a + b) 0 →
      Runs (.capPartWrite m f.addr v) s (fun u =>
        Tells s u 0x9040 f.addr v ((partFields.map (fun g => (s.wr f v).rd g)).foldl (fun a b => a + b) 0) (mNum m)
        ∧ Frame writeCounters [.gate, .fab, .log] s u)

/-- A search sets BUSY and clears FOUND, and its end finds the slot's entry or none. A job is queued, one of length 0 completes at once, or it is refused with
ERR 8, 2 or 9, and a start while one is BUSY or PAUSED is ignored; a paused job is queued again, or without room ends with ERR 9; a cancelled one leaves the
queue with ERR 7. A compress job of one block that fits stores the block's bytes at its destination and completes; a job whose source reaches past its
partition ends with ERR 1, and one that meets an uncorrectable error with ERR 6; each leaves the queue. In IRC-direct a software job waits. -/
def Obligations.ArchiveSearchAndJobs : Prop :=
  (∀ (m : Master) (n : Nat) (s : State), Accepted s m ARC_FIND_SERIAL.addr →
      Runs (.archiveFind m n) s (fun t => (∃ due, t.cap = { s.cap with find := some (n % 2 ^ 32, due) }) ∧ t.rd ARC_FIND_STAT_BUSY = 1 ∧ t.rd ARC_FIND_STAT_FOUND = 0
        ∧ Frame ([ARC_FIND_STAT_BUSY, ARC_FIND_STAT_FOUND] ++ writeCounters) [.gate, .fab, .cap] s t))
  ∧ (∀ (n due : Nat) (e : ArcEnt) (s : State), s.on 6 = true → s.cap.find = some (n, due) → s.cap.ents.find? (fun x => x.typ == 1 && x.serial == n) = some e →
      Runs .archiveFindDone s (fun t => t.cap = { s.cap with find := none } ∧ due ≤ t.mono ∧ t.rd ARC_FIND_STAT_BUSY = 0 ∧ t.rd ARC_FIND_STAT_FOUND = 1
        ∧ t.rd ARC_FIND_OFS_OFS = e.off / 8 % 2 ^ 32 ∧ Frame [ARC_FIND_STAT_BUSY, ARC_FIND_STAT_FOUND, ARC_FIND_OFS_OFS] [.time, .cap] s t))
  ∧ (∀ (n due : Nat) (s : State), s.on 6 = true → s.cap.find = some (n, due) → s.cap.ents.find? (fun x => x.typ == 1 && x.serial == n) = none →
      Runs .archiveFindDone s (fun t => t.cap = { s.cap with find := none } ∧ due ≤ t.mono ∧ t.rd ARC_FIND_STAT_BUSY = 0 ∧ t.rd ARC_FIND_STAT_FOUND = 0
        ∧ Frame [ARC_FIND_STAT_BUSY, ARC_FIND_STAT_FOUND] [.time, .cap] s t))
  ∧ (∀ (m : Master) (s : State), Accepted s m (jobAddr m) → s.is (ELS_J_STAT_BUSY (mNum m)) = false → s.is (ELS_J_STAT_PAUSED (mNum m)) = false →
      s.rd (ELS_J_OP_OP (mNum m)) = 1 ∨ s.rd (ELS_J_OP_OP (mNum m)) = 2 → 2 ≤ s.rd (ELS_J_OP_DST_PART (mNum m)) → s.rd (ELS_J_LEN_LEN (mNum m)) ≠ 0 →
      s.elsRoom 5 = true →
      Runs (.elsJobStart m) s (fun t => t.rd (ELS_J_STAT_BUSY (mNum m)) = 1 ∧ t.rd (ELS_J_STAT_DONE (mNum m)) = 0 ∧ t.rd (ELS_J_STAT_ERR (mNum m)) = 0
        ∧ t.rd (ELS_J_INDONE (mNum m)) = 0 ∧ t.rd (ELS_J_OUTLEN (mNum m)) = 0
        ∧ t.els.map (fun j => j.kind) = s.els.map (fun j => j.kind) ++ [.soft (mNum m)]
        ∧ Frame ([ELS_J_STAT_BUSY (mNum m), ELS_J_STAT_DONE (mNum m), ELS_J_STAT_PAUSED (mNum m), ELS_J_STAT_ERR (mNum m), ELS_J_INDONE (mNum m),
            ELS_J_OUTLEN (mNum m), ELS_J_CRC (mNum m), ELS_STAT_QUEUE, ELS_STAT_BUSY] ++ writeCounters) [.gate, .fab, .els] s t))
  ∧ (∀ (m : Master) (s : State), Accepted s m (jobAddr m) → s.is (ELS_J_STAT_BUSY (mNum m)) = false → s.is (ELS_J_STAT_PAUSED (mNum m)) = false →
      s.rd (ELS_J_OP_OP (mNum m)) = 1 ∨ s.rd (ELS_J_OP_OP (mNum m)) = 2 → 2 ≤ s.rd (ELS_J_OP_DST_PART (mNum m)) → s.rd (ELS_J_LEN_LEN (mNum m)) = 0 →
      Runs (.elsJobStart m) s (fun t => t.rd (ELS_J_STAT_BUSY (mNum m)) = 0 ∧ t.rd (ELS_J_STAT_DONE (mNum m)) = 1 ∧ t.rd (ELS_J_STAT_ERR (mNum m)) = 0
        ∧ t.rd (ELS_J_CRC (mNum m)) = 0 ∧ t.rd ELS_JOBS_COUNT = (s.cnt ELS_JOBS_COUNT).rd ELS_JOBS_COUNT
        ∧ Frame ([ELS_J_STAT_BUSY (mNum m), ELS_J_STAT_DONE (mNum m), ELS_J_STAT_PAUSED (mNum m), ELS_J_STAT_ERR (mNum m), ELS_J_INDONE (mNum m),
            ELS_J_OUTLEN (mNum m), ELS_J_CRC (mNum m), ELS_JOBS_COUNT] ++ writeCounters) [.gate, .fab] s t))
  ∧ (∀ (m : Master) (e : Nat) (s : State), Accepted s m (jobAddr m) → s.is (ELS_J_STAT_BUSY (mNum m)) = false → s.is (ELS_J_STAT_PAUSED (mNum m)) = false →
      (s.rd (ELS_J_OP_OP (mNum m)) ≠ 1 ∧ s.rd (ELS_J_OP_OP (mNum m)) ≠ 2 ∧ e = 8)
        ∨ ((s.rd (ELS_J_OP_OP (mNum m)) = 1 ∨ s.rd (ELS_J_OP_OP (mNum m)) = 2) ∧ s.rd (ELS_J_OP_DST_PART (mNum m)) < 2 ∧ e = 2)
        ∨ ((s.rd (ELS_J_OP_OP (mNum m)) = 1 ∨ s.rd (ELS_J_OP_OP (mNum m)) = 2) ∧ 2 ≤ s.rd (ELS_J_OP_DST_PART (mNum m))
          ∧ s.rd (ELS_J_LEN_LEN (mNum m)) ≠ 0 ∧ s.elsRoom 5 = false ∧ e = 9) →
      Runs (.elsJobStart m) s (fun t => t.rd (ELS_J_STAT_ERR (mNum m)) = e ∧ t.rd (ELS_J_STAT_BUSY (mNum m)) = 0
        ∧ Frame ([ELS_J_STAT_BUSY (mNum m), ELS_J_STAT_DONE (mNum m), ELS_J_STAT_PAUSED (mNum m), ELS_J_STAT_ERR (mNum m), ELS_J_INDONE (mNum m),
            ELS_J_OUTLEN (mNum m), ELS_J_CRC (mNum m)] ++ writeCounters) [.gate, .fab] s t))
  ∧ (∀ (m : Master) (s : State), Accepted s m (jobAddr m) → s.is (ELS_J_STAT_BUSY (mNum m)) = true ∨ s.is (ELS_J_STAT_PAUSED (mNum m)) = true →
      Runs (.elsJobStart m) s (fun t => Frame writeCounters [.gate, .fab] s t)
      ∧ Runs (.elsJobCancel m) s (fun t => t.rd (ELS_J_STAT_BUSY (mNum m)) = 0 ∧ t.rd (ELS_J_STAT_DONE (mNum m)) = 1 ∧ t.rd (ELS_J_STAT_PAUSED (mNum m)) = 0 ∧ t.rd (ELS_J_STAT_ERR (mNum m)) = 7
          ∧ (∀ j, j ∈ t.els → j.kind ≠ .soft (mNum m))
          ∧ Frame ([ELS_J_STAT_BUSY (mNum m), ELS_J_STAT_DONE (mNum m), ELS_J_STAT_PAUSED (mNum m), ELS_J_STAT_ERR (mNum m), ELS_STAT_QUEUE, ELS_STAT_BUSY]
              ++ writeCounters) [.gate, .fab, .els] s t))
  ∧ (∀ (m : Master) (s : State), Accepted s m (jobAddr m) → s.is (ELS_J_STAT_PAUSED (mNum m)) = false →
      Runs (.elsJobResume m) s (fun t => Frame writeCounters [.gate, .fab] s t)
      ∧ (s.is (ELS_J_STAT_BUSY (mNum m)) = false → Runs (.elsJobCancel m) s (fun t => Frame writeCounters [.gate, .fab] s t)))
  ∧ (∀ (m : Master) (s : State), Accepted s m (jobAddr m) → s.is (ELS_J_STAT_PAUSED (mNum m)) = true → s.elsRoom 5 = false →
      Runs (.elsJobResume m) s (fun t => t.rd (ELS_J_STAT_BUSY (mNum m)) = 0 ∧ t.rd (ELS_J_STAT_PAUSED (mNum m)) = 0 ∧ t.rd (ELS_J_STAT_ERR (mNum m)) = 9
        ∧ Frame ([ELS_J_STAT_BUSY (mNum m), ELS_J_STAT_DONE (mNum m), ELS_J_STAT_PAUSED (mNum m), ELS_J_STAT_ERR (mNum m)] ++ writeCounters)
            [.gate, .fab] s t))
  ∧ (∀ (m : Master) (s : State), Accepted s m (jobAddr m) → s.is (ELS_J_STAT_PAUSED (mNum m)) = true → s.elsRoom 5 = true →
      Runs (.elsJobResume m) s (fun t => t.rd (ELS_J_STAT_BUSY (mNum m)) = 1 ∧ t.rd (ELS_J_STAT_PAUSED (mNum m)) = 0
        ∧ t.els.map (fun j => j.kind) = s.els.map (fun j => j.kind) ++ [.soft (mNum m)]
        ∧ Frame ([ELS_J_STAT_BUSY (mNum m), ELS_J_STAT_DONE (mNum m), ELS_J_STAT_PAUSED (mNum m), ELS_J_STAT_ERR (mNum m), ELS_STAT_QUEUE, ELS_STAT_BUSY]
            ++ writeCounters) [.gate, .fab, .els] s t))
  ∧ (∀ (k : Nat) (ue : Bool) (s : State), s.elsCurrent = some (.soft k) → s.rd CLK_STAT_STATE = 1 →
      Runs (.elisionJobEnd ue) s (fun t => Frame [] [] s t))
  ∧ (∀ (k len : Nat) (out : List Byte) (s : State), k < 2 → s.on 6 = true → s.rd CLK_STAT_STATE ≠ 1 →
      s.elsCurrent = some (.soft k) → s.rd (ELS_J_OP_OP k) = 1 → s.rd (ELS_J_LEN_LEN k) = len →
      0 < len → len ≤ 1048576 → s.rd (ELS_J_INDONE k) = 0 → s.rd (ELS_J_OUTLEN k) = 0 → s.jobSrc k + len ≤ s.partSize (s.rd (ELS_J_OP_SRC_PART k)) →
      out = elsBlock (s.rd (ELS_J_OP_LEVEL k)) false (s.dramRead (s.partBase (s.rd (ELS_J_OP_SRC_PART k)) + s.jobSrc k) len) →
      out.length ≤ s.rd (ELS_J_DSTCAP_CAP k) → out.length < 2 ^ 32 → s.jobDst k + out.length ≤ s.partSize (s.rd (ELS_J_OP_DST_PART k)) →
      Runs (.elisionJobEnd false) s (fun t => t.rd (ELS_J_STAT_DONE k) = 1 ∧ t.rd (ELS_J_STAT_BUSY k) = 0 ∧ t.rd (ELS_J_STAT_ERR k) = 0
        ∧ t.rd (ELS_J_INDONE k) = len ∧ t.rd (ELS_J_OUTLEN k) = out.length
        ∧ t.dram = Memory.writeN dramBlank s.dram (s.partBase (s.rd (ELS_J_OP_DST_PART k)) + s.jobDst k) out
        ∧ t.els.length + 1 = s.els.length ∧ KeepsRest [.free, .dram, .gate, .els] s t))
  ∧ ∀ (k : Nat) (ue : Bool) (s : State), k < 2 → s.on 6 = true → s.rd CLK_STAT_STATE ≠ 1 → s.elsCurrent = some (.soft k) →
      ue = true ∨ s.partSize (s.rd (ELS_J_OP_SRC_PART k)) < s.jobSrc k + s.rd (ELS_J_LEN_LEN k) →
      Runs (.elisionJobEnd ue) s (fun t => t.rd (ELS_J_STAT_DONE k) = 1 ∧ t.rd (ELS_J_STAT_BUSY k) = 0 ∧ t.rd (ELS_J_STAT_ERR k) = (if ue then 6 else 1)
        ∧ t.rd ELS_FAIL_COUNT = (s.cnt ELS_FAIL_COUNT).rd ELS_FAIL_COUNT ∧ t.els.length + 1 = s.els.length
        ∧ KeepsRest [.free, .dram, .log, .els] s t)

/-- With the rate limit off and no loss to report, the event that waits alone becomes the ring's newest record, under the next sequence number, with its time, epoch,
code and parameters, in a ring that is not full. A non-critical event outside 0xAxxx whose code is tracked and has reached its bound is counted and not recorded. The end of
a window clears the counts and records nothing when no code had events suppressed; the one code that had is recorded as 0xA001 with the number and the time of the first. A
read by sequence number, or of the next one, fills the master's window with the record's eight words, or with zeros and the report that it is gone or not yet written; a read
of a record that an uncorrectable error marks reports the error. -/
def Obligations.RecorderTakesAndReads : Prop :=
  (∀ (e : Ev) (s : State), s.log.running = true → s.log.inq = [e] → s.log.waiting = [] → s.log.lost = 0 → s.rd LOG_CFG_RATE_MAX = 0 →
      s.is LOG_STAT_MEMFAIL = false → s.log.ring.length < 65536 →
      Runs .eventRecord s (fun t => t.log.inq = [] ∧ t.log.nextSeq = (s.log.nextSeq + 1) % 2 ^ 32
        ∧ (∃ r, t.log.ring = s.log.ring ++ [r] ∧ r.seq = s.log.nextSeq ∧ r.code = e.code ∧ r.p0 = e.p0 ∧ r.p1 = e.p1 ∧ r.p2 = e.p2 ∧ r.p3 = e.p3
            ∧ r.crit = s.isCrit e.code ∧ r.sec = secOf e.tai % 2 ^ 32 ∧ r.ns = nsOf e.tai
            ∧ r.epoch = e.epoch ∧ r.lg = false)
        ∧ t.rd LOG_WRITTEN_COUNT = (s.cnt LOG_WRITTEN_COUNT).rd LOG_WRITTEN_COUNT ∧ KeepsRest [.log] s t))
  ∧ (∀ (e : Ev) (r : RateCode) (s : State), s.log.running = true → s.log.inq = [e] → s.log.waiting = [] → s.log.lost = 0 → s.rd LOG_CFG_RATE_MAX ≠ 0 →
      s.isCrit e.code = false → e.code / 4096 ≠ 0xA → s.log.rates.find? (fun x => x.code == e.code) = some r → s.rd LOG_CFG_RATE_MAX ≤ r.written →
      Runs .eventRecord s (fun t => t.log.inq = [] ∧ t.log.ring = s.log.ring ∧ t.log.nextSeq = s.log.nextSeq
        ∧ (∃ x, x ∈ t.log.rates ∧ x.code = e.code ∧ x.supp = r.supp + 1 ∧ x.written = r.written)
        ∧ t.rd LOG_SUPPR_COUNT = (s.cnt LOG_SUPPR_COUNT).rd LOG_SUPPR_COUNT ∧ Frame [LOG_SUPPR_COUNT] [.log] s t))
  ∧ (∀ s : State, s.log.running = true → (∀ r, r ∈ s.log.rates → r.supp = 0) → 0 < s.inc →
      Runs .rateWindowEnd s (fun t => t.log = { s.log with rates := [], rateEnd := (t.tai / secU + 1) * secU } ∧ s.log.rateEnd ≤ t.tai ∧ Frame [] [.time, .log] s t))
  ∧ (∀ (r : RateCode) (s : State), s.log.running = true → s.log.rates = [r] → r.supp ≠ 0 → s.is LOG_STAT_MEMFAIL = false → s.log.ring.length < 65536 → 0 < s.inc →
      Runs .rateWindowEnd s (fun t => t.log.rates = [] ∧ t.log.nextSeq = (s.log.nextSeq + 1) % 2 ^ 32
        ∧ (∃ x, t.log.ring = s.log.ring ++ [x] ∧ x.code = 0xA001 ∧ x.p0 = r.code % 2 ^ 32 ∧ x.p1 = r.supp % 2 ^ 32 ∧ x.p2 = secOf r.first % 2 ^ 32
            ∧ x.p3 = nsOf r.first % 2 ^ 32 ∧ x.seq = s.log.nextSeq)
        ∧ KeepsRest [.time, .log] s t))
  ∧ (∀ (m : Master) (q i : Nat) (x : Rec) (s : State), Accepted s m 0xD0020 → q < 2 ^ 32 → ringIndex s.log q = some i → s.log.bad.contains (ringSlot s.log i) = false →
      s.log.ring[i]? = some x →
      Runs (.logReadSeq m q) s (fun t => t.rd (forM m LOG_RD_SEQ_SEQ) = q ∧ t.rd (forM m LOG_RD_STAT_RESULT) = 0
        ∧ (∀ w, w < 8 → t.rd (forM m (LOG_RD_W w)) = nth (recWords x) w 0 % 2 ^ 32)
        ∧ Frame (forM m LOG_RD_SEQ_SEQ :: forM m LOG_RD_STAT_RESULT :: (List.range 8).map (fun w => forM m (LOG_RD_W w)) ++ writeCounters) [.gate, .fab] s t))
  ∧ (∀ (m : Master) (q : Nat) (s : State), Accepted s m 0xD0020 → q < 2 ^ 32 → ringIndex s.log q = none →
      Runs (.logReadSeq m q) s (fun t => t.rd (forM m LOG_RD_STAT_RESULT) = (if laterSerial q s.newestSeq then 2 else 1) ∧ (∀ w, w < 8 → t.rd (forM m (LOG_RD_W w)) = 0)
        ∧ Frame (forM m LOG_RD_SEQ_SEQ :: forM m LOG_RD_STAT_RESULT :: (List.range 8).map (fun w => forM m (LOG_RD_W w)) ++ writeCounters) [.gate, .fab] s t))
  ∧ (∀ (m : Master) (q i : Nat) (s : State), Accepted s m 0xD0020 → q < 2 ^ 32 → ringIndex s.log q = some i → s.log.bad.contains (ringSlot s.log i) = true →
      Runs (.logReadSeq m q) s (fun t => t.rd (forM m LOG_RD_SEQ_SEQ) = q ∧ t.rd (forM m LOG_RD_STAT_RESULT) = 3
        ∧ Frame (forM m LOG_RD_SEQ_SEQ :: forM m LOG_RD_STAT_RESULT :: (List.range 8).map (fun w => forM m (LOG_RD_W w)) ++ writeCounters) [.free, .gate, .fab] s t))
  ∧ (∀ (m : Master) (q i : Nat) (x : Rec) (s : State), Accepted s m 0xD0028 → q = (s.rd (forM m LOG_RD_SEQ_SEQ) + 1) % 2 ^ 32 → ringIndex s.log q = some i →
      s.log.bad.contains (ringSlot s.log i) = false → s.log.ring[i]? = some x →
      Runs (.logReadNext m) s (fun t => t.rd (forM m LOG_RD_SEQ_SEQ) = q ∧ t.rd (forM m LOG_RD_STAT_RESULT) = 0
        ∧ (∀ w, w < 8 → t.rd (forM m (LOG_RD_W w)) = nth (recWords x) w 0 % 2 ^ 32)
        ∧ Frame (forM m LOG_RD_SEQ_SEQ :: forM m LOG_RD_STAT_RESULT :: (List.range 8).map (fun w => forM m (LOG_RD_W w)) ++ writeCounters) [.gate, .fab] s t))
  ∧ ∀ (m : Master) (q : Nat) (s : State), Accepted s m 0xD0028 → q = (s.rd (forM m LOG_RD_SEQ_SEQ) + 1) % 2 ^ 32 → ringIndex s.log q = none →
      Runs (.logReadNext m) s (fun t => t.rd (forM m LOG_RD_SEQ_SEQ) = q ∧ t.rd (forM m LOG_RD_STAT_RESULT) = (if laterSerial q s.newestSeq then 2 else 1) ∧ (∀ w, w < 8 → t.rd (forM m (LOG_RD_W w)) = 0)
        ∧ Frame (forM m LOG_RD_SEQ_SEQ :: forM m LOG_RD_STAT_RESULT :: (List.range 8).map (fun w => forM m (LOG_RD_W w)) ++ writeCounters) [.gate, .fab] s t)

/-- Selecting an object shows its configuration and results. A write of one of its three words takes that word, starts the object anew and no other, and puts KIND at 0 when the
quantity it then names is none, or its index is out of range. A clear with a key slot that may serve and a right response clears what its scope names (ring, objects, last-gasp
file; the mirror's flash is kept when its bit is 0 and erased when it is 1), writes 0xA010 as the first record after it, and reports OK; with a wrong response, a slot that may not
serve, or while BUSY, it clears nothing, reports FAIL and counts it. The mirror programs the record at the head of its queue at the next place, where no loss waits to be reported,
and at place 1,023 erases the following sector; it opens the next sector first when none is open or the open one is full; a program that does not verify abandons the sector, keeps
the record and records 0xA020. Three tests that read back in a row end degraded mode with record 0xA031; a failed one starts the count anew. -/
def Obligations.ObjectsClearsMirrorDegraded : Prop :=
  (∀ (m : Master) (i : Nat) (s : State), Accepted s m 0xD0300 →
      Runs (.objectSelect m i) s (fun t => t.rd LOG_OBJ_SEL_OBJ = i % 512 ∧ (∀ k, k < 36 → t.rd (LOG_OBJ_R k) = nth (s.obj (i % 512)).res k 0 % 2 ^ 32)
        ∧ t.rd LOG_OBJ_CFG_KIND = (s.obj (i % 512)).kind % 4 ∧ t.rd LOG_OBJ_CFG_STALE = b2n (s.obj (i % 512)).stale
        ∧ Frame ([LOG_OBJ_SEL_OBJ, LOG_OBJ_CFG_KIND, LOG_OBJ_CFG_QTY, LOG_OBJ_CFG_IDX, LOG_OBJ_CFG_STALE, LOG_OBJ_LO_LO, LOG_OBJ_WIDTH_WIDTH]
            ++ (List.range 36).map (fun k => LOG_OBJ_R k) ++ writeCounters) [.gate, .fab] s t))
  ∧ (∀ (m : Master) (v i : Nat) (s : State), Accepted s m 0xD0304 → s.rd LOG_OBJ_SEL_OBJ = i →
      Runs (.objectConfigure m 0xD0304 v) s (fun t =>
        t.obj i = { s.obj i with kind := if bits v 2 4 = 0 ∨ 9 < bits v 2 4 ∨ (bits v 2 4 = 9 ∧ 5 < bits v 6 12) then 0 else bits v 0 2, qty := bits v 2 4, idx := bits v 6 12, stale := false, res := [] }
        ∧ (∀ j, j ≠ i → t.obj j = s.obj j) ∧ t.log.ring = s.log.ring
        ∧ Frame ([LOG_OBJ_CFG_KIND, LOG_OBJ_CFG_QTY, LOG_OBJ_CFG_IDX, LOG_OBJ_CFG_STALE, LOG_OBJ_LO_LO, LOG_OBJ_WIDTH_WIDTH] ++ writeCounters) [.gate, .fab, .log] s t))
  ∧ (∀ (m : Master) (a v i : Nat) (o : StatObj) (s : State), Accepted s m a → a = 0xD0308 ∨ a = 0xD030C → s.rd LOG_OBJ_SEL_OBJ = i → o = s.obj i →
      Runs (.objectConfigure m a v) s (fun t =>
        t.obj i = { o with lo := if a = 0xD0308 then v % 2 ^ 32 else o.lo, width := if a = 0xD0308 then o.width else v % 65536, kind := if o.qty = 0 ∨ 9 < o.qty ∨ (o.qty = 9 ∧ 5 < o.idx) then 0 else o.kind, stale := false, res := [] }
        ∧ (∀ j, j ≠ i → t.obj j = s.obj j) ∧ t.log.ring = s.log.ring
        ∧ Frame ([LOG_OBJ_CFG_KIND, LOG_OBJ_CFG_QTY, LOG_OBJ_CFG_IDX, LOG_OBJ_CFG_STALE, LOG_OBJ_LO_LO, LOG_OBJ_WIDTH_WIDTH] ++ writeCounters) [.gate, .fab, .log] s t))
  ∧ (∀ (m : Master) (sc : Nat) (s : State), Accepted s m 0xD0120 → s.is LOG_CLR_STAT_BUSY = false → s.rd LOG_CLR_KEY_SCOPE = sc → s.is LOG_STAT_MEMFAIL = false →
      s.log.ring.length < 65536 →
      s.keyUse (s.rd LOG_CLR_KEY_KEYSLOT) 5 [2] (some m) = none →
      (s.verifyKeys (s.rd LOG_CLR_KEY_KEYSLOT)).any (fun k => beBytes 16 (Config.hmacSha256 k (s.authMsg LOG_CLR_CHAL_LO_CHAL LOG_CLR_CHAL_HI_CHAL
        (s.rd LOG_CLR_KEY_KEYSLOT + sc * 256)) / 2 ^ 128) == (List.range 4).flatMap (fun i => leBytes 4 (s.rd (LOG_CLR_RESP_RESP i)))) = true →
      Runs (.recorderClear m) s (fun t => t.rd LOG_CLR_STAT_OK = 1 ∧ t.rd LOG_CLR_STAT_FAIL = 0
        ∧ (∃ r, t.log.ring = (if bit sc 0 = 1 then [] else s.log.ring) ++ [r] ∧ r.code = 0xA010 ∧ r.p0 = sc ∧ r.p1 = mNum m ∧ r.p2 = s.rd LOG_CLR_KEY_KEYSLOT
            ∧ r.p3 = s.newestSeq ∧ r.seq = s.log.nextSeq)
        ∧ t.log.objs = (if bit sc 1 = 1 then s.log.objs.map (fun p => (p.1, { p.2 with res := [], stale := false })) else s.log.objs)
        ∧ t.log.lg = (if bit sc 3 = 1 then [] else s.log.lg)
        ∧ (if bit sc 2 = 1 then t.nor = Memory.clear s.nor mirBase (32 * 65536) ∧ t.log.mirOpen = false else NorKept s t ∧ t.log.mirOpen = s.log.mirOpen)
        ∧ KeepsRest [.nor, .free, .gate, .fab, .log, .key] s t))
  ∧ (∀ (m : Master) (s : State), Accepted s m 0xD0120 → s.is LOG_CLR_STAT_BUSY = false → s.keyUse (s.rd LOG_CLR_KEY_KEYSLOT) 5 [2] (some m) = none →
      (s.verifyKeys (s.rd LOG_CLR_KEY_KEYSLOT)).any (fun k => beBytes 16 (Config.hmacSha256 k (s.authMsg LOG_CLR_CHAL_LO_CHAL LOG_CLR_CHAL_HI_CHAL
        (s.rd LOG_CLR_KEY_KEYSLOT + s.rd LOG_CLR_KEY_SCOPE * 256)) / 2 ^ 128) == (List.range 4).flatMap (fun i => leBytes 4 (s.rd (LOG_CLR_RESP_RESP i)))) = false →
      Listens s →
      Runs (.recorderClear m) s (fun t => t.rd LOG_CLR_STAT_OK = 0 ∧ t.rd LOG_CLR_STAT_FAIL = 1
        ∧ Tells s t 0xA011 (s.rd LOG_CLR_KEY_SCOPE) (mNum m) (s.rd LOG_CLR_KEY_KEYSLOT) 1
        ∧ t.rd LOG_CLR_FAIL_COUNT = (s.cnt LOG_CLR_FAIL_COUNT).rd LOG_CLR_FAIL_COUNT
        ∧ Frame ([LOG_CLR_CHAL_LO_CHAL, LOG_CLR_CHAL_HI_CHAL, LOG_CLR_STAT_OK, LOG_CLR_STAT_FAIL, LOG_CLR_FAIL_COUNT, KSL_USES (s.rd LOG_CLR_KEY_KEYSLOT)]
            ++ writeCounters) [.free, .gate, .fab, .log] s t))
  ∧ (∀ (m : Master) (r : Nat) (s : State), Accepted s m 0xD0120 → s.is LOG_CLR_STAT_BUSY = false →
      s.keyUse (s.rd LOG_CLR_KEY_KEYSLOT) 5 [2] (some m) = some r →
      Runs (.recorderClear m) s (fun t => t.rd LOG_CLR_STAT_OK = 0 ∧ t.rd LOG_CLR_STAT_FAIL = 1 ∧ t.log.ring = s.log.ring ∧ t.log.objs = s.log.objs
        ∧ t.log.lg = s.log.lg ∧ t.rd LOG_CLR_FAIL_COUNT = (s.cnt LOG_CLR_FAIL_COUNT).rd LOG_CLR_FAIL_COUNT ∧ t.rd KEY_ERR_COUNT = (s.cnt KEY_ERR_COUNT).rd KEY_ERR_COUNT ∧ KeepsRest [.free, .gate, .fab, .log, .key] s t))
  ∧ (∀ (m : Master) (s : State), Accepted s m 0xD0120 → s.is LOG_CLR_STAT_BUSY = true → Listens s →
      Runs (.recorderClear m) s (fun t => t.rd LOG_CLR_STAT_OK = 0 ∧ t.rd LOG_CLR_STAT_FAIL = 1
        ∧ Tells s t 0xA011 (s.rd LOG_CLR_KEY_SCOPE) (mNum m) (s.rd LOG_CLR_KEY_KEYSLOT) 3
        ∧ t.rd LOG_CLR_FAIL_COUNT = (s.cnt LOG_CLR_FAIL_COUNT).rd LOG_CLR_FAIL_COUNT
        ∧ Frame ([LOG_CLR_CHAL_LO_CHAL, LOG_CLR_CHAL_HI_CHAL, LOG_CLR_STAT_OK, LOG_CLR_STAT_FAIL, LOG_CLR_FAIL_COUNT] ++ writeCounters) [.free, .gate, .fab, .log] s t))
  ∧ (∀ (r : Rec) (q : List Rec) (w : Memory) (s : State), s.log.running = true → s.is FWU_STG_STAT_BUSY = false → s.log.mirq = r :: q → s.log.mirOpen = true →
      s.log.mirIndex < 2047 → s.log.mirLost = 0 →
      w = Memory.writeN norErased s.nor (mirBase + s.log.mirSector * 65536 + 32 + 32 * s.log.mirIndex) ((recWords r).flatMap (leBytes 4)) →
      Runs (.mirrorProgram true) s (fun t =>
        t.nor = (if s.log.mirIndex = 1023 then Memory.clear w (mirBase + (s.log.mirSector + 1) % 32 * 65536) 65536 else w)
        ∧ t.log = { s.log with mirq := q, mirIndex := s.log.mirIndex + 1 } ∧ Frame [] [.nor, .log] s t))
  ∧ (∀ (r : Rec) (q : List Rec) (k : Nat) (s : State), s.log.running = true → s.is FWU_STG_STAT_BUSY = false → s.log.mirq = r :: q →
      s.log.mirOpen = false ∨ 2047 ≤ s.log.mirIndex → s.log.mirLost = 0 → k = (s.log.mirSector + 1) % 32 →
      Runs (.mirrorProgram true) s (fun t =>
        t.nor = Memory.writeN norErased (Memory.writeN norErased (Memory.clear s.nor (mirBase + k * 65536) 65536) (mirBase + k * 65536)
            (mirHeader ((s.log.mirSseq + 1) % 2 ^ 32) r.seq)) (mirBase + k * 65536 + 32) ((recWords r).flatMap (leBytes 4))
        ∧ t.log.mirq = q ∧ t.log.mirSector = k ∧ t.log.mirSseq = (s.log.mirSseq + 1) % 2 ^ 32 ∧ t.log.mirIndex = 1 ∧ t.log.mirOpen = true
        ∧ Frame [] [.nor, .log] s t))
  ∧ (∀ (r : Rec) (q : List Rec) (s : State), s.log.running = true → s.is FWU_STG_STAT_BUSY = false → s.log.mirq = r :: q → Listens s →
      Runs (.mirrorProgram false) s (fun t => t.log.mirOpen = false ∧ t.log.mirq = r :: q ∧ t.log.ring = s.log.ring
        ∧ (∃ e, t.log.inq = s.log.inq ++ [e] ∧ e.code = 0xA020 ∧ e.p0 = t.log.mirSector % 2 ^ 32 ∧ e.p1 = r.seq % 2 ^ 32)
        ∧ Frame [] [.free, .nor, .log] s t))
  ∧ (∀ (p : Bool) (s : State), s.log.running = true → s.is LOG_STAT_MEMFAIL = true → p = false ∨ s.log.passes < 2 →
      Runs (.degradedRowTest p) s (fun t => t.log = { s.log with passes := (if p then s.log.passes + 1 else 0), testAt := s.log.testAt + secU }
        ∧ s.log.testAt ≤ t.mono ∧ Frame [] [.time, .log] s t))
  ∧ ∀ s : State, s.log.running = true → s.is LOG_STAT_MEMFAIL = true → 2 ≤ s.log.passes →
      Runs (.degradedRowTest true) s (fun t => t.rd LOG_STAT_MEMFAIL = 0 ∧ t.log.passes = 0
        ∧ (∃ l x, t.log.ring = l ++ [x] ∧ x.code = 0xA031 ∧ x.seq = s.log.nextSeq) ∧ KeepsRest [.time, .fab, .log, .red, .sch, .ana] s t)

/-- A good word changes nothing; a corrected one is counted and recorded. An uncorrectable word is counted with its memory and address: in the staging SRAM with no
block there that is all; in the slot store it sets UNCORR, begins condition 5 and marks the columns of the word. A word past the memory's end, or of a memory without power, is not read.
While PD4 is on, a fenced lane whose test passes returns to service and one whose test fails stays out with event 0xB031; of a lane in service, without the bit that asks for it, or with
PD4 off, nothing is done. -/
def Obligations.MemoryErrorsAndLaneReturn : Prop :=
  (∀ (m a e : Nat) (s : State), e = 0 ∨ s.memOn m = false ∨ memSize m ≤ a → Runs (.memoryScrub m a e) s (fun t => Frame [] [] s t))
  ∧ (∀ (m a : Nat) (s : State), s.memOn m = true → a < memSize m → Listens s →
      Runs (.memoryScrub m a 1) s (fun t => t.rd (RED_MEM_CE_COUNT m) = (s.cnt (RED_MEM_CE_COUNT m)).rd (RED_MEM_CE_COUNT m)
        ∧ Tells s t 0xB040 m (a / 8 * 8) (a / 8 * 8 / 2 ^ 32) 0 ∧ Frame [RED_MEM_CE_COUNT m] [.log] s t))
  ∧ (∀ (a : Nat) (s : State), s.memOn 6 = true → a < memSize 6 → s.cap.block = none → Listens s →
      Runs (.memoryScrub 6 a 2) s (fun t => t.rd (RED_MEM_UE_COUNT 6) = (s.cnt (RED_MEM_UE_COUNT 6)).rd (RED_MEM_UE_COUNT 6) ∧ t.rd RED_UE_MEM_MEM = 6
        ∧ t.rd RED_UE_ADDR_LO_ADDR = a / 8 * 8 ∧ Tells s t 0xB041 6 (a / 8 * 8) 0 0
        ∧ Frame [RED_MEM_UE_COUNT 6, RED_UE_MEM_MEM, RED_UE_ADDR_LO_ADDR, RED_UE_ADDR_HI_ADDR] [.log] s t))
  ∧ (∀ (a : Nat) (sl : Slot) (s : State), s.memOn 0 = true → a < memSize 0 → s.slot (a / 0x50000) = some sl →
      Runs (.memoryScrub 0 a 2) s (fun t => t.rd SYS_NMI_CAUSE_UNCORR = 1 ∧ t.red.ueAt = some s.mono ∧ bit (t.rd RED_HEALTH_COND) 5 = 1
        ∧ t.rd (RED_MEM_UE_COUNT 0) = (s.cnt (RED_MEM_UE_COUNT 0)).rd (RED_MEM_UE_COUNT 0) ∧ t.rd RED_UE_MEM_MEM = 0 ∧ t.rd RED_UE_ADDR_LO_ADDR = a / 8 * 8
        ∧ t.rd CCD_SECDED_COUNT = (s.cnt CCD_SECDED_COUNT).rd CCD_SECDED_COUNT
        ∧ t.slot (a / 0x50000) = some (sl.ueCols (wordCols (a / 8 * 8 % 0x50000) (fun i => (assoc sl.ph i).map (fun e => e.col)) (fun i => (assoc sl.an i).map (fun e => e.col))))
        ∧ (∀ q, q ≠ a / 0x50000 → t.slot q = s.slot q) ∧ KeepsRest [.fab, .log, .red, .ccd, .sch, .ana] s t))
  ∧ (∀ (m : Master) (v : Nat) (s : State), Accepted s m 0xE0034 → s.on 4 = true → bit v 8 = 1 → s.laneIn (v % 16) = false →
      Runs (.laneUnfence m v 0) s (fun t => t.laneIn (v % 16) = true ∧ t.rd CCD_LANES_COUNT = (s.rd CCD_LANES_COUNT + 1) % 32
        ∧ t.sch.mismatchAt = assocDel s.sch.mismatchAt (v % 16) ∧ KeepsRest [.gate, .fab, .log, .red, .sch, .ana] s t))
  ∧ (∀ (m : Master) (v n : Nat) (s : State), Accepted s m 0xE0034 → s.on 4 = true → bit v 8 = 1 → s.laneIn (v % 16) = false → n ≠ 0 → Listens s →
      Runs (.laneUnfence m v n) s (fun t => Tells s t 0xB031 (v % 16) (s.rd CCD_LANES_COUNT) n 0 ∧ Frame writeCounters [.gate, .fab, .log] s t))
  ∧ ∀ (m : Master) (v n : Nat) (s : State), Accepted s m 0xE0034 → bit v 8 = 0 ∨ s.laneIn (v % 16) = true ∨ s.on 4 = false →
      Runs (.laneUnfence m v n) s (fun t => Frame writeCounters [.gate, .fab] s t)

/-- A cell with a bad CRC is counted; it changes nothing else of a link that is up, and starts the count of good cells of one that is down anew. While the link is down a good cell
of the partner counts toward 64 and the 64th brings it up with the partner's claim and serial number; a cell with this unit's own serial number starts the count anew. While it is up, a
cell brings the partner's claim, and an acknowledgement of the announced claim puts that claim in force. Without power to the link's units or without PAIR_EN no cell is taken or sent. A
sent cell takes what is owed and no more. The link goes down 4 µs after the last good cell, with event 0xB002, or when both lanes have failed; one failed lane leaves it up with
ONE_LANE and event 0xB003. -/
def Obligations.ZorperLink : Prop :=
  (∀ (c : ZlCell) (s : State), s.zlOn = true → s.is RED_STAT_LINK = true → c.crcOk = false →
      Runs (.zlControlCell c) s (fun t => t.rd RED_ZL_CRCERR_COUNT = (s.cnt RED_ZL_CRCERR_COUNT).rd RED_ZL_CRCERR_COUNT ∧ Frame [RED_ZL_CRCERR_COUNT] [] s t))
  ∧ (∀ (c : ZlCell) (s : State), s.zlOn = true → s.is RED_STAT_LINK = false → c.crcOk = false →
      Runs (.zlControlCell c) s (fun t => t.rd RED_ZL_CRCERR_COUNT = (s.cnt RED_ZL_CRCERR_COUNT).rd RED_ZL_CRCERR_COUNT ∧ t.red = { s.red with goodCells := 0 }
        ∧ Frame [RED_ZL_CRCERR_COUNT] [.red] s t))
  ∧ (∀ (c : ZlCell) (s : State), s.zlOn = true → s.is RED_STAT_LINK = false → c.crcOk = true → c.serial % 2 ^ 64 ≠ s.serialNo → s.red.goodCells < 63 →
      Runs (.zlControlCell c) s (fun t => t.red = { s.red with goodCells := s.red.goodCells + 1, lastCellAt := s.mono, ackOut := some (c.claim % 65536) }
        ∧ Frame [] [.red] s t))
  ∧ (∀ (c : ZlCell) (s : State), s.zlOn = true → s.is RED_STAT_LINK = false → c.crcOk = true → c.serial % 2 ^ 64 ≠ s.serialNo → s.red.goodCells = 63 →
      Runs (.zlControlCell c) s (fun t => t.rd RED_STAT_LINK = 1 ∧ t.rd RED_PARTNER_CLAIM = c.claim % 65536 ∧ t.rd RED_PSN_LO_SERIAL = c.serial % 2 ^ 32
        ∧ t.rd RED_PSN_HI_SERIAL = c.serial / 2 ^ 32 % 2 ^ 32 ∧ t.red.lastCellAt = s.mono ∧ KeepsRest [.fab, .log, .red, .sch, .ing, .ana] s t))
  ∧ (∀ (c : ZlCell) (s : State), s.zlOn = true → s.is RED_STAT_LINK = false → c.crcOk = true → c.serial % 2 ^ 64 = s.serialNo →
      Runs (.zlControlCell c) s (fun t => t.red = { s.red with goodCells := 0 } ∧ Frame [] [.red] s t))
  ∧ (∀ (c : ZlCell) (s : State), s.zlOn = true → s.is RED_STAT_LINK = true → c.crcOk = true →
      Runs (.zlControlCell c) s (fun t => t.rd RED_PARTNER_CLAIM = c.claim % 65536 ∧ t.red.lastCellAt = s.mono ∧ t.rd RED_STAT_LINK = s.rd RED_STAT_LINK
        ∧ (s.is RED_STAT_ACKWAIT = true → c.ack = some (s.rd RED_CLAIM_ANNOUNCED) → s.rd RED_CLAIM_ANNOUNCED < 65536 →
            t.rd RED_STAT_ACKWAIT = 0 ∧ t.rd RED_CLAIM_INFORCE = s.rd RED_CLAIM_ANNOUNCED)
        ∧ KeepsRest [.fab, .log, .red, .sch, .ana] s t))
  ∧ (∀ (c : ZlCell) (s : State), s.zlOn = false → Runs (.zlControlCell c) s (fun t => Frame [] [] s t) ∧ Runs .claimCellSend s (fun t => Frame [] [] s t))
  ∧ (∀ s : State, s.zlOn = true → s.red.decOut = [] →
      Runs .claimCellSend s (fun t => t.red = { s.red with cellOut := [s.serialNo, s.rd RED_CLAIM_ANNOUNCED] ++ s.red.ackOut.toList, ackOut := none } ∧ Frame [] [.red] s t))
  ∧ (∀ (d : Nat × Nat) (l : List (Nat × Nat)) (s : State), s.zlOn = true → s.red.decOut = d :: l →
      Runs .claimCellSend s (fun t => t.red = { s.red with cellOut := [s.serialNo, s.rd RED_CLAIM_ANNOUNCED] ++ s.red.ackOut.toList ++ [d.1, d.2], ackOut := none, decOut := l }
        ∧ Frame [] [.red] s t))
  ∧ (∀ s : State, s.up = true → s.is RED_STAT_LINK = true →
      Runs .zlLinkTimeout s (fun t => t.rd RED_STAT_LINK = 0 ∧ t.rd RED_STAT_ONE_LANE = 0 ∧ t.rd RED_PARTNER_CLAIM = 0 ∧ s.red.lastCellAt + 4000 * nsU ≤ t.mono
        ∧ t.red.goodCells = 0
        ∧ (Listens s → ∃ e l, t.log.inq = s.log.inq ++ e :: l ∧ e.code = 0xB002 ∧ e.p0 = 1) ∧ KeepsRest [.time, .fab, .log, .red, .sch, .ana] s t))
  ∧ (∀ (k : Nat) (s : State), k < 2 → s.up = true → s.is RED_STAT_LINK = true → s.red.laneBad = 0 → Listens s →
      Runs (.zlLaneFail k) s (fun t => t.rd RED_STAT_ONE_LANE = 1 ∧ t.red = { s.red with laneBad := 2 ^ k } ∧ Tells s t 0xB003 k 0 0 0
        ∧ Frame [RED_STAT_ONE_LANE] [.log, .red] s t))
  ∧ ∀ (k : Nat) (s : State), k < 2 → s.up = true → s.is RED_STAT_LINK = true → s.red.laneBad = 2 ^ (1 - k) →
      Runs (.zlLaneFail k) s (fun t => t.rd RED_STAT_LINK = 0 ∧ t.rd RED_PARTNER_CLAIM = 0 ∧ KeepsRest [.fab, .log, .red, .sch, .ana] s t)

/-- The end of the hold-off announces the score; the acknowledgement timeout puts the announced claim in force; conditions 5, 9 and 10 end 60 s after they arose. A snapshot that finds the
buffers full, whose CRC fails, or whose parameter set differs, ends with a report at once; a good one is queued as an audit; without the link or PD4 none is taken. A report of the standby
is kept, recorded and counted, as passed with result 0, as skipped with 6 and as a mismatch with any other; result 4 begins condition 10. -/
def Obligations.HealthTimersAndAudits : Prop :=
  (∀ (x : Nat) (s : State), s.up = true → s.red.holdAt = some x →
      Runs .healthHoldoffExpiry s (fun t => t.rd RED_STAT_HOLDOFF = 0 ∧ t.rd RED_HEALTH_HELD = s.rd RED_HEALTH_SCORE % 256 ∧ t.red.holdAt = none ∧ x ≤ t.mono
        ∧ KeepsRest [.time, .fab, .log, .red, .sch, .ana] s t))
  ∧ (∀ (x : Nat) (s : State), s.up = true → s.red.ackAt = some x → s.rd RED_CLAIM_ANNOUNCED < 65536 →
      Runs .claimAckTimeout s (fun t => t.rd RED_STAT_ACKWAIT = 0 ∧ t.rd RED_CLAIM_INFORCE = s.rd RED_CLAIM_ANNOUNCED ∧ t.red.ackAt = none ∧ x ≤ t.mono
        ∧ KeepsRest [.time, .fab, .log, .red, .sch, .ana] s t))
  ∧ (∀ (x : Nat) (s : State), s.up = true →
      (s.red.ueAt = some x → Runs (.healthConditionExpiry 5) s (fun t => t.red.ueAt = none ∧ bit (t.rd RED_HEALTH_COND) 5 = 0 ∧ x + 60 * secU ≤ t.mono
        ∧ KeepsRest [.time, .fab, .log, .red, .sch, .ana] s t))
      ∧ (s.red.suspSbyAt = some x → Runs (.healthConditionExpiry 9) s (fun t => t.red.suspSbyAt = none ∧ bit (t.rd RED_HEALTH_COND) 9 = 0 ∧ x + 60 * secU ≤ t.mono
        ∧ KeepsRest [.time, .fab, .log, .red, .sch, .ana] s t))
      ∧ (s.red.suspActAt = some x → Runs (.healthConditionExpiry 10) s (fun t => t.red.suspActAt = none ∧ bit (t.rd RED_HEALTH_COND) 10 = 0 ∧ x + 60 * secU ≤ t.mono
        ∧ KeepsRest [.time, .fab, .log, .red, .sch, .ana] s t)))
  ∧ (∀ (bs : List Byte) (s : State), s.zlOn = true → s.is RED_STAT_LINK = true → s.on 4 = true → 48 ≤ s.red.audBufs.length + s.red.audits.length → Listens s →
      Runs (.auditSnapshotReceived bs) s (fun t => t.rd RED_AUD_SKIP_COUNT = (s.cnt RED_AUD_SKIP_COUNT).rd RED_AUD_SKIP_COUNT
        ∧ t.rd (RED_AUD_W 0) = leAt bs 64 4 % 2 ^ 32 ∧ t.red = { s.red with auditSeq := (s.red.auditSeq + 1) % 2 ^ 32 } ∧ Tells s t 0xB021 (leAt bs 64 4) 3 0 0
        ∧ Frame (RED_AUD_SKIP_COUNT :: (List.range 8).map RED_AUD_W) [.free, .log, .red] s t))
  ∧ (∀ (bs : List Byte) (s : State), s.zlOn = true → s.is RED_STAT_LINK = true → s.on 4 = true → s.red.audBufs.length + s.red.audits.length < 48 →
      leAt bs 12 4 ≠ crc32c (bs.drop 16) → Listens s →
      Runs (.auditSnapshotReceived bs) s (fun t => t.rd RED_AUD_MIS_COUNT = (s.cnt RED_AUD_MIS_COUNT).rd RED_AUD_MIS_COUNT
        ∧ Tells s t 0xB020 (leAt bs 64 4) 1 (s.rd RED_HEALTH_SCORE) s.red.auditSeq ∧ Frame (RED_AUD_MIS_COUNT :: (List.range 8).map RED_AUD_W) [.free, .log, .red] s t))
  ∧ (∀ (bs : List Byte) (s : State), s.zlOn = true → s.is RED_STAT_LINK = true → s.on 4 = true → s.red.audBufs.length + s.red.audits.length < 48 →
      leAt bs 12 4 = crc32c (bs.drop 16) → 8336 + 327680 + 32 ≤ bs.length → leAt bs 4 4 = s.setCrc →
      (beBytes 32 (Config.sha256 (leBytes 4 (leAt bs 68 4) ++ slice bs 72 2 ++ leBytes 4 (leAt bs 76 4)
        ++ (List.range 4096).map (fun c => toByte (leAt bs (144 + 2 * c) 2 % 8)) ++ slice bs 8336 327680))).take 16 = slice bs 128 16 →
      Runs (.auditSnapshotReceived bs) s (fun t => t.red.audits.length = s.red.audits.length + 1
        ∧ (∃ it, it ∈ t.sch.items ∧ it.typ = 4 ∧ it.serial = leAt bs 64 4) ∧ Frame [] [.red, .sch] s t))
  ∧ (∀ (bs : List Byte) (s : State), s.zlOn = true → s.is RED_STAT_LINK = true → s.on 4 = true → s.red.audBufs.length + s.red.audits.length < 48 →
      leAt bs 12 4 = crc32c (bs.drop 16) → 8336 + 327680 + 32 ≤ bs.length → leAt bs 4 4 ≠ s.setCrc →
      (beBytes 32 (Config.sha256 (leBytes 4 (leAt bs 68 4) ++ slice bs 72 2 ++ leBytes 4 (leAt bs 76 4)
        ++ (List.range 4096).map (fun c => toByte (leAt bs (144 + 2 * c) 2 % 8)) ++ slice bs 8336 327680))).take 16 = slice bs 128 16 → Listens s →
      Runs (.auditSnapshotReceived bs) s (fun t => t.rd RED_AUD_MIS_COUNT = (s.cnt RED_AUD_MIS_COUNT).rd RED_AUD_MIS_COUNT
        ∧ Tells s t 0xB020 (leAt bs 64 4) 2 (s.rd RED_HEALTH_SCORE) s.red.auditSeq ∧ Frame (RED_AUD_MIS_COUNT :: (List.range 8).map RED_AUD_W) [.free, .log, .red] s t))
  ∧ (∀ (bs : List Byte) (s : State), s.zlOn = false ∨ s.is RED_STAT_LINK = false ∨ s.on 4 = false →
      Runs (.auditSnapshotReceived bs) s (fun t => Frame [] [] s t))
  ∧ (∀ (r : AuditReport) (s : State), s.zlOn = false ∨ s.is RED_STAT_LINK = false → Runs (.healthReportReceived r) s (fun t => Frame [] [] s t))
  ∧ (∀ (r : AuditReport) (c : Field) (s : State), s.zlOn = true → s.is RED_STAT_LINK = true → r.result % 8 ≠ 4 →
      c = (if r.result % 8 = 0 then RED_AUD_OK_COUNT else if 6 ≤ r.result % 8 then RED_AUD_SKIP_COUNT else RED_AUD_MIS_COUNT) → Listens s →
      Runs (.healthReportReceived r) s (fun t => t.rd (RED_AUD_W 0) = r.serial % 2 ^ 32 ∧ t.rd (RED_AUD_W 5) = r.seq % 2 ^ 32
        ∧ t.rd (RED_AUD_W 3) = min (r.result % 8) 6 + r.skip % 8 * 8 + b2n r.alignDiff * 64 + r.health % 256 * 256 + r.claim % 65536 * 65536
        ∧ t.rd c = (s.cnt c).rd c ∧ (if 6 ≤ r.result % 8 then Tells s t 0xB021 r.serial r.skip 0 0 else Tells s t 0xB020 r.serial (r.result % 8) r.health r.seq)
        ∧ Frame (c :: (List.range 8).map RED_AUD_W) [.log] s t))
  ∧ ∀ (r : AuditReport) (s : State), s.zlOn = true → s.is RED_STAT_LINK = true → r.result % 8 = 4 →
      Runs (.healthReportReceived r) s (fun t => t.red.suspActAt = some s.mono ∧ bit (t.rd RED_HEALTH_COND) 10 = 1
        ∧ t.rd RED_AUD_MIS_COUNT = (s.cnt RED_AUD_MIS_COUNT).rd RED_AUD_MIS_COUNT ∧ KeepsRest [.fab, .log, .red, .sch, .ana] s t)

/-- Each life-cycle command draws a new challenge; its condition met, it puts the next state in force with event 0xC310; the condition not met, it leaves the state and records
0xC311 with its reason. On entry to decommissioned the RAM slots are empty, the seal and the device key are off and the OTP slots 2 and 3 revoked. A named OTP slot that the writer may
revoke is revoked with event 0xC307; one that is revoked, or that the writer may not revoke, stays as it is; the last firmware slot is not revoked and 0xC311 records it. -/
def Obligations.LifeCycleAndRevocation : Prop :=
  (∀ (m : Master) (s : State), Accepted s m 0xF0004 → s.lc = 0 → (assoc s.key.otp 0).isSome = true →
      Runs (.lcToProvisioned m) s (fun t => t.lc = 1 ∧ t.key.fuseLc = 1 ∧ t.rd KEY_STAT_LC = 1 ∧ t.free = s.free + 1 ∧ (Listens s → Tells s t 0xC310 1 0 (mNum m) 0xFF)
        ∧ Frame ([KEY_LC_CHAL_LO_CHAL, KEY_LC_CHAL_HI_CHAL, KEY_STAT_LC, KEY_STAT_DEVKEY, KEY_STAT_OTP_PROG, KEY_STAT_OTP_REV, FWU_ROLLBACK_COUNT] ++ writeCounters)
            [.free, .gate, .fab, .log, .key] s t))
  ∧ (∀ (m : Master) (s : State), Accepted s m 0xF0004 → s.lc = 0 ∨ s.lc = 1 → (assoc s.key.otp 2).isSome = true ∨ (assoc s.key.otp 3).isSome = true →
      Runs (.lcToDeployed m) s (fun t => t.lc = 2 ∧ t.key.fuseLc = 2 ∧ t.rd KEY_STAT_LC = 2 ∧ t.free = s.free + 1 ∧ (Listens s → Tells s t 0xC310 2 s.lc (mNum m) 0xFF)
        ∧ Frame ([KEY_LC_CHAL_LO_CHAL, KEY_LC_CHAL_HI_CHAL, KEY_STAT_LC, KEY_STAT_DEVKEY, KEY_STAT_OTP_PROG, KEY_STAT_OTP_REV, FWU_ROLLBACK_COUNT] ++ writeCounters)
            [.free, .gate, .fab, .log, .key] s t))
  ∧ (∀ (m : Master) (s : State), Accepted s m 0xF0004 → Listens s →
      (1 ≤ s.lc → Runs (.lcToProvisioned m) s (fun t => Tells s t 0xC311 0x4C430001 3 (mNum m) 0 ∧ t.free = s.free + 1
        ∧ Frame ([KEY_LC_CHAL_LO_CHAL, KEY_LC_CHAL_HI_CHAL] ++ writeCounters) [.free, .gate, .fab, .log] s t))
      ∧ (s.lc = 0 → assoc s.key.otp 0 = none → Runs (.lcToProvisioned m) s (fun t => Tells s t 0xC311 0x4C430001 1 (mNum m) 0 ∧ t.free = s.free + 1
        ∧ Frame ([KEY_LC_CHAL_LO_CHAL, KEY_LC_CHAL_HI_CHAL] ++ writeCounters) [.free, .gate, .fab, .log] s t))
      ∧ (2 ≤ s.lc → Runs (.lcToDeployed m) s (fun t => Tells s t 0xC311 0x4C430002 3 (mNum m) 0 ∧ t.free = s.free + 1
        ∧ Frame ([KEY_LC_CHAL_LO_CHAL, KEY_LC_CHAL_HI_CHAL] ++ writeCounters) [.free, .gate, .fab, .log] s t))
      ∧ (s.lc < 2 → assoc s.key.otp 2 = none → assoc s.key.otp 3 = none → Runs (.lcToDeployed m) s (fun t => Tells s t 0xC311 0x4C430002 1 (mNum m) 0 ∧ t.free = s.free + 1
        ∧ Frame ([KEY_LC_CHAL_LO_CHAL, KEY_LC_CHAL_HI_CHAL] ++ writeCounters) [.free, .gate, .fab, .log] s t))
      ∧ (s.lc = 0 → Runs (.lcToDecommissioned m) s (fun t => Tells s t 0xC311 0x4C430003 1 (mNum m) 0 ∧ t.free = s.free + 1
        ∧ Frame ([KEY_LC_CHAL_LO_CHAL, KEY_LC_CHAL_HI_CHAL] ++ writeCounters) [.free, .gate, .fab, .log] s t))
      ∧ (s.lc = 3 → Runs (.lcToDecommissioned m) s (fun t => Tells s t 0xC311 0x4C430003 3 (mNum m) 0 ∧ t.free = s.free + 1
        ∧ Frame ([KEY_LC_CHAL_LO_CHAL, KEY_LC_CHAL_HI_CHAL] ++ writeCounters) [.free, .gate, .fab, .log] s t)))
  ∧ (∀ (m : Master) (s : State), Accepted s m 0xF0004 →
      s.lc = 1 ∨ (s.lc = 2 ∧ s.keyUse (s.rd KEY_LC_AUTH_KEYSLOT) 6 [2] (some m) = none
        ∧ (s.verifyKeys (s.rd KEY_LC_AUTH_KEYSLOT)).any (fun k => beBytes 16 (Config.hmacSha256 k (s.authMsg KEY_LC_CHAL_LO_CHAL KEY_LC_CHAL_HI_CHAL 0x4C430003)
            / 2 ^ 128) == (List.range 4).flatMap (fun i => leBytes 4 (s.rd (KEY_LC_RESP_RESP i)))) = true) →
      Runs (.lcToDecommissioned m) s (fun t => t.lc = 3 ∧ t.rd KEY_STAT_LC = 3 ∧ t.key.devKey = false ∧ t.key.otpRev = s.key.otpRev % 4 + 12
        ∧ (∀ k, 4 ≤ k → k < 64 → t.rd (KSL_STATE k) = 0 ∧ t.curKey k = none) ∧ t.sealedNow = false ∧ t.free = s.free + 1
        ∧ (Listens s → Tells s t 0xC310 3 s.lc (mNum m) (if s.lc = 1 then 0xFF else s.rd KEY_LC_AUTH_KEYSLOT)) ∧ KeepsRest [.free, .gate, .fab, .log, .key] s t))
  ∧ (∀ (m : Master) (s : State), Accepted s m 0xF0004 → s.lc = 2 → s.keyUse (s.rd KEY_LC_AUTH_KEYSLOT) 6 [2] (some m) = none →
      (s.verifyKeys (s.rd KEY_LC_AUTH_KEYSLOT)).any (fun k => beBytes 16 (Config.hmacSha256 k (s.authMsg KEY_LC_CHAL_LO_CHAL KEY_LC_CHAL_HI_CHAL 0x4C430003)
          / 2 ^ 128) == (List.range 4).flatMap (fun i => leBytes 4 (s.rd (KEY_LC_RESP_RESP i)))) = false → Listens s →
      Runs (.lcToDecommissioned m) s (fun t => Tells s t 0xC311 0x4C430003 2 (mNum m) 0 ∧ t.free = s.free + 1
        ∧ Frame ([KEY_LC_CHAL_LO_CHAL, KEY_LC_CHAL_HI_CHAL, KSL_USES (s.rd KEY_LC_AUTH_KEYSLOT)] ++ writeCounters) [.free, .gate, .fab, .log] s t))
  ∧ (∀ (m : Master) (r : Nat) (s : State), Accepted s m 0xF0004 → s.lc = 2 → s.keyUse (s.rd KEY_LC_AUTH_KEYSLOT) 6 [2] (some m) = some r →
      s.log.running = true → s.log.inq.length < 239 → s.log.waiting = [] →
      Runs (.lcToDecommissioned m) s (fun t => t.lc = 2 ∧ t.free = s.free + 1 ∧ t.rd KEY_ERR_COUNT = (s.cnt KEY_ERR_COUNT).rd KEY_ERR_COUNT
        ∧ (∃ x e, t.log.inq = s.log.inq ++ [x, e] ∧ x.code = 0xC301 ∧ e.code = 0xC311 ∧ e.p0 = 0x4C430003 ∧ e.p1 = 2)
        ∧ KeepsRest [.free, .gate, .fab, .log, .key] s t))
  ∧ (∀ (m : Master) (k : Nat) (s : State), Accepted s m 0xF0024 → k < 4 → bit (s.rd (KSL_MASTERS k)) (mNum m) = 1 → bit s.key.otpRev k = 0 →
      2 ≤ k ∨ bit s.key.otpRev (1 - k) = 0 → Listens s →
      Runs (.otpRevoke m (2 ^ k)) s (fun t => t.key = { s.key with otpRev := s.key.otpRev + 2 ^ k } ∧ t.rd (KSL_REVOKED k) = 1 ∧ Tells s t 0xC307 k (mNum m) 0 0
        ∧ KeepsRest [.gate, .fab, .log, .key] s t))
  ∧ (∀ (m : Master) (k : Nat) (s : State), Accepted s m 0xF0024 → k < 4 → bit (s.rd (KSL_MASTERS k)) (mNum m) = 0 ∨ bit s.key.otpRev k = 1 →
      Runs (.otpRevoke m (2 ^ k)) s (fun t => Frame writeCounters [.gate, .fab] s t))
  ∧ ∀ (m : Master) (k : Nat) (s : State), Accepted s m 0xF0024 → k < 2 → bit (s.rd (KSL_MASTERS k)) (mNum m) = 1 → bit s.key.otpRev k = 0 →
      bit s.key.otpRev (1 - k) = 1 → Listens s →
      Runs (.otpRevoke m (2 ^ k)) s (fun t => Tells s t 0xC311 (2 ^ k) 4 (mNum m) 0 ∧ Frame writeCounters [.gate, .fab, .log] s t)

/-- A load that passes every check makes the material of the loader, or of the unwrapped blob, the slot's current key, with event 0xC300; into an empty slot the STATE becomes 1, into an
occupied one it becomes 2 and the old key is kept as the previous one. A load that fails changes no key and ends with its ERR and event 0xC302. Every command that finds the store busy
clears the material and ends with ERR 8 at once. The end of a command reports its result, clears the material and frees the store. -/
def Obligations.KeyLoads : Prop :=
  (∀ (m : Master) (k : KeyIn) (s : State), Accepted s m 0xF0100 → s.key.job = none → s.ldKey m = k → s.loadErr m none k = none →
      Runs (.keyLoad m) s (fun t => t.curKey k.slot = some (k.mat.take (matWords k.typ)) ∧ t.rd (KSL_STATE k.slot) = (if s.rd (KSL_STATE k.slot) = 1 then 2 else 1)
        ∧ t.rd (KSL_KCV k.slot) = k.kcv % 2 ^ 24 ∧ t.rd (KSL_USES k.slot) = 0 ∧ t.rd (KSL_WORLD k.slot) = k.world % 8 ∧ t.rd (KSL_TYPE k.slot) = k.typ % 16
        ∧ t.rd (KSL_MASTERS k.slot) = k.masters % 4 ∧ t.rd (KSL_LCMASK k.slot) = k.lcmask % 8 ∧ t.rd (KSL_KEYID k.slot) = k.keyid % 2 ^ 32
        ∧ (Listens s → Tells s t 0xC300 k.slot k.kcv (if s.rd (KSL_STATE k.slot) = 1 then 2 else 1) (mNum m))
        ∧ (s.rd (KSL_STATE k.slot) = 1 → assoc s.key.cur k.slot ≠ none → assoc t.key.prev k.slot = assoc s.key.cur k.slot
            ∧ t.rd (KSL_PKCV k.slot) = s.rd (KSL_KCV k.slot) % 2 ^ 24)
        ∧ (∃ x, t.key.job = some ⟨m, 1, x, true, 0⟩) ∧ t.rd (forM m KEY_LD_STAT_BUSY) = 1
        ∧ (∀ j, j ≠ k.slot → t.curKey j = s.curKey j ∧ t.rd (KSL_STATE j) = s.rd (KSL_STATE j)) ∧ KeepsRest [.free, .gate, .fab, .log, .key] s t))
  ∧ (∀ (m : Master) (e : Nat) (s : State), Accepted s m 0xF0100 → s.key.job = none → s.loadErr m none (s.ldKey m) = some e → Listens s →
      Runs (.keyLoad m) s (fun t => (∃ x, t.key = { s.key with job := some ⟨m, 1, x, false, e⟩ }) ∧ Tells s t 0xC302 (s.ldKey m).slot 1 e (mNum m)
        ∧ t.rd (forM m KEY_LD_STAT_BUSY) = 1
        ∧ Frame ([forM m KEY_LD_STAT_BUSY, forM m KEY_LD_STAT_OK, forM m KEY_LD_STAT_ERR] ++ writeCounters) [.gate, .fab, .log, .key] s t))
  ∧ (∀ (m : Master) (s : State), Accepted s m 0xF0100 → s.key.job = none → s.key.devKey = true →
      Runs (.keyLoadWrapped m) s (fun t =>
        (match unwrapBlob (s.ldMat m 28) with
         | none => ∃ x, t.key = { s.key with job := some ⟨m, 2, x, false, 5⟩ }
         | some k =>
           (match s.loadErr m none k with
            | some e => ∃ x, t.key = { s.key with job := some ⟨m, 2, x, false, e⟩ }
            | none => t.curKey k.slot = some (k.mat.take (matWords k.typ)) ∧ t.rd (KSL_STATE k.slot) = (if s.rd (KSL_STATE k.slot) = 1 then 2 else 1)
              ∧ (∃ x, t.key.job = some ⟨m, 2, x, true, 0⟩) ∧ ∀ j, j ≠ k.slot → t.curKey j = s.curKey j))
        ∧ KeepsRest [.free, .gate, .fab, .log, .key] s t))
  ∧ (∀ (m : Master) (s : State), Accepted s m 0xF0100 → s.key.job = none → s.key.devKey = false ∨ unwrapBlob (s.ldMat m 28) = none → Listens s →
      Runs (.keyLoadWrapped m) s (fun t => (∃ x, t.key = { s.key with job := some ⟨m, 2, x, false, 5⟩ }) ∧ Tells s t 0xC302 (s.rd (forM m KEY_LD_SLOT_SLOT)) 2 5 (mNum m)
        ∧ Frame ([forM m KEY_LD_STAT_BUSY, forM m KEY_LD_STAT_OK, forM m KEY_LD_STAT_ERR] ++ writeCounters) [.gate, .fab, .log, .key] s t))
  ∧ (∀ (m : Master) (c : Instr) (n : Nat) (s : State), Accepted s m 0xF0100 → s.key.job.isSome = true →
      (c, n) ∈ [(.keyLoad m, 1), (.keyLoadWrapped m, 2), (.keyEndOverlap m, 3), (.keyDestroy m, 4), (.keyWrapOut m, 5), (.keyProgramOtp m, 6)] → Listens s →
      Runs c s (fun t => t.rd (forM m KEY_LD_STAT_OK) = 0 ∧ t.rd (forM m KEY_LD_STAT_ERR) = 8
        ∧ Tells s t 0xC302 (s.rd (forM m KEY_LD_SLOT_SLOT)) n 8 (mNum m)
        ∧ (∀ i, i < 28 → t.rd (forM m (KEY_LD_MAT_MAT i)) = 0)
        ∧ Frame ([forM m KEY_LD_STAT_OK, forM m KEY_LD_STAT_ERR] ++ (List.range 28).map (fun i => forM m (KEY_LD_MAT_MAT i)) ++ writeCounters) [.gate, .fab, .log] s t))
  ∧ ∀ (m : Master) (j : KeyJob) (s : State), s.key.job = some j → j.master = m →
      Runs (.keyCommandDone m) s (fun t => t.key = { s.key with job := none } ∧ t.rd (forM m KEY_LD_STAT_BUSY) = 0 ∧ t.rd (forM m KEY_LD_STAT_OK) = b2n j.ok
        ∧ t.rd (forM m KEY_LD_STAT_ERR) = j.err % 16 ∧ j.doneAt ≤ t.mono ∧ (∀ i, i < 28 → t.rd (forM m (KEY_LD_MAT_MAT i)) = 0)
        ∧ Frame ([forM m KEY_LD_STAT_BUSY, forM m KEY_LD_STAT_OK, forM m KEY_LD_STAT_ERR] ++ (List.range 28).map (fun i => forM m (KEY_LD_MAT_MAT i)))
            [.time, .key] s t)

/-- Overlap ends by command or when its time runs out: the slot is in state 1 and the previous key is gone. A destroyed slot is empty, and no other changes; a metering key under the seal is
not destroyed. Wrapping out leaves every key as it is and gives the blob in the master's own registers. These commands on an OTP or empty slot, or on one whose masters leave the writer out,
end with that ERR. A load of a blank OTP slot in the right life-cycle state burns it. The masks are redrawn every millisecond without changing any key, and a slot whose cells fail is
emptied. -/
def Obligations.KeyCommandsAndMasks : Prop :=
  (∀ (m : Master) (k : Nat) (s : State), Accepted s m 0xF0100 → s.key.job = none → s.rd (forM m KEY_LD_SLOT_SLOT) = k → s.occupiedErr m k = none → s.rd (KSL_STATE k) = 2 →
      Runs (.keyEndOverlap m) s (fun t => t.rd (KSL_STATE k) = 1 ∧ t.rd (KSL_PKCV k) = 0 ∧ t.key.prev = assocDel s.key.prev k ∧ t.key.cur = s.key.cur
        ∧ (∃ x, t.key.job = some ⟨m, 3, x, true, 0⟩) ∧ (Listens s → Tells s t 0xC303 k (s.rd (KSL_PKCV k)) 2 0)
        ∧ Frame ([KSL_STATE k, KSL_PKCV k, KSL_PKEYID k, forM m KEY_LD_STAT_BUSY, forM m KEY_LD_STAT_OK, forM m KEY_LD_STAT_ERR] ++ writeCounters)
            [.gate, .fab, .log, .key] s t))
  ∧ (∀ (k x : Nat) (s : State), s.up = true → assoc s.key.ovl k = some (some x) →
      Runs (.keyOverlapExpiry k) s (fun t => t.rd (KSL_STATE k) = 1 ∧ t.key.prev = assocDel s.key.prev k ∧ t.key.cur = s.key.cur ∧ x ≤ t.mono
        ∧ (Listens s → ∃ y, t.log.inq = s.log.inq ++ [y] ∧ y.code = 0xC303 ∧ y.p2 = 1)
        ∧ Frame [KSL_STATE k, KSL_PKCV k, KSL_PKEYID k] [.time, .log, .key] s t))
  ∧ (∀ (m : Master) (k : Nat) (s : State), Accepted s m 0xF0100 → s.key.job = none → s.rd (forM m KEY_LD_SLOT_SLOT) = k → s.occupiedErr m k = none →
      s.sealedNow = false ∨ s.rd (KSL_WORLD k) ≠ 2 →
      Runs (.keyDestroy m) s (fun t => t.rd (KSL_STATE k) = 0 ∧ t.rd (KSL_KCV k) = 0 ∧ t.curKey k = none ∧ (∀ j, j ≠ k → t.curKey j = s.curKey j)
        ∧ (∃ x, t.key.job = some ⟨m, 4, x, true, 0⟩) ∧ (Listens s → Tells s t 0xC304 k (mNum m) 0 0)
        ∧ Frame ([KSL_STATE k, KSL_TYPE k, KSL_WORLD k, KSL_MASTERS k, KSL_LCMASK k, KSL_KCV k, KSL_PKCV k, KSL_KEYID k, KSL_PKEYID k, KSL_USES k,
            forM m KEY_LD_STAT_BUSY, forM m KEY_LD_STAT_OK, forM m KEY_LD_STAT_ERR] ++ writeCounters) [.gate, .fab, .log, .key] s t))
  ∧ (∀ (m : Master) (k : Nat) (s : State), Accepted s m 0xF0100 → s.key.job = none → s.rd (forM m KEY_LD_SLOT_SLOT) = k → s.occupiedErr m k = none →
      s.sealedNow = true → s.rd (KSL_WORLD k) = 2 →
      Runs (.keyDestroy m) s (fun t => (∃ x, t.key = { s.key with job := some ⟨m, 4, x, false, 9⟩ })
        ∧ Frame ([forM m KEY_LD_STAT_BUSY, forM m KEY_LD_STAT_OK, forM m KEY_LD_STAT_ERR] ++ writeCounters) [.gate, .fab, .log, .key] s t))
  ∧ (∀ (m : Master) (k : Nat) (s : State), Accepted s m 0xF0100 → s.key.job = none → s.rd (forM m KEY_LD_SLOT_SLOT) = k → s.key.devKey = true →
      s.occupiedErr m k = none →
      Runs (.keyWrapOut m) s (fun t => t.rd (forM m (KEY_WRAP_OUT_BLOB 0)) = 0x574B4B47 ∧ t.rd (forM m (KEY_WRAP_OUT_BLOB 1)) = (k + 2 ^ 8 + s.rd (forM m KEY_LD_OVL_SEC) * 2 ^ 16) % 2 ^ 32
        ∧ t.rd (forM m (KEY_WRAP_OUT_BLOB 3)) = s.rd (KSL_KCV k) % 2 ^ 32
        ∧ t.rd (forM m (KEY_WRAP_OUT_BLOB 4)) = s.rd (KSL_KEYID k) % 2 ^ 32 ∧ (∃ x, t.key = { s.key with job := some ⟨m, 5, x, true, 0⟩ })
        ∧ Frame ([forM m KEY_LD_STAT_BUSY, forM m KEY_LD_STAT_OK, forM m KEY_LD_STAT_ERR] ++ (List.range 28).map (fun i => forM m (KEY_WRAP_OUT_BLOB i))
            ++ writeCounters) [.free, .gate, .fab, .key] s t))
  ∧ (∀ (m : Master) (c : Instr) (n k e : Nat) (s : State), Accepted s m 0xF0100 → s.key.job = none → s.rd (forM m KEY_LD_SLOT_SLOT) = k →
      (c, n) ∈ [(.keyEndOverlap m, 3), (.keyDestroy m, 4), (.keyWrapOut m, 5)] → n ≠ 5 ∨ s.key.devKey = true → s.occupiedErr m k = some e → Listens s →
      Runs c s (fun t => (∃ x, t.key = { s.key with job := some ⟨m, n, x, false, e⟩ }) ∧ Tells s t 0xC302 k n e (mNum m)
        ∧ Frame ([forM m KEY_LD_STAT_BUSY, forM m KEY_LD_STAT_OK, forM m KEY_LD_STAT_ERR] ++ writeCounters) [.gate, .fab, .log, .key] s t))
  ∧ (∀ (m : Master) (k : KeyIn) (s : State), Accepted s m 0xF0100 → s.key.job = none → s.ldKey m = k → k.slot < 4 → assoc s.key.otp k.slot = none →
      bit s.key.otpRev k.slot = 0 → (s.lc = 0 ∧ k.slot < 2) ∨ (s.lc = 1 ∧ 2 ≤ k.slot) → attrOk k.slot k.world k.typ = true →
      Runs (.keyProgramOtp m) s (fun t => (if keyCheck 4 k.mat = some k.kcv then t.curKey k.slot = some k.mat ∧ t.rd (KSL_STATE k.slot) = 1 ∧ t.rd (KSL_OTP k.slot) = 1 ∧ bit (t.rd KEY_STAT_OTP_PROG) k.slot = 1
        ∧ (∀ j, j ≠ k.slot → t.curKey j = s.curKey j) ∧ (∃ x, t.key.job = some ⟨m, 6, x, true, 0⟩) ∧ (Listens s → Tells s t 0xC306 k.slot k.kcv (mNum m) 0)
          else ∃ x, t.key = { s.key with job := some ⟨m, 6, x, false, 1⟩ }) ∧ KeepsRest [.gate, .fab, .log, .key] s t))
  ∧ (∀ s : State, s.up = true →
      Runs (.keyMaskRefresh none) s (fun t => (∀ k, t.curKey k = s.curKey k) ∧ (∀ k, t.verifyKeys k = s.verifyKeys k) ∧ s.key.refreshAt ≤ t.mono
        ∧ t.key.refreshAt = t.mono + 1000000 * nsU ∧ Frame [] [.time, .free, .key] s t))
  ∧ ∀ (k : Nat) (s : State), s.up = true → 4 ≤ k → (assoc s.key.cur k).isSome = true →
      Runs (.keyMaskRefresh (some k)) s (fun t => t.curKey k = none ∧ t.rd (KSL_STATE k) = 0
        ∧ t.rd KEY_CELL_UE_COUNT = (s.cnt KEY_CELL_UE_COUNT).rd KEY_CELL_UE_COUNT ∧ (∀ j, j ≠ k → t.curKey j = s.curKey j)
        ∧ KeepsRest [.time, .free, .log, .key] s t)

/-- An erase by the owner, or by anyone while nobody owns staging, erases the area and makes the master its owner. Of the owner's commands a write programs the page buffer, which clears bits only (log 48), and will
report whether it reads back, a verify sets VERIFIED by what the area holds, a commit copies the area into the spare bank and, where that bank then verifies, writes the trial header, and an abort gives up ownership at its
end. A command of a master that is not the owner ends with ERR 2, one while staging is busy with ERR 9, a write so turned away with event 0xC40A, and neither changes the NOR. The end of a command reports its ERR and clears
BUSY; that of a commit which succeeded sets STAGED with event 0xC402. -/
def Obligations.Staging : Prop :=
  (∀ (m : Master) (s : State), Accepted s m FWU_STG_CMD_CMD.addr → s.is FWU_STG_STAT_BUSY = false → s.rd FWU_STG_STAT_OWNER = 0 ∨ s.rd FWU_STG_STAT_OWNER = ownerOf m →
      Runs (.stagingErase m) s (fun t => t.nor = Memory.clear s.nor stagingBase 0x800000 ∧ t.rd FWU_STG_STAT_OWNER = ownerOf m ∧ t.rd FWU_STG_STAT_BUSY = 1
        ∧ t.rd FWU_STG_STAT_VERIFIED = 0 ∧ t.fwu = { s.fwu with stgCmd := 1, stgErr := 0, stgOfs := s.rd FWU_STG_OFS_OFS }
        ∧ Frame ([FWU_STG_STAT_BUSY, FWU_STG_STAT_DONE, FWU_STG_STAT_ERR, FWU_STG_STAT_OWNER, FWU_STG_STAT_VERIFIED] ++ writeCounters) [.nor, .gate, .fab, .fwu] s t))
  ∧ (∀ (m : Master) (o : Nat) (s : State), Accepted s m FWU_STG_CMD_CMD.addr → s.is FWU_STG_STAT_BUSY = false → s.rd FWU_STG_STAT_OWNER = ownerOf m →
      s.rd FWU_STG_OFS_OFS = o → o % 256 = 0 →
      Runs (.stagingWrite m) s (fun t =>
        t.nor = Memory.writeN norErased s.nor (stagingBase + o) (List.zipWith (fun a b => a &&& b) (s.norRead (stagingBase + o) 256) s.stgPage)
        ∧ t.fwu.stgErr = (if t.norRead (stagingBase + o) 256 = s.stgPage then 0 else 3) ∧ t.rd FWU_STG_STAT_VERIFIED = 0 ∧ t.rd FWU_STG_STAT_BUSY = 1
        ∧ Frame ([FWU_STG_STAT_BUSY, FWU_STG_STAT_DONE, FWU_STG_STAT_ERR, FWU_STG_STAT_VERIFIED] ++ writeCounters) [.nor, .gate, .fab, .fwu] s t))
  ∧ (∀ (m : Master) (s : State), Accepted s m FWU_STG_CMD_CMD.addr → s.is FWU_STG_STAT_BUSY = false → s.rd FWU_STG_STAT_OWNER = ownerOf m →
      s.rd FWU_STG_OFS_OFS % 256 ≠ 0 →
      Runs (.stagingWrite m) s (fun t => t.fwu.stgErr = 1
        ∧ Frame ([FWU_STG_STAT_BUSY, FWU_STG_STAT_DONE, FWU_STG_STAT_ERR] ++ writeCounters) [.gate, .fab, .fwu] s t))
  ∧ (∀ (m : Master) (s : State), Accepted s m FWU_STG_CMD_CMD.addr → s.is FWU_STG_STAT_BUSY = false → s.rd FWU_STG_STAT_OWNER = ownerOf m →
      Runs (.stagingVerify m) s (fun t => t.rd FWU_STG_STAT_VERIFIED = b2n (s.verifyBank stagingBase).1.isNone ∧ t.fwu.stgErr = stgErrOf (s.verifyBank stagingBase).1
        ∧ t.fwu.stgCmd = 3 ∧ KeepsRest [.gate, .fab, .log, .key, .fwu] s t))
  ∧ (∀ (m : Master) (s : State), Accepted s m FWU_STG_CMD_CMD.addr → s.is FWU_STG_STAT_BUSY = false → s.rd FWU_STG_STAT_OWNER = ownerOf m →
      s.is FWU_STG_STAT_VERIFIED = false ∨ s.is FWU_STAT_TRIAL = true →
      Runs (.stagingCommit m) s (fun t => t.fwu.stgErr = (if s.is FWU_STG_STAT_VERIFIED then 8 else 7)
        ∧ Frame ([FWU_STG_STAT_BUSY, FWU_STG_STAT_DONE, FWU_STG_STAT_ERR] ++ writeCounters) [.gate, .fab, .fwu] s t))
  ∧ (∀ (m : Master) (s u : State), Accepted s m FWU_STG_CMD_CMD.addr → s.is FWU_STG_STAT_BUSY = false → s.rd FWU_STG_STAT_OWNER = ownerOf m →
      s.is FWU_STG_STAT_VERIFIED = true → s.is FWU_STAT_TRIAL = false →
      u = (s.norErase (bankBase s.spare) 0x800000).norWrite (bankBase s.spare) (s.norRead stagingBase 0x800000) →
      Runs (.stagingCommit m) s (fun t => t.fwu.stgErr = stgErrOf (u.verifyBank (bankBase s.spare)).1 ∧ t.fwu.stgCmd = 4
        ∧ t.nor = (if (u.verifyBank (bankBase s.spare)).1 = none then
            (u.headerWrite (({ u.headerUsed with active := s.spare, trial := 1 } : Header).withFlags s.spare 1)).nor else u.nor) ∧ KeepsRest [.nor, .gate, .fab, .log, .key, .fwu] s t))
  ∧ (∀ (m : Master) (s : State), Accepted s m FWU_STG_CMD_CMD.addr → s.is FWU_STG_STAT_BUSY = false → s.rd FWU_STG_STAT_OWNER = ownerOf m →
      Runs (.stagingAbort m) s (fun t => t.fwu = { s.fwu with stgCmd := 5, stgErr := 0, stgOfs := s.rd FWU_STG_OFS_OFS } ∧ t.rd FWU_STG_STAT_BUSY = 1
        ∧ Frame ([FWU_STG_STAT_BUSY, FWU_STG_STAT_DONE, FWU_STG_STAT_ERR] ++ writeCounters) [.gate, .fab, .fwu] s t))
  ∧ (∀ (m : Master) (c : Instr) (n : Nat) (s : State), Accepted s m FWU_STG_CMD_CMD.addr → s.is FWU_STG_STAT_BUSY = false → s.rd FWU_STG_STAT_OWNER ≠ ownerOf m →
      (c, n) ∈ [(.stagingErase m, 1), (.stagingWrite m, 2), (.stagingVerify m, 3), (.stagingCommit m, 4), (.stagingAbort m, 5)] → n ≠ 1 ∨ s.rd FWU_STG_STAT_OWNER ≠ 0 → Listens s →
      Runs c s (fun t => t.rd FWU_STG_STAT_ERR = 2 ∧ t.rd FWU_STG_STAT_DONE = 1
        ∧ (if n = 2 then Tells s t 0xC40A (s.rd FWU_STG_OFS_OFS) 2 (mNum m) 0 else t.log = s.log)
        ∧ Frame ([FWU_STG_STAT_DONE, FWU_STG_STAT_ERR] ++ writeCounters) [.gate, .fab, .log] s t))
  ∧ (∀ (m : Master) (c : Instr) (n : Nat) (s : State), Accepted s m FWU_STG_CMD_CMD.addr → s.is FWU_STG_STAT_BUSY = true →
      (c, n) ∈ [(.stagingErase m, 1), (.stagingWrite m, 2), (.stagingVerify m, 3), (.stagingCommit m, 4), (.stagingAbort m, 5)] → Listens s →
      Runs c s (fun t => t.rd FWU_STG_STAT_ERR = 9
        ∧ (if n = 2 then Tells s t 0xC40A (s.rd FWU_STG_OFS_OFS) 9 (mNum m) 0 else t.log = s.log) ∧ Frame (FWU_STG_STAT_ERR :: writeCounters) [.gate, .fab, .log] s t))
  ∧ (∀ s : State, s.up = true → s.is FWU_STG_STAT_BUSY = true → s.fwu.stgErr < 16 →
      Runs .stagingCommandDone s (fun t => t.rd FWU_STG_STAT_BUSY = 0 ∧ t.rd FWU_STG_STAT_DONE = 1 ∧ t.rd FWU_STG_STAT_ERR = s.fwu.stgErr
        ∧ t.fwu = { s.fwu with stgCmd := 0, stgErr := 0 } ∧ KeepsRest [.log, .fwu] s t))
  ∧ (∀ s : State, s.up = true → s.is FWU_STG_STAT_BUSY = true → s.fwu.stgCmd = 5 →
      Runs .stagingCommandDone s (fun t => t.rd FWU_STG_STAT_OWNER = 0
        ∧ Frame [FWU_STG_STAT_OWNER, FWU_STG_STAT_BUSY, FWU_STG_STAT_DONE, FWU_STG_STAT_ERR] [.fwu] s t))
  ∧ ∀ s : State, s.up = true → s.is FWU_STG_STAT_BUSY = true → s.fwu.stgCmd = 4 → s.fwu.stgErr = 0 →
      Runs .stagingCommandDone s (fun t => t.rd FWU_STAT_STAGED = 1 ∧ (Listens s → ∃ y, t.log.inq = s.log.inq ++ [y] ∧ y.code = 0xC402 ∧ y.p0 = s.spare % 2 ^ 32)
        ∧ KeepsRest [.log, .fwu] s t)

/-- The activation code, with an image staged and in PHASE 0x8 or 0x9, brings PHASE to 2 and notes the activation; in another phase it resets the device with FWRST alone in SYS_RST_CAUSE; any other value, nothing
staged, or an activation under way does nothing. The restart, when a bank starts and the settings load, leaves PHASE at 8 with no activation under way; when no bank starts, the part is as that start left it. Confirming a
running trial, by command or when its time has passed, raises the rollback counter to the image's, makes the running bank ACTIVE without TRIAL in the header copy not in use, and clears the trial. After a fallback in service the
header is rewritten likewise when the NOR takes it, with the other bank marked; without a fallback, or while a trial runs, it is left. -/
def Obligations.ActivationAndTrials : Prop :=
  (∀ (m : Master) (v : Nat) (s : State), Accepted s m FWU_ACT_CODE.addr → v % 2 ^ 32 = 0x4143 → s.is FWU_STAT_STAGED = true → s.activating = false →
      s.rd SYS_BOOT_STAT_PHASE = 9 ∨ s.rd SYS_BOOT_STAT_PHASE = 8 →
      Runs (.activate m v) s (fun t => t.rd SYS_BOOT_STAT_PHASE = 2 ∧ t.fwu = { s.fwu with actAt := some s.mono, actBy := some m } ∧ bit (t.rd RED_HEALTH_COND) 0 = 1
        ∧ KeepsRest [.gate, .fab, .log, .red, .sch, .ana, .fwu] s t))
  ∧ (∀ (m : Master) (v : Nat) (s : State), Accepted s m FWU_ACT_CODE.addr → v % 2 ^ 32 ≠ 0x4143 ∨ s.is FWU_STAT_STAGED = false ∨ s.activating = true →
      Runs (.activate m v) s (fun t => Frame writeCounters [.gate, .fab] s t))
  ∧ (∀ (m : Master) (v : Nat) (s : State), Accepted s m FWU_ACT_CODE.addr → v % 2 ^ 32 = 0x4143 → s.is FWU_STAT_STAGED = true → s.activating = false →
      s.rd SYS_BOOT_STAT_PHASE ≠ 9 → s.rd SYS_BOOT_STAT_PHASE ≠ 8 →
      Runs (.activate m v) s (fun t => t.boot.stage = .ircStart ∧ CauseAlone t SYS_RST_CAUSE_FWRST ∧ OutputsHeld t ∧ t.rtc = s.rtc ∧ t.mono = s.mono ∧ NorKept s t))
  ∧ (∀ (m : Master) (ms : Nat) (u : State) (r : Option Load × State) (s : State), s.up = true → s.fwu.actBy = some m → s.is RED_STAT_ACKWAIT = false →
      u = s.activateAbort m → r = ((if u.on 5 then u.retCopy else u).activateHold).activateBoot 2 →
      Runs (.activationRestart ms) s (fun t =>
        match r.1 with
        | some _ => t.rd SYS_BOOT_STAT_PHASE = 8 ∧ t.fwu.actBy = none ∧ r.2.mono + ms * 1000000 * nsU ≤ t.mono
        | none => t = r.2))
  ∧ (∀ (ms : Nat) (s : State), s.up = false ∨ s.fwu.actBy = none ∨ s.is RED_STAT_ACKWAIT = true → Runs (.activationRestart ms) s (fun t => Frame [] [] s t))
  ∧ (∀ (m : Master) (s : State), Accepted s m FWU_CONFIRM_GO.addr → s.is FWU_STAT_TRIAL = true →
      Runs (.trialConfirm m) s (fun t => t.rd FWU_STAT_TRIAL = 0 ∧ t.rd SYS_BOOT_STAT_TRIAL = 0 ∧ t.fwu = { s.fwu with trialCnt := 0, trialAt := none }
        ∧ t.key = { s.key with rollback := max s.key.rollback (fwRollback (s.manifest (bankBase s.fwu.bank))) }
        ∧ t.boot = { s.boot with headerSeq := (s.boot.headerSeq + 1) % 2 ^ 32, headerCopy := some s.headerOther }
        ∧ t.nor = (s.headerWrite { s.headerUsed with active := s.fwu.bank, trial := 0 }).nor
        ∧ Frame ([FWU_STAT_TRIAL, SYS_BOOT_STAT_TRIAL, FWU_VER_A_VERSION, FWU_VER_B_VERSION, FWU_ROLLBACK_COUNT, FWU_STAT_REJECT] ++ writeCounters)
            [.nor, .boot, .gate, .fab, .log, .key, .fwu] s t))
  ∧ (∀ (m : Master) (s : State), Accepted s m FWU_CONFIRM_GO.addr → s.is FWU_STAT_TRIAL = false →
      Runs (.trialConfirm m) s (fun t => Frame writeCounters [.gate, .fab] s t))
  ∧ (∀ (x : Nat) (s : State), s.up = true → s.inService = true → s.is FWU_STAT_TRIAL = true → s.is FWU_CFG_AUTOCONF = true → s.fwu.trialAt = some x →
      Runs .trialAutoconfirm s (fun t => x + s.eff FWU_CFG_TRIAL_S * secU ≤ t.mono ∧ t.rd FWU_STAT_TRIAL = 0
        ∧ t.key = { s.key with rollback := max s.key.rollback (fwRollback (s.manifest (bankBase s.fwu.bank))) }
        ∧ t.boot.headerSeq = (s.boot.headerSeq + 1) % 2 ^ 32 ∧ t.nor = (s.headerWrite { s.headerUsed with active := s.fwu.bank, trial := 0 }).nor
        ∧ KeepsRest [.time, .nor, .boot, .log, .key, .fwu] s t))
  ∧ (∀ (f : Nat) (s : State), s.up = true → s.inService = true → s.is SYS_BOOT_STAT_FALLBACK = true → s.is FWU_STAT_TRIAL = false → s.headerUsed.trial = 1 →
      s.fwu.trialCnt ≠ 0 ∨ s.fwu.reject ≠ 0 → f = (if s.fwu.reject = s.spare + 1 then 3 else setBits (s.headerUsed.flags s.spare) 0 1 0) →
      Runs (.headerRewrite true) s (fun t => t.fwu = { s.fwu with reject := 0, trialCnt := 0 } ∧ t.boot.headerSeq = (s.boot.headerSeq + 1) % 2 ^ 32
        ∧ t.nor = (s.headerWrite (({ s.headerUsed with active := s.fwu.bank, trial := 0 } : Header).withFlags s.spare f)).nor
        ∧ KeepsRest [.nor, .boot, .log, .fwu] s t))
  ∧ ∀ (ok : Bool) (s : State), ok = false ∨ s.is SYS_BOOT_STAT_FALLBACK = false ∨ s.is FWU_STAT_TRIAL = true → Runs (.headerRewrite ok) s (fun t => Frame [] [] s t)

/-- If a counter event and a CLRCNT write fall in the same fabric cycle, the clear is applied first and the count second, so the counter reads 1 afterwards, whatever it read before; the counter of the writer's own accesses counts the
clear itself. A saturating counter stops at all ones: any number of counts takes it there and no further. -/
def Obligations.ClearThenCountAndSaturation : Prop :=
  (∀ (m : Master) (b : Nat) (f : Field) (s : State), b < 20 → Accepted s m (BLK_CLR_CLRCNT b).addr → f.acc = .roc → blkOfAddr f.addr = b → rocKey (fieldKey f) = true →
      f.dflt = 0 → 0 < f.width → f.lo < 32 →
      fieldKey f ≠ fieldKey (match m with | .mc => SYS_FAB_WR_MC_COUNT | .host => SYS_FAB_WR_HC_COUNT) → Runs (.blkClr m b [f]) s (fun t => t.rd f = 1))
  ∧ (∀ (m : Master) (s : State), Accepted s m (BLK_CLR_CLRCNT 0).addr →
      Runs (.blkClr m 0 []) s (fun t => t.rd (match m with | .mc => SYS_FAB_WR_MC_COUNT | .host => SYS_FAB_WR_HC_COUNT) = 1))
  ∧ (∀ (f : Field) (n : Nat) (s : State), f.sat = true → s.rd f < 2 ^ f.width → (s.cntN f n).rd f = min (s.rd f + n) (2 ^ f.width - 1))
  ∧ ∀ (f : Field) (s : State), f.sat = true → s.rd f = 2 ^ f.width - 1 → (s.cnt f).rd f = 2 ^ f.width - 1

/-- When the ring of 65,536 records is full, a new record takes the place of the oldest: every other record stands, the new one is the newest, and LOG_OLDEST shows the record that follows the one overwritten. Overwriting is not
counted: of all the counters only LOG_WRITTEN, which counts the record, and the mirror's count of records it has no room for may change. -/
def Obligations.FullRingOverwritesOldest : Prop :=
  ∀ (e : Ev) (x y : Rec) (l : List Rec) (s : State), s.log.running = true → s.log.inq = [e] → s.log.waiting = [] → s.log.lost = 0 → s.rd LOG_CFG_RATE_MAX = 0 →
    s.is LOG_STAT_MEMFAIL = false → s.log.ring = x :: y :: l → s.log.ring.length = 65536 →
    Runs .eventRecord s (fun t => (∃ r, t.log.ring = y :: l ++ [r] ∧ r.seq = s.log.nextSeq ∧ r.code = e.code) ∧ t.show .mc 0 LOG_OLDEST_SEQ = y.seq % 2 ^ 32
      ∧ t.log.lost = 0 ∧ t.log.lostCnt = s.log.lostCnt ∧ KeepsRegs [LOG_WRITTEN_COUNT, LOG_MIR_LOST_COUNT] s t)
end

