-- ==== Sys2Proof/Laws/Memory.lean ====
section
/-! SUPPORT. Byte memory: what is read after a write, and that every operation keeps the canonical form. -/

namespace Sys2Proof.Machine

/-- The canonical form with a bound: every address is at least `b`. -/
def Memory.above (d : Byte) (b : Nat) (m : Memory) : Prop := Memory.wf d m = true ∧ ∀ c ∈ m, b ≤ c.1

theorem Memory.wf_cons (d : Byte) (c : Host.Cell) (cs : Memory) :
    Memory.wf d (c :: cs) = true ↔ c.2 ≠ d ∧ Memory.above d (c.1 + 1) cs := by
  unfold Memory.above
  induction cs generalizing c with
  | nil => simp [Memory.wf]
  | cons e es ih =>
    have := ih e
    simp only [Memory.wf, Bool.and_eq_true, decide_eq_true_eq, bne_iff_ne, ne_eq, List.mem_cons, forall_eq_or_imp] at *
    constructor
    · intro h
      refine ⟨h.1.2, h.2, by omega, fun x hx => ?_⟩
      have h2 := (this.mp h.2).2.2 x hx
      omega
    · intro h
      exact ⟨⟨by omega, h.1⟩, h.2.1⟩

/-- Reading after a write of one byte. -/
theorem Memory.read_write (d : Byte) (m : Memory) (h : Memory.wf d m = true) (a b : Nat) (v : Byte) :
    Memory.read d (Memory.write d m a v) b = if a = b then v else Memory.read d m b := by
  induction m with
  | nil =>
    by_cases hv : v = d
    · simp [Memory.write, Memory.read, hv]
    · simp [Memory.write, Memory.read, hv]
  | cons c cs ih =>
    obtain ⟨hc, hw, hb⟩ := (Memory.wf_cons d c cs).mp h
    have gap : ∀ x, x ≤ c.1 → Memory.read d cs x = d := by
      clear ih h
      intro x hx
      induction cs with
      | nil => rfl
      | cons e es ih2 =>
        have he := hb e (by simp)
        obtain ⟨_, hw2, hb2⟩ := (Memory.wf_cons d e es).mp hw
        have : ¬ e.1 = x := by omega
        simp only [Memory.read, this, if_false]
        exact ih2 hw2 (fun y hy => hb y (by simp [hy]))
    unfold Memory.write
    split
    · rename_i e
      subst e
      split
      · rename_i hv
        by_cases hab : c.1 = b
        · subst hab; simp [gap c.1 (Nat.le_refl _), hv]
        · simp [Memory.read, hab]
      · by_cases hab : c.1 = b <;> simp [Memory.read, hab]
    · rename_i hne
      split
      · rename_i hlt
        split
        · rename_i hv
          by_cases hab : a = b
          · subst hab
            simp [Memory.read, hne, gap a (by omega), hv]
          · simp [hab]
        · by_cases hab : a = b <;> simp [Memory.read, hab]
      · by_cases hcb : c.1 = b
        · have : ¬ a = b := by omega
          simp [Memory.read, hcb, this]
        · simp [Memory.read, hcb, ih hw]

theorem Memory.above_write (d : Byte) (m : Memory) (b a : Nat) (v : Byte) (h : Memory.above d b m) (hb : b ≤ a) :
    Memory.above d b (Memory.write d m a v) := by
  induction m generalizing b with
  | nil => unfold Memory.write; split <;> simp_all [Memory.above, Memory.wf]
  | cons c cs ih =>
    obtain ⟨hw, hall⟩ := h
    obtain ⟨hc, hcs⟩ := (Memory.wf_cons d c cs).mp hw
    have hbc := hall c (by simp)
    have low : Memory.above d b cs := ⟨hcs.1, fun x hx => by have := hcs.2 x hx; omega⟩
    unfold Memory.write
    split
    · rename_i e
      split
      · exact low
      · rename_i hv
        refine ⟨(Memory.wf_cons d (a, v) cs).mpr ⟨hv, hcs.1, fun x hx => ?_⟩, fun x hx => ?_⟩
        · have := hcs.2 x hx; simp; omega
        · rcases List.mem_cons.mp hx with e2 | e2
          · subst e2; exact hb
          · exact low.2 x e2
    · split
      · rename_i hne hlt
        split
        · exact ⟨hw, hall⟩
        · rename_i hv
          refine ⟨(Memory.wf_cons d (a, v) (c :: cs)).mpr ⟨hv, hw, fun x hx => ?_⟩, fun x hx => ?_⟩
          · rcases List.mem_cons.mp hx with e2 | e2
            · subst e2; simp; omega
            · have := hcs.2 x e2; simp; omega
          · rcases List.mem_cons.mp hx with e2 | e2
            · subst e2; exact hb
            · exact hall x e2
      · have hk := ih (c.1 + 1) hcs (by omega)
        refine ⟨(Memory.wf_cons d c _).mpr ⟨hc, hk⟩, fun x hx => ?_⟩
        rcases List.mem_cons.mp hx with e2 | e2
        · subst e2; exact hbc
        · have := hk.2 x e2; omega

/-- A byte write keeps the canonical form. -/
theorem Memory.wf_write (d : Byte) (m : Memory) (a : Nat) (v : Byte) (h : Memory.wf d m = true) :
    Memory.wf d (Memory.write d m a v) = true :=
  (Memory.above_write d m 0 a v ⟨h, fun _ _ => Nat.zero_le _⟩ (Nat.zero_le _)).1

/-- A write of a byte string keeps the canonical form. -/
theorem Memory.wf_writeN (d : Byte) (m : Memory) (a : Nat) (bs : List Byte) (h : Memory.wf d m = true) :
    Memory.wf d (Memory.writeN d m a bs) = true := by
  induction bs generalizing m a with
  | nil => exact h
  | cons b rest ih => exact ih _ _ (Memory.wf_write d m a b h)

/-- Filling with what an unlisted address reads as keeps the canonical form. -/
theorem Memory.wf_clear (d : Byte) (m : Memory) (a n : Nat) (h : Memory.wf d m = true) :
    Memory.wf d (Memory.clear m a n) = true := by
  suffices ∀ b, Memory.above d b m → Memory.above d b (Memory.clear m a n) from
    (this 0 ⟨h, fun _ _ => Nat.zero_le _⟩).1
  clear h
  induction m with
  | nil => intro b h; exact h
  | cons c cs ih =>
    intro b h
    obtain ⟨hw, hall⟩ := h
    obtain ⟨hc, hcs⟩ := (Memory.wf_cons d c cs).mp hw
    have hk := ih (c.1 + 1) hcs
    have hbc := hall c (by simp)
    unfold Memory.clear at *
    rw [List.filter_cons]
    split
    · refine ⟨(Memory.wf_cons d c _).mpr ⟨hc, hk⟩, fun x hx => ?_⟩
      rcases List.mem_cons.mp hx with e2 | e2
      · subst e2; exact hbc
      · have := hk.2 x e2; omega
    · exact ⟨hk.1, fun x hx => by have := hk.2 x hx; omega⟩

/-- Reading after a write of a byte string: the written bytes in their places, every other byte as it was. -/
theorem Memory.read_writeN (d : Byte) (m : Memory) (h : Memory.wf d m = true) (a b : Nat) (bs : List Byte) :
    Memory.read d (Memory.writeN d m a bs) b =
      if a ≤ b ∧ b < a + bs.length then nth bs (b - a) d else Memory.read d m b := by
  induction bs generalizing m a with
  | nil => rw [if_neg (by simp only [List.length_nil]; omega)]; rfl
  | cons x rest ih =>
    simp only [Memory.writeN, ih _ (Memory.wf_write d m a x h), Memory.read_write d m h, List.length_cons]
    by_cases h1 : a = b
    · subst h1
      rw [if_neg (by omega), if_pos rfl, if_pos (by omega), Nat.sub_self]
      rfl
    · by_cases h2 : a + 1 ≤ b ∧ b < a + 1 + rest.length
      · have h3 : a ≤ b ∧ b < a + (rest.length + 1) := by omega
        obtain ⟨k, hk⟩ : ∃ k, b - a = k + 1 := ⟨b - a - 1, by omega⟩
        have hk2 : b - (a + 1) = k := by omega
        rw [if_pos h2, if_pos h3, hk, hk2]
        rfl
      · have h3 : ¬ (a ≤ b ∧ b < a + (rest.length + 1)) := by omega
        rw [if_neg h2, if_neg h3, if_neg h1]

theorem Memory.wf_norWrite (s : State) (a : Nat) (bs : List Byte) (h : Memory.wf norErased s.nor = true) :
    Memory.wf norErased (s.norWrite a bs).nor = true := Memory.wf_writeN _ _ _ _ h

theorem Memory.wf_norErase (s : State) (a n : Nat) (h : Memory.wf norErased s.nor = true) :
    Memory.wf norErased (s.norErase a n).nor = true := Memory.wf_clear _ _ _ _ h

theorem Memory.wf_dramWrite (s : State) (a : Nat) (bs : List Byte) (h : Memory.wf dramBlank s.dram = true) :
    Memory.wf dramBlank (s.dramWrite a bs).dram = true := Memory.wf_writeN _ _ _ _ h

/-- The memories after reset are in canonical form. -/
theorem Memory.wf_reset : Memory.wf norErased State.reset.nor = true ∧ Memory.wf dramBlank State.reset.dram = true :=
  ⟨rfl, rfl⟩

end Sys2Proof.Machine
end

