-- ==== Sys2Proof/Laws/State.lean ====
section
/-! SUPPORT. What each of the small operations leaves alone: one lemma for each operation and each part of the state it does
not write, true by definition, for `simp`. -/

namespace Sys2Proof.Machine

variable (s : State)

/-! ### wr -/

@[simp] theorem State.wr_pending (f : Field) (v : Nat) : (s.wr f v).pending = s.pending := (rfl)
@[simp] theorem State.wr_bufs (f : Field) (v : Nat) : (s.wr f v).bufs = s.bufs := (rfl)
@[simp] theorem State.wr_pend (f : Field) (v : Nat) : (s.wr f v).pend = s.pend := (rfl)
@[simp] theorem State.wr_tai (f : Field) (v : Nat) : (s.wr f v).tai = s.tai := (rfl)
@[simp] theorem State.wr_mono (f : Field) (v : Nat) : (s.wr f v).mono = s.mono := (rfl)
@[simp] theorem State.wr_rtc (f : Field) (v : Nat) : (s.wr f v).rtc = s.rtc := (rfl)
@[simp] theorem State.wr_free (f : Field) (v : Nat) : (s.wr f v).free = s.free := (rfl)
@[simp] theorem State.wr_loaded (f : Field) (v : Nat) : (s.wr f v).loaded = s.loaded := (rfl)
@[simp] theorem State.wr_nor (f : Field) (v : Nat) : (s.wr f v).nor = s.nor := (rfl)
@[simp] theorem State.wr_dram (f : Field) (v : Nat) : (s.wr f v).dram = s.dram := (rfl)
@[simp] theorem State.wr_boot (f : Field) (v : Nat) : (s.wr f v).boot = s.boot := (rfl)
@[simp] theorem State.wr_gate (f : Field) (v : Nat) : (s.wr f v).gate = s.gate := (rfl)
@[simp] theorem State.wr_fab (f : Field) (v : Nat) : (s.wr f v).fab = s.fab := (rfl)
@[simp] theorem State.wr_log (f : Field) (v : Nat) : (s.wr f v).log = s.log := (rfl)
@[simp] theorem State.wr_tns (f : Field) (v : Nat) : (s.wr f v).tns = s.tns := (rfl)
@[simp] theorem State.wr_ports (f : Field) (v : Nat) : (s.wr f v).ports = s.ports := (rfl)
@[simp] theorem State.wr_red (f : Field) (v : Nat) : (s.wr f v).red = s.red := (rfl)
@[simp] theorem State.wr_ccd (f : Field) (v : Nat) : (s.wr f v).ccd = s.ccd := (rfl)
@[simp] theorem State.wr_sch (f : Field) (v : Nat) : (s.wr f v).sch = s.sch := (rfl)
@[simp] theorem State.wr_ing (f : Field) (v : Nat) : (s.wr f v).ing = s.ing := (rfl)
@[simp] theorem State.wr_ana (f : Field) (v : Nat) : (s.wr f v).ana = s.ana := (rfl)
@[simp] theorem State.wr_pub (f : Field) (v : Nat) : (s.wr f v).pub = s.pub := (rfl)
@[simp] theorem State.wr_cap (f : Field) (v : Nat) : (s.wr f v).cap = s.cap := (rfl)
@[simp] theorem State.wr_els (f : Field) (v : Nat) : (s.wr f v).els = s.els := (rfl)
@[simp] theorem State.wr_key (f : Field) (v : Nat) : (s.wr f v).key = s.key := (rfl)
@[simp] theorem State.wr_fwu (f : Field) (v : Nat) : (s.wr f v).fwu = s.fwu := (rfl)
@[simp] theorem State.wr_acq (f : Field) (v : Nat) : (s.wr f v).acq = s.acq := (rfl)
@[simp] theorem State.wr_phs (f : Field) (v : Nat) : (s.wr f v).phs = s.phs := (rfl)
@[simp] theorem State.wr_qty (f : Field) (v : Nat) : (s.wr f v).qty = s.qty := (rfl)

/-! ### wrBuf -/

@[simp] theorem State.wrBuf_pending (f : Field) (v : Nat) : (s.wrBuf f v).pending = s.pending := (rfl)
@[simp] theorem State.wrBuf_regs (f : Field) (v : Nat) : (s.wrBuf f v).regs = s.regs := (rfl)
@[simp] theorem State.wrBuf_pend (f : Field) (v : Nat) : (s.wrBuf f v).pend = s.pend := (rfl)
@[simp] theorem State.wrBuf_tai (f : Field) (v : Nat) : (s.wrBuf f v).tai = s.tai := (rfl)
@[simp] theorem State.wrBuf_mono (f : Field) (v : Nat) : (s.wrBuf f v).mono = s.mono := (rfl)
@[simp] theorem State.wrBuf_rtc (f : Field) (v : Nat) : (s.wrBuf f v).rtc = s.rtc := (rfl)
@[simp] theorem State.wrBuf_free (f : Field) (v : Nat) : (s.wrBuf f v).free = s.free := (rfl)
@[simp] theorem State.wrBuf_loaded (f : Field) (v : Nat) : (s.wrBuf f v).loaded = s.loaded := (rfl)
@[simp] theorem State.wrBuf_nor (f : Field) (v : Nat) : (s.wrBuf f v).nor = s.nor := (rfl)
@[simp] theorem State.wrBuf_dram (f : Field) (v : Nat) : (s.wrBuf f v).dram = s.dram := (rfl)
@[simp] theorem State.wrBuf_boot (f : Field) (v : Nat) : (s.wrBuf f v).boot = s.boot := (rfl)
@[simp] theorem State.wrBuf_gate (f : Field) (v : Nat) : (s.wrBuf f v).gate = s.gate := (rfl)
@[simp] theorem State.wrBuf_fab (f : Field) (v : Nat) : (s.wrBuf f v).fab = s.fab := (rfl)
@[simp] theorem State.wrBuf_log (f : Field) (v : Nat) : (s.wrBuf f v).log = s.log := (rfl)
@[simp] theorem State.wrBuf_tns (f : Field) (v : Nat) : (s.wrBuf f v).tns = s.tns := (rfl)
@[simp] theorem State.wrBuf_ports (f : Field) (v : Nat) : (s.wrBuf f v).ports = s.ports := (rfl)
@[simp] theorem State.wrBuf_red (f : Field) (v : Nat) : (s.wrBuf f v).red = s.red := (rfl)
@[simp] theorem State.wrBuf_ccd (f : Field) (v : Nat) : (s.wrBuf f v).ccd = s.ccd := (rfl)
@[simp] theorem State.wrBuf_sch (f : Field) (v : Nat) : (s.wrBuf f v).sch = s.sch := (rfl)
@[simp] theorem State.wrBuf_ing (f : Field) (v : Nat) : (s.wrBuf f v).ing = s.ing := (rfl)
@[simp] theorem State.wrBuf_ana (f : Field) (v : Nat) : (s.wrBuf f v).ana = s.ana := (rfl)
@[simp] theorem State.wrBuf_pub (f : Field) (v : Nat) : (s.wrBuf f v).pub = s.pub := (rfl)
@[simp] theorem State.wrBuf_cap (f : Field) (v : Nat) : (s.wrBuf f v).cap = s.cap := (rfl)
@[simp] theorem State.wrBuf_els (f : Field) (v : Nat) : (s.wrBuf f v).els = s.els := (rfl)
@[simp] theorem State.wrBuf_key (f : Field) (v : Nat) : (s.wrBuf f v).key = s.key := (rfl)
@[simp] theorem State.wrBuf_fwu (f : Field) (v : Nat) : (s.wrBuf f v).fwu = s.fwu := (rfl)
@[simp] theorem State.wrBuf_acq (f : Field) (v : Nat) : (s.wrBuf f v).acq = s.acq := (rfl)
@[simp] theorem State.wrBuf_phs (f : Field) (v : Nat) : (s.wrBuf f v).phs = s.phs := (rfl)
@[simp] theorem State.wrBuf_qty (f : Field) (v : Nat) : (s.wrBuf f v).qty = s.qty := (rfl)
@[simp] theorem State.wrBuf_rd (f : Field) (v : Nat) (g : Field) : (s.wrBuf f v).rd g = s.rd g := by simp only [State.rd, State.wrBuf_regs]

/-! ### wrBoth -/

@[simp] theorem State.wrBoth_pending (f : Field) (v : Nat) : (s.wrBoth f v).pending = s.pending := (rfl)
@[simp] theorem State.wrBoth_pend (f : Field) (v : Nat) : (s.wrBoth f v).pend = s.pend := (rfl)
@[simp] theorem State.wrBoth_tai (f : Field) (v : Nat) : (s.wrBoth f v).tai = s.tai := (rfl)
@[simp] theorem State.wrBoth_mono (f : Field) (v : Nat) : (s.wrBoth f v).mono = s.mono := (rfl)
@[simp] theorem State.wrBoth_rtc (f : Field) (v : Nat) : (s.wrBoth f v).rtc = s.rtc := (rfl)
@[simp] theorem State.wrBoth_free (f : Field) (v : Nat) : (s.wrBoth f v).free = s.free := (rfl)
@[simp] theorem State.wrBoth_loaded (f : Field) (v : Nat) : (s.wrBoth f v).loaded = s.loaded := (rfl)
@[simp] theorem State.wrBoth_nor (f : Field) (v : Nat) : (s.wrBoth f v).nor = s.nor := (rfl)
@[simp] theorem State.wrBoth_dram (f : Field) (v : Nat) : (s.wrBoth f v).dram = s.dram := (rfl)
@[simp] theorem State.wrBoth_boot (f : Field) (v : Nat) : (s.wrBoth f v).boot = s.boot := (rfl)
@[simp] theorem State.wrBoth_gate (f : Field) (v : Nat) : (s.wrBoth f v).gate = s.gate := (rfl)
@[simp] theorem State.wrBoth_fab (f : Field) (v : Nat) : (s.wrBoth f v).fab = s.fab := (rfl)
@[simp] theorem State.wrBoth_log (f : Field) (v : Nat) : (s.wrBoth f v).log = s.log := (rfl)
@[simp] theorem State.wrBoth_tns (f : Field) (v : Nat) : (s.wrBoth f v).tns = s.tns := (rfl)
@[simp] theorem State.wrBoth_ports (f : Field) (v : Nat) : (s.wrBoth f v).ports = s.ports := (rfl)
@[simp] theorem State.wrBoth_red (f : Field) (v : Nat) : (s.wrBoth f v).red = s.red := (rfl)
@[simp] theorem State.wrBoth_ccd (f : Field) (v : Nat) : (s.wrBoth f v).ccd = s.ccd := (rfl)
@[simp] theorem State.wrBoth_sch (f : Field) (v : Nat) : (s.wrBoth f v).sch = s.sch := (rfl)
@[simp] theorem State.wrBoth_ing (f : Field) (v : Nat) : (s.wrBoth f v).ing = s.ing := (rfl)
@[simp] theorem State.wrBoth_ana (f : Field) (v : Nat) : (s.wrBoth f v).ana = s.ana := (rfl)
@[simp] theorem State.wrBoth_pub (f : Field) (v : Nat) : (s.wrBoth f v).pub = s.pub := (rfl)
@[simp] theorem State.wrBoth_cap (f : Field) (v : Nat) : (s.wrBoth f v).cap = s.cap := (rfl)
@[simp] theorem State.wrBoth_els (f : Field) (v : Nat) : (s.wrBoth f v).els = s.els := (rfl)
@[simp] theorem State.wrBoth_key (f : Field) (v : Nat) : (s.wrBoth f v).key = s.key := (rfl)
@[simp] theorem State.wrBoth_fwu (f : Field) (v : Nat) : (s.wrBoth f v).fwu = s.fwu := (rfl)
@[simp] theorem State.wrBoth_acq (f : Field) (v : Nat) : (s.wrBoth f v).acq = s.acq := (rfl)
@[simp] theorem State.wrBoth_phs (f : Field) (v : Nat) : (s.wrBoth f v).phs = s.phs := (rfl)
@[simp] theorem State.wrBoth_qty (f : Field) (v : Nat) : (s.wrBoth f v).qty = s.qty := (rfl)

/-! ### wrV -/

@[simp] theorem State.wrV_pending (f : Field) (v : Nat) : (s.wrV f v).pending = s.pending := (rfl)
@[simp] theorem State.wrV_bufs (f : Field) (v : Nat) : (s.wrV f v).bufs = s.bufs := (rfl)
@[simp] theorem State.wrV_pend (f : Field) (v : Nat) : (s.wrV f v).pend = s.pend := (rfl)
@[simp] theorem State.wrV_tai (f : Field) (v : Nat) : (s.wrV f v).tai = s.tai := (rfl)
@[simp] theorem State.wrV_mono (f : Field) (v : Nat) : (s.wrV f v).mono = s.mono := (rfl)
@[simp] theorem State.wrV_rtc (f : Field) (v : Nat) : (s.wrV f v).rtc = s.rtc := (rfl)
@[simp] theorem State.wrV_free (f : Field) (v : Nat) : (s.wrV f v).free = s.free := (rfl)
@[simp] theorem State.wrV_loaded (f : Field) (v : Nat) : (s.wrV f v).loaded = s.loaded := (rfl)
@[simp] theorem State.wrV_nor (f : Field) (v : Nat) : (s.wrV f v).nor = s.nor := (rfl)
@[simp] theorem State.wrV_dram (f : Field) (v : Nat) : (s.wrV f v).dram = s.dram := (rfl)
@[simp] theorem State.wrV_boot (f : Field) (v : Nat) : (s.wrV f v).boot = s.boot := (rfl)
@[simp] theorem State.wrV_gate (f : Field) (v : Nat) : (s.wrV f v).gate = s.gate := (rfl)
@[simp] theorem State.wrV_fab (f : Field) (v : Nat) : (s.wrV f v).fab = s.fab := (rfl)
@[simp] theorem State.wrV_log (f : Field) (v : Nat) : (s.wrV f v).log = s.log := (rfl)
@[simp] theorem State.wrV_tns (f : Field) (v : Nat) : (s.wrV f v).tns = s.tns := (rfl)
@[simp] theorem State.wrV_ports (f : Field) (v : Nat) : (s.wrV f v).ports = s.ports := (rfl)
@[simp] theorem State.wrV_red (f : Field) (v : Nat) : (s.wrV f v).red = s.red := (rfl)
@[simp] theorem State.wrV_ccd (f : Field) (v : Nat) : (s.wrV f v).ccd = s.ccd := (rfl)
@[simp] theorem State.wrV_sch (f : Field) (v : Nat) : (s.wrV f v).sch = s.sch := (rfl)
@[simp] theorem State.wrV_ing (f : Field) (v : Nat) : (s.wrV f v).ing = s.ing := (rfl)
@[simp] theorem State.wrV_ana (f : Field) (v : Nat) : (s.wrV f v).ana = s.ana := (rfl)
@[simp] theorem State.wrV_pub (f : Field) (v : Nat) : (s.wrV f v).pub = s.pub := (rfl)
@[simp] theorem State.wrV_cap (f : Field) (v : Nat) : (s.wrV f v).cap = s.cap := (rfl)
@[simp] theorem State.wrV_els (f : Field) (v : Nat) : (s.wrV f v).els = s.els := (rfl)
@[simp] theorem State.wrV_key (f : Field) (v : Nat) : (s.wrV f v).key = s.key := (rfl)
@[simp] theorem State.wrV_fwu (f : Field) (v : Nat) : (s.wrV f v).fwu = s.fwu := (rfl)
@[simp] theorem State.wrV_acq (f : Field) (v : Nat) : (s.wrV f v).acq = s.acq := (rfl)
@[simp] theorem State.wrV_phs (f : Field) (v : Nat) : (s.wrV f v).phs = s.phs := (rfl)
@[simp] theorem State.wrV_qty (f : Field) (v : Nat) : (s.wrV f v).qty = s.qty := (rfl)

/-! ### wrBufV -/

@[simp] theorem State.wrBufV_pending (f : Field) (v : Nat) : (s.wrBufV f v).pending = s.pending := (rfl)
@[simp] theorem State.wrBufV_regs (f : Field) (v : Nat) : (s.wrBufV f v).regs = s.regs := (rfl)
@[simp] theorem State.wrBufV_pend (f : Field) (v : Nat) : (s.wrBufV f v).pend = s.pend := (rfl)
@[simp] theorem State.wrBufV_tai (f : Field) (v : Nat) : (s.wrBufV f v).tai = s.tai := (rfl)
@[simp] theorem State.wrBufV_mono (f : Field) (v : Nat) : (s.wrBufV f v).mono = s.mono := (rfl)
@[simp] theorem State.wrBufV_rtc (f : Field) (v : Nat) : (s.wrBufV f v).rtc = s.rtc := (rfl)
@[simp] theorem State.wrBufV_free (f : Field) (v : Nat) : (s.wrBufV f v).free = s.free := (rfl)
@[simp] theorem State.wrBufV_loaded (f : Field) (v : Nat) : (s.wrBufV f v).loaded = s.loaded := (rfl)
@[simp] theorem State.wrBufV_nor (f : Field) (v : Nat) : (s.wrBufV f v).nor = s.nor := (rfl)
@[simp] theorem State.wrBufV_dram (f : Field) (v : Nat) : (s.wrBufV f v).dram = s.dram := (rfl)
@[simp] theorem State.wrBufV_boot (f : Field) (v : Nat) : (s.wrBufV f v).boot = s.boot := (rfl)
@[simp] theorem State.wrBufV_gate (f : Field) (v : Nat) : (s.wrBufV f v).gate = s.gate := (rfl)
@[simp] theorem State.wrBufV_fab (f : Field) (v : Nat) : (s.wrBufV f v).fab = s.fab := (rfl)
@[simp] theorem State.wrBufV_log (f : Field) (v : Nat) : (s.wrBufV f v).log = s.log := (rfl)
@[simp] theorem State.wrBufV_tns (f : Field) (v : Nat) : (s.wrBufV f v).tns = s.tns := (rfl)
@[simp] theorem State.wrBufV_ports (f : Field) (v : Nat) : (s.wrBufV f v).ports = s.ports := (rfl)
@[simp] theorem State.wrBufV_red (f : Field) (v : Nat) : (s.wrBufV f v).red = s.red := (rfl)
@[simp] theorem State.wrBufV_ccd (f : Field) (v : Nat) : (s.wrBufV f v).ccd = s.ccd := (rfl)
@[simp] theorem State.wrBufV_sch (f : Field) (v : Nat) : (s.wrBufV f v).sch = s.sch := (rfl)
@[simp] theorem State.wrBufV_ing (f : Field) (v : Nat) : (s.wrBufV f v).ing = s.ing := (rfl)
@[simp] theorem State.wrBufV_ana (f : Field) (v : Nat) : (s.wrBufV f v).ana = s.ana := (rfl)
@[simp] theorem State.wrBufV_pub (f : Field) (v : Nat) : (s.wrBufV f v).pub = s.pub := (rfl)
@[simp] theorem State.wrBufV_cap (f : Field) (v : Nat) : (s.wrBufV f v).cap = s.cap := (rfl)
@[simp] theorem State.wrBufV_els (f : Field) (v : Nat) : (s.wrBufV f v).els = s.els := (rfl)
@[simp] theorem State.wrBufV_key (f : Field) (v : Nat) : (s.wrBufV f v).key = s.key := (rfl)
@[simp] theorem State.wrBufV_fwu (f : Field) (v : Nat) : (s.wrBufV f v).fwu = s.fwu := (rfl)
@[simp] theorem State.wrBufV_acq (f : Field) (v : Nat) : (s.wrBufV f v).acq = s.acq := (rfl)
@[simp] theorem State.wrBufV_phs (f : Field) (v : Nat) : (s.wrBufV f v).phs = s.phs := (rfl)
@[simp] theorem State.wrBufV_qty (f : Field) (v : Nat) : (s.wrBufV f v).qty = s.qty := (rfl)
@[simp] theorem State.wrBufV_rd (f : Field) (v : Nat) (g : Field) : (s.wrBufV f v).rd g = s.rd g := by simp only [State.rd, State.wrBufV_regs]

/-! ### cntN -/

@[simp] theorem State.cntN_pending (f : Field) (n : Nat) : (s.cntN f n).pending = s.pending := (rfl)
@[simp] theorem State.cntN_bufs (f : Field) (n : Nat) : (s.cntN f n).bufs = s.bufs := (rfl)
@[simp] theorem State.cntN_pend (f : Field) (n : Nat) : (s.cntN f n).pend = s.pend := (rfl)
@[simp] theorem State.cntN_tai (f : Field) (n : Nat) : (s.cntN f n).tai = s.tai := (rfl)
@[simp] theorem State.cntN_mono (f : Field) (n : Nat) : (s.cntN f n).mono = s.mono := (rfl)
@[simp] theorem State.cntN_rtc (f : Field) (n : Nat) : (s.cntN f n).rtc = s.rtc := (rfl)
@[simp] theorem State.cntN_free (f : Field) (n : Nat) : (s.cntN f n).free = s.free := (rfl)
@[simp] theorem State.cntN_loaded (f : Field) (n : Nat) : (s.cntN f n).loaded = s.loaded := (rfl)
@[simp] theorem State.cntN_nor (f : Field) (n : Nat) : (s.cntN f n).nor = s.nor := (rfl)
@[simp] theorem State.cntN_dram (f : Field) (n : Nat) : (s.cntN f n).dram = s.dram := (rfl)
@[simp] theorem State.cntN_boot (f : Field) (n : Nat) : (s.cntN f n).boot = s.boot := (rfl)
@[simp] theorem State.cntN_gate (f : Field) (n : Nat) : (s.cntN f n).gate = s.gate := (rfl)
@[simp] theorem State.cntN_fab (f : Field) (n : Nat) : (s.cntN f n).fab = s.fab := (rfl)
@[simp] theorem State.cntN_log (f : Field) (n : Nat) : (s.cntN f n).log = s.log := (rfl)
@[simp] theorem State.cntN_tns (f : Field) (n : Nat) : (s.cntN f n).tns = s.tns := (rfl)
@[simp] theorem State.cntN_ports (f : Field) (n : Nat) : (s.cntN f n).ports = s.ports := (rfl)
@[simp] theorem State.cntN_red (f : Field) (n : Nat) : (s.cntN f n).red = s.red := (rfl)
@[simp] theorem State.cntN_ccd (f : Field) (n : Nat) : (s.cntN f n).ccd = s.ccd := (rfl)
@[simp] theorem State.cntN_sch (f : Field) (n : Nat) : (s.cntN f n).sch = s.sch := (rfl)
@[simp] theorem State.cntN_ing (f : Field) (n : Nat) : (s.cntN f n).ing = s.ing := (rfl)
@[simp] theorem State.cntN_ana (f : Field) (n : Nat) : (s.cntN f n).ana = s.ana := (rfl)
@[simp] theorem State.cntN_pub (f : Field) (n : Nat) : (s.cntN f n).pub = s.pub := (rfl)
@[simp] theorem State.cntN_cap (f : Field) (n : Nat) : (s.cntN f n).cap = s.cap := (rfl)
@[simp] theorem State.cntN_els (f : Field) (n : Nat) : (s.cntN f n).els = s.els := (rfl)
@[simp] theorem State.cntN_key (f : Field) (n : Nat) : (s.cntN f n).key = s.key := (rfl)
@[simp] theorem State.cntN_fwu (f : Field) (n : Nat) : (s.cntN f n).fwu = s.fwu := (rfl)
@[simp] theorem State.cntN_acq (f : Field) (n : Nat) : (s.cntN f n).acq = s.acq := (rfl)
@[simp] theorem State.cntN_phs (f : Field) (n : Nat) : (s.cntN f n).phs = s.phs := (rfl)
@[simp] theorem State.cntN_qty (f : Field) (n : Nat) : (s.cntN f n).qty = s.qty := (rfl)

/-! ### cnt -/

@[simp] theorem State.cnt_pending (f : Field) : (s.cnt f).pending = s.pending := (rfl)
@[simp] theorem State.cnt_bufs (f : Field) : (s.cnt f).bufs = s.bufs := (rfl)
@[simp] theorem State.cnt_pend (f : Field) : (s.cnt f).pend = s.pend := (rfl)
@[simp] theorem State.cnt_tai (f : Field) : (s.cnt f).tai = s.tai := (rfl)
@[simp] theorem State.cnt_mono (f : Field) : (s.cnt f).mono = s.mono := (rfl)
@[simp] theorem State.cnt_rtc (f : Field) : (s.cnt f).rtc = s.rtc := (rfl)
@[simp] theorem State.cnt_free (f : Field) : (s.cnt f).free = s.free := (rfl)
@[simp] theorem State.cnt_loaded (f : Field) : (s.cnt f).loaded = s.loaded := (rfl)
@[simp] theorem State.cnt_nor (f : Field) : (s.cnt f).nor = s.nor := (rfl)
@[simp] theorem State.cnt_dram (f : Field) : (s.cnt f).dram = s.dram := (rfl)
@[simp] theorem State.cnt_boot (f : Field) : (s.cnt f).boot = s.boot := (rfl)
@[simp] theorem State.cnt_gate (f : Field) : (s.cnt f).gate = s.gate := (rfl)
@[simp] theorem State.cnt_fab (f : Field) : (s.cnt f).fab = s.fab := (rfl)
@[simp] theorem State.cnt_log (f : Field) : (s.cnt f).log = s.log := (rfl)
@[simp] theorem State.cnt_tns (f : Field) : (s.cnt f).tns = s.tns := (rfl)
@[simp] theorem State.cnt_ports (f : Field) : (s.cnt f).ports = s.ports := (rfl)
@[simp] theorem State.cnt_red (f : Field) : (s.cnt f).red = s.red := (rfl)
@[simp] theorem State.cnt_ccd (f : Field) : (s.cnt f).ccd = s.ccd := (rfl)
@[simp] theorem State.cnt_sch (f : Field) : (s.cnt f).sch = s.sch := (rfl)
@[simp] theorem State.cnt_ing (f : Field) : (s.cnt f).ing = s.ing := (rfl)
@[simp] theorem State.cnt_ana (f : Field) : (s.cnt f).ana = s.ana := (rfl)
@[simp] theorem State.cnt_pub (f : Field) : (s.cnt f).pub = s.pub := (rfl)
@[simp] theorem State.cnt_cap (f : Field) : (s.cnt f).cap = s.cap := (rfl)
@[simp] theorem State.cnt_els (f : Field) : (s.cnt f).els = s.els := (rfl)
@[simp] theorem State.cnt_key (f : Field) : (s.cnt f).key = s.key := (rfl)
@[simp] theorem State.cnt_fwu (f : Field) : (s.cnt f).fwu = s.fwu := (rfl)
@[simp] theorem State.cnt_acq (f : Field) : (s.cnt f).acq = s.acq := (rfl)
@[simp] theorem State.cnt_phs (f : Field) : (s.cnt f).phs = s.phs := (rfl)
@[simp] theorem State.cnt_qty (f : Field) : (s.cnt f).qty = s.qty := (rfl)

/-! ### cntPair -/

@[simp] theorem State.cntPair_pending (f g : Field) (n : Nat) : (s.cntPair f g n).pending = s.pending := (rfl)
@[simp] theorem State.cntPair_bufs (f g : Field) (n : Nat) : (s.cntPair f g n).bufs = s.bufs := (rfl)
@[simp] theorem State.cntPair_pend (f g : Field) (n : Nat) : (s.cntPair f g n).pend = s.pend := (rfl)
@[simp] theorem State.cntPair_tai (f g : Field) (n : Nat) : (s.cntPair f g n).tai = s.tai := (rfl)
@[simp] theorem State.cntPair_mono (f g : Field) (n : Nat) : (s.cntPair f g n).mono = s.mono := (rfl)
@[simp] theorem State.cntPair_rtc (f g : Field) (n : Nat) : (s.cntPair f g n).rtc = s.rtc := (rfl)
@[simp] theorem State.cntPair_free (f g : Field) (n : Nat) : (s.cntPair f g n).free = s.free := (rfl)
@[simp] theorem State.cntPair_loaded (f g : Field) (n : Nat) : (s.cntPair f g n).loaded = s.loaded := (rfl)
@[simp] theorem State.cntPair_nor (f g : Field) (n : Nat) : (s.cntPair f g n).nor = s.nor := (rfl)
@[simp] theorem State.cntPair_dram (f g : Field) (n : Nat) : (s.cntPair f g n).dram = s.dram := (rfl)
@[simp] theorem State.cntPair_boot (f g : Field) (n : Nat) : (s.cntPair f g n).boot = s.boot := (rfl)
@[simp] theorem State.cntPair_gate (f g : Field) (n : Nat) : (s.cntPair f g n).gate = s.gate := (rfl)
@[simp] theorem State.cntPair_fab (f g : Field) (n : Nat) : (s.cntPair f g n).fab = s.fab := (rfl)
@[simp] theorem State.cntPair_log (f g : Field) (n : Nat) : (s.cntPair f g n).log = s.log := (rfl)
@[simp] theorem State.cntPair_tns (f g : Field) (n : Nat) : (s.cntPair f g n).tns = s.tns := (rfl)
@[simp] theorem State.cntPair_ports (f g : Field) (n : Nat) : (s.cntPair f g n).ports = s.ports := (rfl)
@[simp] theorem State.cntPair_red (f g : Field) (n : Nat) : (s.cntPair f g n).red = s.red := (rfl)
@[simp] theorem State.cntPair_ccd (f g : Field) (n : Nat) : (s.cntPair f g n).ccd = s.ccd := (rfl)
@[simp] theorem State.cntPair_sch (f g : Field) (n : Nat) : (s.cntPair f g n).sch = s.sch := (rfl)
@[simp] theorem State.cntPair_ing (f g : Field) (n : Nat) : (s.cntPair f g n).ing = s.ing := (rfl)
@[simp] theorem State.cntPair_ana (f g : Field) (n : Nat) : (s.cntPair f g n).ana = s.ana := (rfl)
@[simp] theorem State.cntPair_pub (f g : Field) (n : Nat) : (s.cntPair f g n).pub = s.pub := (rfl)
@[simp] theorem State.cntPair_cap (f g : Field) (n : Nat) : (s.cntPair f g n).cap = s.cap := (rfl)
@[simp] theorem State.cntPair_els (f g : Field) (n : Nat) : (s.cntPair f g n).els = s.els := (rfl)
@[simp] theorem State.cntPair_key (f g : Field) (n : Nat) : (s.cntPair f g n).key = s.key := (rfl)
@[simp] theorem State.cntPair_fwu (f g : Field) (n : Nat) : (s.cntPair f g n).fwu = s.fwu := (rfl)
@[simp] theorem State.cntPair_acq (f g : Field) (n : Nat) : (s.cntPair f g n).acq = s.acq := (rfl)
@[simp] theorem State.cntPair_phs (f g : Field) (n : Nat) : (s.cntPair f g n).phs = s.phs := (rfl)
@[simp] theorem State.cntPair_qty (f g : Field) (n : Nat) : (s.cntPair f g n).qty = s.qty := (rfl)

/-! ### tick -/

@[simp] theorem State.tick_pending : (s.tick).pending = s.pending := by cases s; rfl
@[simp] theorem State.tick_regs : (s.tick).regs = s.regs := by cases s; rfl
@[simp] theorem State.tick_bufs : (s.tick).bufs = s.bufs := by cases s; rfl
@[simp] theorem State.tick_pend : (s.tick).pend = s.pend := by cases s; rfl
@[simp] theorem State.tick_free : (s.tick).free = s.free := by cases s; rfl
@[simp] theorem State.tick_loaded : (s.tick).loaded = s.loaded := by cases s; rfl
@[simp] theorem State.tick_nor : (s.tick).nor = s.nor := by cases s; rfl
@[simp] theorem State.tick_dram : (s.tick).dram = s.dram := by cases s; rfl
@[simp] theorem State.tick_boot : (s.tick).boot = s.boot := by cases s; rfl
@[simp] theorem State.tick_gate : (s.tick).gate = s.gate := by cases s; rfl
@[simp] theorem State.tick_fab : (s.tick).fab = s.fab := by cases s; rfl
@[simp] theorem State.tick_log : (s.tick).log = s.log := by cases s; rfl
@[simp] theorem State.tick_tns : (s.tick).tns = s.tns := by cases s; rfl
@[simp] theorem State.tick_ports : (s.tick).ports = s.ports := by cases s; rfl
@[simp] theorem State.tick_red : (s.tick).red = s.red := by cases s; rfl
@[simp] theorem State.tick_ccd : (s.tick).ccd = s.ccd := by cases s; rfl
@[simp] theorem State.tick_sch : (s.tick).sch = s.sch := by cases s; rfl
@[simp] theorem State.tick_ing : (s.tick).ing = s.ing := by cases s; rfl
@[simp] theorem State.tick_ana : (s.tick).ana = s.ana := by cases s; rfl
@[simp] theorem State.tick_pub : (s.tick).pub = s.pub := by cases s; rfl
@[simp] theorem State.tick_cap : (s.tick).cap = s.cap := by cases s; rfl
@[simp] theorem State.tick_els : (s.tick).els = s.els := by cases s; rfl
@[simp] theorem State.tick_key : (s.tick).key = s.key := by cases s; rfl
@[simp] theorem State.tick_fwu : (s.tick).fwu = s.fwu := by cases s; rfl
@[simp] theorem State.tick_acq : (s.tick).acq = s.acq := by cases s; rfl
@[simp] theorem State.tick_phs : (s.tick).phs = s.phs := by cases s; rfl
@[simp] theorem State.tick_qty : (s.tick).qty = s.qty := by cases s; rfl
@[simp] theorem State.tick_rd (g : Field) : (s.tick).rd g = s.rd g := by simp only [State.rd, State.tick_regs]
@[simp] theorem State.tick_rdBuf (g : Field) : (s.tick).rdBuf g = s.rdBuf g := by simp only [State.rdBuf, State.tick_bufs, State.tick_rd]

/-! ### ticks -/

@[simp] theorem State.ticks_pending (n : Nat) : (s.ticks n).pending = s.pending := by cases s; rfl
@[simp] theorem State.ticks_regs (n : Nat) : (s.ticks n).regs = s.regs := by cases s; rfl
@[simp] theorem State.ticks_bufs (n : Nat) : (s.ticks n).bufs = s.bufs := by cases s; rfl
@[simp] theorem State.ticks_pend (n : Nat) : (s.ticks n).pend = s.pend := by cases s; rfl
@[simp] theorem State.ticks_free (n : Nat) : (s.ticks n).free = s.free := by cases s; rfl
@[simp] theorem State.ticks_loaded (n : Nat) : (s.ticks n).loaded = s.loaded := by cases s; rfl
@[simp] theorem State.ticks_nor (n : Nat) : (s.ticks n).nor = s.nor := by cases s; rfl
@[simp] theorem State.ticks_dram (n : Nat) : (s.ticks n).dram = s.dram := by cases s; rfl
@[simp] theorem State.ticks_boot (n : Nat) : (s.ticks n).boot = s.boot := by cases s; rfl
@[simp] theorem State.ticks_gate (n : Nat) : (s.ticks n).gate = s.gate := by cases s; rfl
@[simp] theorem State.ticks_fab (n : Nat) : (s.ticks n).fab = s.fab := by cases s; rfl
@[simp] theorem State.ticks_log (n : Nat) : (s.ticks n).log = s.log := by cases s; rfl
@[simp] theorem State.ticks_tns (n : Nat) : (s.ticks n).tns = s.tns := by cases s; rfl
@[simp] theorem State.ticks_ports (n : Nat) : (s.ticks n).ports = s.ports := by cases s; rfl
@[simp] theorem State.ticks_red (n : Nat) : (s.ticks n).red = s.red := by cases s; rfl
@[simp] theorem State.ticks_ccd (n : Nat) : (s.ticks n).ccd = s.ccd := by cases s; rfl
@[simp] theorem State.ticks_sch (n : Nat) : (s.ticks n).sch = s.sch := by cases s; rfl
@[simp] theorem State.ticks_ing (n : Nat) : (s.ticks n).ing = s.ing := by cases s; rfl
@[simp] theorem State.ticks_ana (n : Nat) : (s.ticks n).ana = s.ana := by cases s; rfl
@[simp] theorem State.ticks_pub (n : Nat) : (s.ticks n).pub = s.pub := by cases s; rfl
@[simp] theorem State.ticks_cap (n : Nat) : (s.ticks n).cap = s.cap := by cases s; rfl
@[simp] theorem State.ticks_els (n : Nat) : (s.ticks n).els = s.els := by cases s; rfl
@[simp] theorem State.ticks_key (n : Nat) : (s.ticks n).key = s.key := by cases s; rfl
@[simp] theorem State.ticks_fwu (n : Nat) : (s.ticks n).fwu = s.fwu := by cases s; rfl
@[simp] theorem State.ticks_acq (n : Nat) : (s.ticks n).acq = s.acq := by cases s; rfl
@[simp] theorem State.ticks_phs (n : Nat) : (s.ticks n).phs = s.phs := by cases s; rfl
@[simp] theorem State.ticks_qty (n : Nat) : (s.ticks n).qty = s.qty := by cases s; rfl
@[simp] theorem State.ticks_rd (n : Nat) (g : Field) : (s.ticks n).rd g = s.rd g := by simp only [State.rd, State.ticks_regs]
@[simp] theorem State.ticks_rdBuf (n : Nat) (g : Field) : (s.ticks n).rdBuf g = s.rdBuf g := by simp only [State.rdBuf, State.ticks_bufs, State.ticks_rd]

/-! ### dark -/

@[simp] theorem State.dark_pending (d : Nat) : (s.dark d).pending = s.pending := by cases s; rfl
@[simp] theorem State.dark_regs (d : Nat) : (s.dark d).regs = s.regs := by cases s; rfl
@[simp] theorem State.dark_bufs (d : Nat) : (s.dark d).bufs = s.bufs := by cases s; rfl
@[simp] theorem State.dark_pend (d : Nat) : (s.dark d).pend = s.pend := by cases s; rfl
@[simp] theorem State.dark_tai (d : Nat) : (s.dark d).tai = s.tai := by cases s; rfl
@[simp] theorem State.dark_free (d : Nat) : (s.dark d).free = s.free := by cases s; rfl
@[simp] theorem State.dark_loaded (d : Nat) : (s.dark d).loaded = s.loaded := by cases s; rfl
@[simp] theorem State.dark_nor (d : Nat) : (s.dark d).nor = s.nor := by cases s; rfl
@[simp] theorem State.dark_dram (d : Nat) : (s.dark d).dram = s.dram := by cases s; rfl
@[simp] theorem State.dark_boot (d : Nat) : (s.dark d).boot = s.boot := by cases s; rfl
@[simp] theorem State.dark_gate (d : Nat) : (s.dark d).gate = s.gate := by cases s; rfl
@[simp] theorem State.dark_fab (d : Nat) : (s.dark d).fab = s.fab := by cases s; rfl
@[simp] theorem State.dark_log (d : Nat) : (s.dark d).log = s.log := by cases s; rfl
@[simp] theorem State.dark_tns (d : Nat) : (s.dark d).tns = s.tns := by cases s; rfl
@[simp] theorem State.dark_ports (d : Nat) : (s.dark d).ports = s.ports := by cases s; rfl
@[simp] theorem State.dark_red (d : Nat) : (s.dark d).red = s.red := by cases s; rfl
@[simp] theorem State.dark_ccd (d : Nat) : (s.dark d).ccd = s.ccd := by cases s; rfl
@[simp] theorem State.dark_sch (d : Nat) : (s.dark d).sch = s.sch := by cases s; rfl
@[simp] theorem State.dark_ing (d : Nat) : (s.dark d).ing = s.ing := by cases s; rfl
@[simp] theorem State.dark_ana (d : Nat) : (s.dark d).ana = s.ana := by cases s; rfl
@[simp] theorem State.dark_pub (d : Nat) : (s.dark d).pub = s.pub := by cases s; rfl
@[simp] theorem State.dark_cap (d : Nat) : (s.dark d).cap = s.cap := by cases s; rfl
@[simp] theorem State.dark_els (d : Nat) : (s.dark d).els = s.els := by cases s; rfl
@[simp] theorem State.dark_key (d : Nat) : (s.dark d).key = s.key := by cases s; rfl
@[simp] theorem State.dark_fwu (d : Nat) : (s.dark d).fwu = s.fwu := by cases s; rfl
@[simp] theorem State.dark_acq (d : Nat) : (s.dark d).acq = s.acq := by cases s; rfl
@[simp] theorem State.dark_phs (d : Nat) : (s.dark d).phs = s.phs := by cases s; rfl
@[simp] theorem State.dark_qty (d : Nat) : (s.dark d).qty = s.qty := by cases s; rfl
@[simp] theorem State.dark_rd (d : Nat) (g : Field) : (s.dark d).rd g = s.rd g := by simp only [State.rd, State.dark_regs]
@[simp] theorem State.dark_rdBuf (d : Nat) (g : Field) : (s.dark d).rdBuf g = s.rdBuf g := by simp only [State.rdBuf, State.dark_bufs, State.dark_rd]

/-! ### advanceTo -/

@[simp] theorem State.advanceTo_pending (x : Nat) : (s.advanceTo x).pending = s.pending := by simp only [State.advanceTo]; (repeat' split) <;> first | exact s.ticks_pending _ | rfl
@[simp] theorem State.advanceTo_regs (x : Nat) : (s.advanceTo x).regs = s.regs := by simp only [State.advanceTo]; (repeat' split) <;> first | exact s.ticks_regs _ | rfl
@[simp] theorem State.advanceTo_bufs (x : Nat) : (s.advanceTo x).bufs = s.bufs := by simp only [State.advanceTo]; (repeat' split) <;> first | exact s.ticks_bufs _ | rfl
@[simp] theorem State.advanceTo_pend (x : Nat) : (s.advanceTo x).pend = s.pend := by simp only [State.advanceTo]; (repeat' split) <;> first | exact s.ticks_pend _ | rfl
@[simp] theorem State.advanceTo_free (x : Nat) : (s.advanceTo x).free = s.free := by simp only [State.advanceTo]; (repeat' split) <;> first | exact s.ticks_free _ | rfl
@[simp] theorem State.advanceTo_loaded (x : Nat) : (s.advanceTo x).loaded = s.loaded := by simp only [State.advanceTo]; (repeat' split) <;> first | exact s.ticks_loaded _ | rfl
@[simp] theorem State.advanceTo_nor (x : Nat) : (s.advanceTo x).nor = s.nor := by simp only [State.advanceTo]; (repeat' split) <;> first | exact s.ticks_nor _ | rfl
@[simp] theorem State.advanceTo_dram (x : Nat) : (s.advanceTo x).dram = s.dram := by simp only [State.advanceTo]; (repeat' split) <;> first | exact s.ticks_dram _ | rfl
@[simp] theorem State.advanceTo_boot (x : Nat) : (s.advanceTo x).boot = s.boot := by simp only [State.advanceTo]; (repeat' split) <;> first | exact s.ticks_boot _ | rfl
@[simp] theorem State.advanceTo_gate (x : Nat) : (s.advanceTo x).gate = s.gate := by simp only [State.advanceTo]; (repeat' split) <;> first | exact s.ticks_gate _ | rfl
@[simp] theorem State.advanceTo_fab (x : Nat) : (s.advanceTo x).fab = s.fab := by simp only [State.advanceTo]; (repeat' split) <;> first | exact s.ticks_fab _ | rfl
@[simp] theorem State.advanceTo_log (x : Nat) : (s.advanceTo x).log = s.log := by simp only [State.advanceTo]; (repeat' split) <;> first | exact s.ticks_log _ | rfl
@[simp] theorem State.advanceTo_tns (x : Nat) : (s.advanceTo x).tns = s.tns := by simp only [State.advanceTo]; (repeat' split) <;> first | exact s.ticks_tns _ | rfl
@[simp] theorem State.advanceTo_ports (x : Nat) : (s.advanceTo x).ports = s.ports := by simp only [State.advanceTo]; (repeat' split) <;> first | exact s.ticks_ports _ | rfl
@[simp] theorem State.advanceTo_red (x : Nat) : (s.advanceTo x).red = s.red := by simp only [State.advanceTo]; (repeat' split) <;> first | exact s.ticks_red _ | rfl
@[simp] theorem State.advanceTo_ccd (x : Nat) : (s.advanceTo x).ccd = s.ccd := by simp only [State.advanceTo]; (repeat' split) <;> first | exact s.ticks_ccd _ | rfl
@[simp] theorem State.advanceTo_sch (x : Nat) : (s.advanceTo x).sch = s.sch := by simp only [State.advanceTo]; (repeat' split) <;> first | exact s.ticks_sch _ | rfl
@[simp] theorem State.advanceTo_ing (x : Nat) : (s.advanceTo x).ing = s.ing := by simp only [State.advanceTo]; (repeat' split) <;> first | exact s.ticks_ing _ | rfl
@[simp] theorem State.advanceTo_ana (x : Nat) : (s.advanceTo x).ana = s.ana := by simp only [State.advanceTo]; (repeat' split) <;> first | exact s.ticks_ana _ | rfl
@[simp] theorem State.advanceTo_pub (x : Nat) : (s.advanceTo x).pub = s.pub := by simp only [State.advanceTo]; (repeat' split) <;> first | exact s.ticks_pub _ | rfl
@[simp] theorem State.advanceTo_cap (x : Nat) : (s.advanceTo x).cap = s.cap := by simp only [State.advanceTo]; (repeat' split) <;> first | exact s.ticks_cap _ | rfl
@[simp] theorem State.advanceTo_els (x : Nat) : (s.advanceTo x).els = s.els := by simp only [State.advanceTo]; (repeat' split) <;> first | exact s.ticks_els _ | rfl
@[simp] theorem State.advanceTo_key (x : Nat) : (s.advanceTo x).key = s.key := by simp only [State.advanceTo]; (repeat' split) <;> first | exact s.ticks_key _ | rfl
@[simp] theorem State.advanceTo_fwu (x : Nat) : (s.advanceTo x).fwu = s.fwu := by simp only [State.advanceTo]; (repeat' split) <;> first | exact s.ticks_fwu _ | rfl
@[simp] theorem State.advanceTo_acq (x : Nat) : (s.advanceTo x).acq = s.acq := by simp only [State.advanceTo]; (repeat' split) <;> first | exact s.ticks_acq _ | rfl
@[simp] theorem State.advanceTo_phs (x : Nat) : (s.advanceTo x).phs = s.phs := by simp only [State.advanceTo]; (repeat' split) <;> first | exact s.ticks_phs _ | rfl
@[simp] theorem State.advanceTo_qty (x : Nat) : (s.advanceTo x).qty = s.qty := by simp only [State.advanceTo]; (repeat' split) <;> first | exact s.ticks_qty _ | rfl
@[simp] theorem State.advanceTo_rd (x : Nat) (g : Field) : (s.advanceTo x).rd g = s.rd g := by simp only [State.rd, State.advanceTo_regs]
@[simp] theorem State.advanceTo_rdBuf (x : Nat) (g : Field) : (s.advanceTo x).rdBuf g = s.rdBuf g := by simp only [State.rdBuf, State.advanceTo_bufs, State.advanceTo_rd]

/-! ### waitUntil -/

@[simp] theorem State.waitUntil_pending (x : Nat) : (s.waitUntil x).pending = s.pending := by simp only [State.waitUntil]; (repeat' split) <;> first | exact s.ticks_pending _ | rfl
@[simp] theorem State.waitUntil_regs (x : Nat) : (s.waitUntil x).regs = s.regs := by simp only [State.waitUntil]; (repeat' split) <;> first | exact s.ticks_regs _ | rfl
@[simp] theorem State.waitUntil_bufs (x : Nat) : (s.waitUntil x).bufs = s.bufs := by simp only [State.waitUntil]; (repeat' split) <;> first | exact s.ticks_bufs _ | rfl
@[simp] theorem State.waitUntil_pend (x : Nat) : (s.waitUntil x).pend = s.pend := by simp only [State.waitUntil]; (repeat' split) <;> first | exact s.ticks_pend _ | rfl
@[simp] theorem State.waitUntil_free (x : Nat) : (s.waitUntil x).free = s.free := by simp only [State.waitUntil]; (repeat' split) <;> first | exact s.ticks_free _ | rfl
@[simp] theorem State.waitUntil_loaded (x : Nat) : (s.waitUntil x).loaded = s.loaded := by simp only [State.waitUntil]; (repeat' split) <;> first | exact s.ticks_loaded _ | rfl
@[simp] theorem State.waitUntil_nor (x : Nat) : (s.waitUntil x).nor = s.nor := by simp only [State.waitUntil]; (repeat' split) <;> first | exact s.ticks_nor _ | rfl
@[simp] theorem State.waitUntil_dram (x : Nat) : (s.waitUntil x).dram = s.dram := by simp only [State.waitUntil]; (repeat' split) <;> first | exact s.ticks_dram _ | rfl
@[simp] theorem State.waitUntil_boot (x : Nat) : (s.waitUntil x).boot = s.boot := by simp only [State.waitUntil]; (repeat' split) <;> first | exact s.ticks_boot _ | rfl
@[simp] theorem State.waitUntil_gate (x : Nat) : (s.waitUntil x).gate = s.gate := by simp only [State.waitUntil]; (repeat' split) <;> first | exact s.ticks_gate _ | rfl
@[simp] theorem State.waitUntil_fab (x : Nat) : (s.waitUntil x).fab = s.fab := by simp only [State.waitUntil]; (repeat' split) <;> first | exact s.ticks_fab _ | rfl
@[simp] theorem State.waitUntil_log (x : Nat) : (s.waitUntil x).log = s.log := by simp only [State.waitUntil]; (repeat' split) <;> first | exact s.ticks_log _ | rfl
@[simp] theorem State.waitUntil_tns (x : Nat) : (s.waitUntil x).tns = s.tns := by simp only [State.waitUntil]; (repeat' split) <;> first | exact s.ticks_tns _ | rfl
@[simp] theorem State.waitUntil_ports (x : Nat) : (s.waitUntil x).ports = s.ports := by simp only [State.waitUntil]; (repeat' split) <;> first | exact s.ticks_ports _ | rfl
@[simp] theorem State.waitUntil_red (x : Nat) : (s.waitUntil x).red = s.red := by simp only [State.waitUntil]; (repeat' split) <;> first | exact s.ticks_red _ | rfl
@[simp] theorem State.waitUntil_ccd (x : Nat) : (s.waitUntil x).ccd = s.ccd := by simp only [State.waitUntil]; (repeat' split) <;> first | exact s.ticks_ccd _ | rfl
@[simp] theorem State.waitUntil_sch (x : Nat) : (s.waitUntil x).sch = s.sch := by simp only [State.waitUntil]; (repeat' split) <;> first | exact s.ticks_sch _ | rfl
@[simp] theorem State.waitUntil_ing (x : Nat) : (s.waitUntil x).ing = s.ing := by simp only [State.waitUntil]; (repeat' split) <;> first | exact s.ticks_ing _ | rfl
@[simp] theorem State.waitUntil_ana (x : Nat) : (s.waitUntil x).ana = s.ana := by simp only [State.waitUntil]; (repeat' split) <;> first | exact s.ticks_ana _ | rfl
@[simp] theorem State.waitUntil_pub (x : Nat) : (s.waitUntil x).pub = s.pub := by simp only [State.waitUntil]; (repeat' split) <;> first | exact s.ticks_pub _ | rfl
@[simp] theorem State.waitUntil_cap (x : Nat) : (s.waitUntil x).cap = s.cap := by simp only [State.waitUntil]; (repeat' split) <;> first | exact s.ticks_cap _ | rfl
@[simp] theorem State.waitUntil_els (x : Nat) : (s.waitUntil x).els = s.els := by simp only [State.waitUntil]; (repeat' split) <;> first | exact s.ticks_els _ | rfl
@[simp] theorem State.waitUntil_key (x : Nat) : (s.waitUntil x).key = s.key := by simp only [State.waitUntil]; (repeat' split) <;> first | exact s.ticks_key _ | rfl
@[simp] theorem State.waitUntil_fwu (x : Nat) : (s.waitUntil x).fwu = s.fwu := by simp only [State.waitUntil]; (repeat' split) <;> first | exact s.ticks_fwu _ | rfl
@[simp] theorem State.waitUntil_acq (x : Nat) : (s.waitUntil x).acq = s.acq := by simp only [State.waitUntil]; (repeat' split) <;> first | exact s.ticks_acq _ | rfl
@[simp] theorem State.waitUntil_phs (x : Nat) : (s.waitUntil x).phs = s.phs := by simp only [State.waitUntil]; (repeat' split) <;> first | exact s.ticks_phs _ | rfl
@[simp] theorem State.waitUntil_qty (x : Nat) : (s.waitUntil x).qty = s.qty := by simp only [State.waitUntil]; (repeat' split) <;> first | exact s.ticks_qty _ | rfl
@[simp] theorem State.waitUntil_rd (x : Nat) (g : Field) : (s.waitUntil x).rd g = s.rd g := by simp only [State.rd, State.waitUntil_regs]
@[simp] theorem State.waitUntil_rdBuf (x : Nat) (g : Field) : (s.waitUntil x).rdBuf g = s.rdBuf g := by simp only [State.rdBuf, State.waitUntil_bufs, State.waitUntil_rd]

/-! ### ev -/

@[simp] theorem State.ev_pending (c p q r u : Nat) : (s.ev c p q r u).pending = s.pending := (rfl)
@[simp] theorem State.ev_regs (c p q r u : Nat) : (s.ev c p q r u).regs = s.regs := (rfl)
@[simp] theorem State.ev_bufs (c p q r u : Nat) : (s.ev c p q r u).bufs = s.bufs := (rfl)
@[simp] theorem State.ev_pend (c p q r u : Nat) : (s.ev c p q r u).pend = s.pend := (rfl)
@[simp] theorem State.ev_tai (c p q r u : Nat) : (s.ev c p q r u).tai = s.tai := (rfl)
@[simp] theorem State.ev_mono (c p q r u : Nat) : (s.ev c p q r u).mono = s.mono := (rfl)
@[simp] theorem State.ev_rtc (c p q r u : Nat) : (s.ev c p q r u).rtc = s.rtc := (rfl)
@[simp] theorem State.ev_free (c p q r u : Nat) : (s.ev c p q r u).free = s.free := (rfl)
@[simp] theorem State.ev_loaded (c p q r u : Nat) : (s.ev c p q r u).loaded = s.loaded := (rfl)
@[simp] theorem State.ev_nor (c p q r u : Nat) : (s.ev c p q r u).nor = s.nor := (rfl)
@[simp] theorem State.ev_dram (c p q r u : Nat) : (s.ev c p q r u).dram = s.dram := (rfl)
@[simp] theorem State.ev_boot (c p q r u : Nat) : (s.ev c p q r u).boot = s.boot := (rfl)
@[simp] theorem State.ev_gate (c p q r u : Nat) : (s.ev c p q r u).gate = s.gate := (rfl)
@[simp] theorem State.ev_fab (c p q r u : Nat) : (s.ev c p q r u).fab = s.fab := (rfl)
@[simp] theorem State.ev_tns (c p q r u : Nat) : (s.ev c p q r u).tns = s.tns := (rfl)
@[simp] theorem State.ev_ports (c p q r u : Nat) : (s.ev c p q r u).ports = s.ports := (rfl)
@[simp] theorem State.ev_red (c p q r u : Nat) : (s.ev c p q r u).red = s.red := (rfl)
@[simp] theorem State.ev_ccd (c p q r u : Nat) : (s.ev c p q r u).ccd = s.ccd := (rfl)
@[simp] theorem State.ev_sch (c p q r u : Nat) : (s.ev c p q r u).sch = s.sch := (rfl)
@[simp] theorem State.ev_ing (c p q r u : Nat) : (s.ev c p q r u).ing = s.ing := (rfl)
@[simp] theorem State.ev_ana (c p q r u : Nat) : (s.ev c p q r u).ana = s.ana := (rfl)
@[simp] theorem State.ev_pub (c p q r u : Nat) : (s.ev c p q r u).pub = s.pub := (rfl)
@[simp] theorem State.ev_cap (c p q r u : Nat) : (s.ev c p q r u).cap = s.cap := (rfl)
@[simp] theorem State.ev_els (c p q r u : Nat) : (s.ev c p q r u).els = s.els := (rfl)
@[simp] theorem State.ev_key (c p q r u : Nat) : (s.ev c p q r u).key = s.key := (rfl)
@[simp] theorem State.ev_fwu (c p q r u : Nat) : (s.ev c p q r u).fwu = s.fwu := (rfl)
@[simp] theorem State.ev_acq (c p q r u : Nat) : (s.ev c p q r u).acq = s.acq := (rfl)
@[simp] theorem State.ev_phs (c p q r u : Nat) : (s.ev c p q r u).phs = s.phs := (rfl)
@[simp] theorem State.ev_qty (c p q r u : Nat) : (s.ev c p q r u).qty = s.qty := (rfl)
@[simp] theorem State.ev_rd (c p q r u : Nat) (g : Field) : (s.ev c p q r u).rd g = s.rd g := by simp only [State.rd, State.ev_regs]
@[simp] theorem State.ev_rdBuf (c p q r u : Nat) (g : Field) : (s.ev c p q r u).rdBuf g = s.rdBuf g := by simp only [State.rdBuf, State.ev_bufs, State.ev_rd]

/-! ### respond -/

@[simp] theorem State.respond_pending (m : Master) (r : Resp) : (s.respond m r).pending = s.pending := by cases m <;> rfl
@[simp] theorem State.respond_regs (m : Master) (r : Resp) : (s.respond m r).regs = s.regs := by cases m <;> rfl
@[simp] theorem State.respond_bufs (m : Master) (r : Resp) : (s.respond m r).bufs = s.bufs := by cases m <;> rfl
@[simp] theorem State.respond_pend (m : Master) (r : Resp) : (s.respond m r).pend = s.pend := by cases m <;> rfl
@[simp] theorem State.respond_tai (m : Master) (r : Resp) : (s.respond m r).tai = s.tai := by cases m <;> rfl
@[simp] theorem State.respond_mono (m : Master) (r : Resp) : (s.respond m r).mono = s.mono := by cases m <;> rfl
@[simp] theorem State.respond_rtc (m : Master) (r : Resp) : (s.respond m r).rtc = s.rtc := by cases m <;> rfl
@[simp] theorem State.respond_free (m : Master) (r : Resp) : (s.respond m r).free = s.free := by cases m <;> rfl
@[simp] theorem State.respond_loaded (m : Master) (r : Resp) : (s.respond m r).loaded = s.loaded := by cases m <;> rfl
@[simp] theorem State.respond_nor (m : Master) (r : Resp) : (s.respond m r).nor = s.nor := by cases m <;> rfl
@[simp] theorem State.respond_dram (m : Master) (r : Resp) : (s.respond m r).dram = s.dram := by cases m <;> rfl
@[simp] theorem State.respond_boot (m : Master) (r : Resp) : (s.respond m r).boot = s.boot := by cases m <;> rfl
@[simp] theorem State.respond_gate (m : Master) (r : Resp) : (s.respond m r).gate = s.gate := by cases m <;> rfl
@[simp] theorem State.respond_log (m : Master) (r : Resp) : (s.respond m r).log = s.log := by cases m <;> rfl
@[simp] theorem State.respond_tns (m : Master) (r : Resp) : (s.respond m r).tns = s.tns := by cases m <;> rfl
@[simp] theorem State.respond_ports (m : Master) (r : Resp) : (s.respond m r).ports = s.ports := by cases m <;> rfl
@[simp] theorem State.respond_red (m : Master) (r : Resp) : (s.respond m r).red = s.red := by cases m <;> rfl
@[simp] theorem State.respond_ccd (m : Master) (r : Resp) : (s.respond m r).ccd = s.ccd := by cases m <;> rfl
@[simp] theorem State.respond_sch (m : Master) (r : Resp) : (s.respond m r).sch = s.sch := by cases m <;> rfl
@[simp] theorem State.respond_ing (m : Master) (r : Resp) : (s.respond m r).ing = s.ing := by cases m <;> rfl
@[simp] theorem State.respond_ana (m : Master) (r : Resp) : (s.respond m r).ana = s.ana := by cases m <;> rfl
@[simp] theorem State.respond_pub (m : Master) (r : Resp) : (s.respond m r).pub = s.pub := by cases m <;> rfl
@[simp] theorem State.respond_cap (m : Master) (r : Resp) : (s.respond m r).cap = s.cap := by cases m <;> rfl
@[simp] theorem State.respond_els (m : Master) (r : Resp) : (s.respond m r).els = s.els := by cases m <;> rfl
@[simp] theorem State.respond_key (m : Master) (r : Resp) : (s.respond m r).key = s.key := by cases m <;> rfl
@[simp] theorem State.respond_fwu (m : Master) (r : Resp) : (s.respond m r).fwu = s.fwu := by cases m <;> rfl
@[simp] theorem State.respond_acq (m : Master) (r : Resp) : (s.respond m r).acq = s.acq := by cases m <;> rfl
@[simp] theorem State.respond_phs (m : Master) (r : Resp) : (s.respond m r).phs = s.phs := by cases m <;> rfl
@[simp] theorem State.respond_qty (m : Master) (r : Resp) : (s.respond m r).qty = s.qty := by cases m <;> rfl
@[simp] theorem State.respond_rd (m : Master) (r : Resp) (g : Field) : (s.respond m r).rd g = s.rd g := by simp only [State.rd, State.respond_regs]
@[simp] theorem State.respond_rdBuf (m : Master) (r : Resp) (g : Field) : (s.respond m r).rdBuf g = s.rdBuf g := by simp only [State.rdBuf, State.respond_bufs, State.respond_rd]

/-! ### gateOpen -/

@[simp] theorem State.gateOpen_pending (u : Nat) : (s.gateOpen u).pending = s.pending := (rfl)
@[simp] theorem State.gateOpen_regs (u : Nat) : (s.gateOpen u).regs = s.regs := (rfl)
@[simp] theorem State.gateOpen_bufs (u : Nat) : (s.gateOpen u).bufs = s.bufs := (rfl)
@[simp] theorem State.gateOpen_pend (u : Nat) : (s.gateOpen u).pend = s.pend := (rfl)
@[simp] theorem State.gateOpen_tai (u : Nat) : (s.gateOpen u).tai = s.tai := (rfl)
@[simp] theorem State.gateOpen_mono (u : Nat) : (s.gateOpen u).mono = s.mono := (rfl)
@[simp] theorem State.gateOpen_rtc (u : Nat) : (s.gateOpen u).rtc = s.rtc := (rfl)
@[simp] theorem State.gateOpen_free (u : Nat) : (s.gateOpen u).free = s.free := (rfl)
@[simp] theorem State.gateOpen_loaded (u : Nat) : (s.gateOpen u).loaded = s.loaded := (rfl)
@[simp] theorem State.gateOpen_nor (u : Nat) : (s.gateOpen u).nor = s.nor := (rfl)
@[simp] theorem State.gateOpen_dram (u : Nat) : (s.gateOpen u).dram = s.dram := (rfl)
@[simp] theorem State.gateOpen_boot (u : Nat) : (s.gateOpen u).boot = s.boot := (rfl)
@[simp] theorem State.gateOpen_fab (u : Nat) : (s.gateOpen u).fab = s.fab := (rfl)
@[simp] theorem State.gateOpen_log (u : Nat) : (s.gateOpen u).log = s.log := (rfl)
@[simp] theorem State.gateOpen_tns (u : Nat) : (s.gateOpen u).tns = s.tns := (rfl)
@[simp] theorem State.gateOpen_ports (u : Nat) : (s.gateOpen u).ports = s.ports := (rfl)
@[simp] theorem State.gateOpen_red (u : Nat) : (s.gateOpen u).red = s.red := (rfl)
@[simp] theorem State.gateOpen_ccd (u : Nat) : (s.gateOpen u).ccd = s.ccd := (rfl)
@[simp] theorem State.gateOpen_sch (u : Nat) : (s.gateOpen u).sch = s.sch := (rfl)
@[simp] theorem State.gateOpen_ing (u : Nat) : (s.gateOpen u).ing = s.ing := (rfl)
@[simp] theorem State.gateOpen_ana (u : Nat) : (s.gateOpen u).ana = s.ana := (rfl)
@[simp] theorem State.gateOpen_pub (u : Nat) : (s.gateOpen u).pub = s.pub := (rfl)
@[simp] theorem State.gateOpen_cap (u : Nat) : (s.gateOpen u).cap = s.cap := (rfl)
@[simp] theorem State.gateOpen_els (u : Nat) : (s.gateOpen u).els = s.els := (rfl)
@[simp] theorem State.gateOpen_key (u : Nat) : (s.gateOpen u).key = s.key := (rfl)
@[simp] theorem State.gateOpen_fwu (u : Nat) : (s.gateOpen u).fwu = s.fwu := (rfl)
@[simp] theorem State.gateOpen_acq (u : Nat) : (s.gateOpen u).acq = s.acq := (rfl)
@[simp] theorem State.gateOpen_phs (u : Nat) : (s.gateOpen u).phs = s.phs := (rfl)
@[simp] theorem State.gateOpen_qty (u : Nat) : (s.gateOpen u).qty = s.qty := (rfl)
@[simp] theorem State.gateOpen_rd (u : Nat) (g : Field) : (s.gateOpen u).rd g = s.rd g := by simp only [State.rd, State.gateOpen_regs]
@[simp] theorem State.gateOpen_rdBuf (u : Nat) (g : Field) : (s.gateOpen u).rdBuf g = s.rdBuf g := by simp only [State.rdBuf, State.gateOpen_bufs, State.gateOpen_rd]

/-! ### hostGate -/

@[simp] theorem State.hostGate_pending (m : Master) : (s.hostGate m).pending = s.pending := by cases m <;> rfl
@[simp] theorem State.hostGate_regs (m : Master) : (s.hostGate m).regs = s.regs := by cases m <;> rfl
@[simp] theorem State.hostGate_bufs (m : Master) : (s.hostGate m).bufs = s.bufs := by cases m <;> rfl
@[simp] theorem State.hostGate_pend (m : Master) : (s.hostGate m).pend = s.pend := by cases m <;> rfl
@[simp] theorem State.hostGate_tai (m : Master) : (s.hostGate m).tai = s.tai := by cases m <;> rfl
@[simp] theorem State.hostGate_mono (m : Master) : (s.hostGate m).mono = s.mono := by cases m <;> rfl
@[simp] theorem State.hostGate_rtc (m : Master) : (s.hostGate m).rtc = s.rtc := by cases m <;> rfl
@[simp] theorem State.hostGate_free (m : Master) : (s.hostGate m).free = s.free := by cases m <;> rfl
@[simp] theorem State.hostGate_loaded (m : Master) : (s.hostGate m).loaded = s.loaded := by cases m <;> rfl
@[simp] theorem State.hostGate_nor (m : Master) : (s.hostGate m).nor = s.nor := by cases m <;> rfl
@[simp] theorem State.hostGate_dram (m : Master) : (s.hostGate m).dram = s.dram := by cases m <;> rfl
@[simp] theorem State.hostGate_boot (m : Master) : (s.hostGate m).boot = s.boot := by cases m <;> rfl
@[simp] theorem State.hostGate_fab (m : Master) : (s.hostGate m).fab = s.fab := by cases m <;> rfl
@[simp] theorem State.hostGate_log (m : Master) : (s.hostGate m).log = s.log := by cases m <;> rfl
@[simp] theorem State.hostGate_tns (m : Master) : (s.hostGate m).tns = s.tns := by cases m <;> rfl
@[simp] theorem State.hostGate_ports (m : Master) : (s.hostGate m).ports = s.ports := by cases m <;> rfl
@[simp] theorem State.hostGate_red (m : Master) : (s.hostGate m).red = s.red := by cases m <;> rfl
@[simp] theorem State.hostGate_ccd (m : Master) : (s.hostGate m).ccd = s.ccd := by cases m <;> rfl
@[simp] theorem State.hostGate_sch (m : Master) : (s.hostGate m).sch = s.sch := by cases m <;> rfl
@[simp] theorem State.hostGate_ing (m : Master) : (s.hostGate m).ing = s.ing := by cases m <;> rfl
@[simp] theorem State.hostGate_ana (m : Master) : (s.hostGate m).ana = s.ana := by cases m <;> rfl
@[simp] theorem State.hostGate_pub (m : Master) : (s.hostGate m).pub = s.pub := by cases m <;> rfl
@[simp] theorem State.hostGate_cap (m : Master) : (s.hostGate m).cap = s.cap := by cases m <;> rfl
@[simp] theorem State.hostGate_els (m : Master) : (s.hostGate m).els = s.els := by cases m <;> rfl
@[simp] theorem State.hostGate_key (m : Master) : (s.hostGate m).key = s.key := by cases m <;> rfl
@[simp] theorem State.hostGate_fwu (m : Master) : (s.hostGate m).fwu = s.fwu := by cases m <;> rfl
@[simp] theorem State.hostGate_acq (m : Master) : (s.hostGate m).acq = s.acq := by cases m <;> rfl
@[simp] theorem State.hostGate_phs (m : Master) : (s.hostGate m).phs = s.phs := by cases m <;> rfl
@[simp] theorem State.hostGate_qty (m : Master) : (s.hostGate m).qty = s.qty := by cases m <;> rfl
@[simp] theorem State.hostGate_rd (m : Master) (g : Field) : (s.hostGate m).rd g = s.rd g := by simp only [State.rd, State.hostGate_regs]
@[simp] theorem State.hostGate_rdBuf (m : Master) (g : Field) : (s.hostGate m).rdBuf g = s.rdBuf g := by simp only [State.rdBuf, State.hostGate_bufs, State.hostGate_rd]

/-! ### mark -/

@[simp] theorem State.mark_pending (d : Int) : (s.mark d).pending = s.pending := (rfl)
@[simp] theorem State.mark_regs (d : Int) : (s.mark d).regs = s.regs := (rfl)
@[simp] theorem State.mark_bufs (d : Int) : (s.mark d).bufs = s.bufs := (rfl)
@[simp] theorem State.mark_pend (d : Int) : (s.mark d).pend = s.pend := (rfl)
@[simp] theorem State.mark_tai (d : Int) : (s.mark d).tai = s.tai := (rfl)
@[simp] theorem State.mark_mono (d : Int) : (s.mark d).mono = s.mono := (rfl)
@[simp] theorem State.mark_rtc (d : Int) : (s.mark d).rtc = s.rtc := (rfl)
@[simp] theorem State.mark_free (d : Int) : (s.mark d).free = s.free := (rfl)
@[simp] theorem State.mark_loaded (d : Int) : (s.mark d).loaded = s.loaded := (rfl)
@[simp] theorem State.mark_nor (d : Int) : (s.mark d).nor = s.nor := (rfl)
@[simp] theorem State.mark_dram (d : Int) : (s.mark d).dram = s.dram := (rfl)
@[simp] theorem State.mark_boot (d : Int) : (s.mark d).boot = s.boot := (rfl)
@[simp] theorem State.mark_gate (d : Int) : (s.mark d).gate = s.gate := (rfl)
@[simp] theorem State.mark_fab (d : Int) : (s.mark d).fab = s.fab := (rfl)
@[simp] theorem State.mark_log (d : Int) : (s.mark d).log = s.log := (rfl)
@[simp] theorem State.mark_ports (d : Int) : (s.mark d).ports = s.ports := (rfl)
@[simp] theorem State.mark_red (d : Int) : (s.mark d).red = s.red := (rfl)
@[simp] theorem State.mark_ccd (d : Int) : (s.mark d).ccd = s.ccd := (rfl)
@[simp] theorem State.mark_sch (d : Int) : (s.mark d).sch = s.sch := (rfl)
@[simp] theorem State.mark_ing (d : Int) : (s.mark d).ing = s.ing := (rfl)
@[simp] theorem State.mark_ana (d : Int) : (s.mark d).ana = s.ana := (rfl)
@[simp] theorem State.mark_pub (d : Int) : (s.mark d).pub = s.pub := (rfl)
@[simp] theorem State.mark_cap (d : Int) : (s.mark d).cap = s.cap := (rfl)
@[simp] theorem State.mark_els (d : Int) : (s.mark d).els = s.els := (rfl)
@[simp] theorem State.mark_key (d : Int) : (s.mark d).key = s.key := (rfl)
@[simp] theorem State.mark_fwu (d : Int) : (s.mark d).fwu = s.fwu := (rfl)
@[simp] theorem State.mark_acq (d : Int) : (s.mark d).acq = s.acq := (rfl)
@[simp] theorem State.mark_phs (d : Int) : (s.mark d).phs = s.phs := (rfl)
@[simp] theorem State.mark_qty (d : Int) : (s.mark d).qty = s.qty := (rfl)
@[simp] theorem State.mark_rd (d : Int) (g : Field) : (s.mark d).rd g = s.rd g := by simp only [State.rd, State.mark_regs]
@[simp] theorem State.mark_rdBuf (d : Int) (g : Field) : (s.mark d).rdBuf g = s.rdBuf g := by simp only [State.rdBuf, State.mark_bufs, State.mark_rd]

/-! ### answer -/

@[simp] theorem State.answer_pending (m : Master) (w : List Nat) : (s.answer m w).pending = s.pending := by cases m <;> rfl
@[simp] theorem State.answer_regs (m : Master) (w : List Nat) : (s.answer m w).regs = s.regs := by cases m <;> rfl
@[simp] theorem State.answer_bufs (m : Master) (w : List Nat) : (s.answer m w).bufs = s.bufs := by cases m <;> rfl
@[simp] theorem State.answer_pend (m : Master) (w : List Nat) : (s.answer m w).pend = s.pend := by cases m <;> rfl
@[simp] theorem State.answer_tai (m : Master) (w : List Nat) : (s.answer m w).tai = s.tai := by cases m <;> rfl
@[simp] theorem State.answer_mono (m : Master) (w : List Nat) : (s.answer m w).mono = s.mono := by cases m <;> rfl
@[simp] theorem State.answer_rtc (m : Master) (w : List Nat) : (s.answer m w).rtc = s.rtc := by cases m <;> rfl
@[simp] theorem State.answer_free (m : Master) (w : List Nat) : (s.answer m w).free = s.free := by cases m <;> rfl
@[simp] theorem State.answer_loaded (m : Master) (w : List Nat) : (s.answer m w).loaded = s.loaded := by cases m <;> rfl
@[simp] theorem State.answer_nor (m : Master) (w : List Nat) : (s.answer m w).nor = s.nor := by cases m <;> rfl
@[simp] theorem State.answer_dram (m : Master) (w : List Nat) : (s.answer m w).dram = s.dram := by cases m <;> rfl
@[simp] theorem State.answer_boot (m : Master) (w : List Nat) : (s.answer m w).boot = s.boot := by cases m <;> rfl
@[simp] theorem State.answer_gate (m : Master) (w : List Nat) : (s.answer m w).gate = s.gate := by cases m <;> rfl
@[simp] theorem State.answer_log (m : Master) (w : List Nat) : (s.answer m w).log = s.log := by cases m <;> rfl
@[simp] theorem State.answer_tns (m : Master) (w : List Nat) : (s.answer m w).tns = s.tns := by cases m <;> rfl
@[simp] theorem State.answer_ports (m : Master) (w : List Nat) : (s.answer m w).ports = s.ports := by cases m <;> rfl
@[simp] theorem State.answer_red (m : Master) (w : List Nat) : (s.answer m w).red = s.red := by cases m <;> rfl
@[simp] theorem State.answer_ccd (m : Master) (w : List Nat) : (s.answer m w).ccd = s.ccd := by cases m <;> rfl
@[simp] theorem State.answer_sch (m : Master) (w : List Nat) : (s.answer m w).sch = s.sch := by cases m <;> rfl
@[simp] theorem State.answer_ing (m : Master) (w : List Nat) : (s.answer m w).ing = s.ing := by cases m <;> rfl
@[simp] theorem State.answer_ana (m : Master) (w : List Nat) : (s.answer m w).ana = s.ana := by cases m <;> rfl
@[simp] theorem State.answer_pub (m : Master) (w : List Nat) : (s.answer m w).pub = s.pub := by cases m <;> rfl
@[simp] theorem State.answer_cap (m : Master) (w : List Nat) : (s.answer m w).cap = s.cap := by cases m <;> rfl
@[simp] theorem State.answer_els (m : Master) (w : List Nat) : (s.answer m w).els = s.els := by cases m <;> rfl
@[simp] theorem State.answer_key (m : Master) (w : List Nat) : (s.answer m w).key = s.key := by cases m <;> rfl
@[simp] theorem State.answer_fwu (m : Master) (w : List Nat) : (s.answer m w).fwu = s.fwu := by cases m <;> rfl
@[simp] theorem State.answer_acq (m : Master) (w : List Nat) : (s.answer m w).acq = s.acq := by cases m <;> rfl
@[simp] theorem State.answer_phs (m : Master) (w : List Nat) : (s.answer m w).phs = s.phs := by cases m <;> rfl
@[simp] theorem State.answer_qty (m : Master) (w : List Nat) : (s.answer m w).qty = s.qty := by cases m <;> rfl
@[simp] theorem State.answer_rd (m : Master) (w : List Nat) (g : Field) : (s.answer m w).rd g = s.rd g := by simp only [State.rd, State.answer_regs]
@[simp] theorem State.answer_rdBuf (m : Master) (w : List Nat) (g : Field) : (s.answer m w).rdBuf g = s.rdBuf g := by simp only [State.rdBuf, State.answer_bufs, State.answer_rd]

/-! ### countWrite -/

@[simp] theorem State.countWrite_pending (m : Master) : (s.countWrite m).pending = s.pending := by cases m <;> rfl
@[simp] theorem State.countWrite_bufs (m : Master) : (s.countWrite m).bufs = s.bufs := by cases m <;> rfl
@[simp] theorem State.countWrite_pend (m : Master) : (s.countWrite m).pend = s.pend := by cases m <;> rfl
@[simp] theorem State.countWrite_tai (m : Master) : (s.countWrite m).tai = s.tai := by cases m <;> rfl
@[simp] theorem State.countWrite_mono (m : Master) : (s.countWrite m).mono = s.mono := by cases m <;> rfl
@[simp] theorem State.countWrite_rtc (m : Master) : (s.countWrite m).rtc = s.rtc := by cases m <;> rfl
@[simp] theorem State.countWrite_free (m : Master) : (s.countWrite m).free = s.free := by cases m <;> rfl
@[simp] theorem State.countWrite_loaded (m : Master) : (s.countWrite m).loaded = s.loaded := by cases m <;> rfl
@[simp] theorem State.countWrite_nor (m : Master) : (s.countWrite m).nor = s.nor := by cases m <;> rfl
@[simp] theorem State.countWrite_dram (m : Master) : (s.countWrite m).dram = s.dram := by cases m <;> rfl
@[simp] theorem State.countWrite_boot (m : Master) : (s.countWrite m).boot = s.boot := by cases m <;> rfl
@[simp] theorem State.countWrite_gate (m : Master) : (s.countWrite m).gate = s.gate := by cases m <;> rfl
@[simp] theorem State.countWrite_fab (m : Master) : (s.countWrite m).fab = s.fab := by cases m <;> rfl
@[simp] theorem State.countWrite_log (m : Master) : (s.countWrite m).log = s.log := by cases m <;> rfl
@[simp] theorem State.countWrite_tns (m : Master) : (s.countWrite m).tns = s.tns := by cases m <;> rfl
@[simp] theorem State.countWrite_ports (m : Master) : (s.countWrite m).ports = s.ports := by cases m <;> rfl
@[simp] theorem State.countWrite_red (m : Master) : (s.countWrite m).red = s.red := by cases m <;> rfl
@[simp] theorem State.countWrite_ccd (m : Master) : (s.countWrite m).ccd = s.ccd := by cases m <;> rfl
@[simp] theorem State.countWrite_sch (m : Master) : (s.countWrite m).sch = s.sch := by cases m <;> rfl
@[simp] theorem State.countWrite_ing (m : Master) : (s.countWrite m).ing = s.ing := by cases m <;> rfl
@[simp] theorem State.countWrite_ana (m : Master) : (s.countWrite m).ana = s.ana := by cases m <;> rfl
@[simp] theorem State.countWrite_pub (m : Master) : (s.countWrite m).pub = s.pub := by cases m <;> rfl
@[simp] theorem State.countWrite_cap (m : Master) : (s.countWrite m).cap = s.cap := by cases m <;> rfl
@[simp] theorem State.countWrite_els (m : Master) : (s.countWrite m).els = s.els := by cases m <;> rfl
@[simp] theorem State.countWrite_key (m : Master) : (s.countWrite m).key = s.key := by cases m <;> rfl
@[simp] theorem State.countWrite_fwu (m : Master) : (s.countWrite m).fwu = s.fwu := by cases m <;> rfl
@[simp] theorem State.countWrite_acq (m : Master) : (s.countWrite m).acq = s.acq := by cases m <;> rfl
@[simp] theorem State.countWrite_phs (m : Master) : (s.countWrite m).phs = s.phs := by cases m <;> rfl
@[simp] theorem State.countWrite_qty (m : Master) : (s.countWrite m).qty = s.qty := by cases m <;> rfl

/-! ### errResp -/

@[simp] theorem State.errResp_pending (m : Master) (w : Bool) (z a k : Nat) : (s.errResp m w z a k).pending = s.pending := by cases m <;> simp only [State.errResp, State.respond] <;> split <;> rfl
@[simp] theorem State.errResp_bufs (m : Master) (w : Bool) (z a k : Nat) : (s.errResp m w z a k).bufs = s.bufs := by cases m <;> simp only [State.errResp, State.respond] <;> split <;> rfl
@[simp] theorem State.errResp_pend (m : Master) (w : Bool) (z a k : Nat) : (s.errResp m w z a k).pend = s.pend := by cases m <;> simp only [State.errResp, State.respond] <;> split <;> rfl
@[simp] theorem State.errResp_tai (m : Master) (w : Bool) (z a k : Nat) : (s.errResp m w z a k).tai = s.tai := by cases m <;> simp only [State.errResp, State.respond] <;> split <;> rfl
@[simp] theorem State.errResp_mono (m : Master) (w : Bool) (z a k : Nat) : (s.errResp m w z a k).mono = s.mono := by cases m <;> simp only [State.errResp, State.respond] <;> split <;> rfl
@[simp] theorem State.errResp_rtc (m : Master) (w : Bool) (z a k : Nat) : (s.errResp m w z a k).rtc = s.rtc := by cases m <;> simp only [State.errResp, State.respond] <;> split <;> rfl
@[simp] theorem State.errResp_free (m : Master) (w : Bool) (z a k : Nat) : (s.errResp m w z a k).free = s.free := by cases m <;> simp only [State.errResp, State.respond] <;> split <;> rfl
@[simp] theorem State.errResp_loaded (m : Master) (w : Bool) (z a k : Nat) : (s.errResp m w z a k).loaded = s.loaded := by cases m <;> simp only [State.errResp, State.respond] <;> split <;> rfl
@[simp] theorem State.errResp_nor (m : Master) (w : Bool) (z a k : Nat) : (s.errResp m w z a k).nor = s.nor := by cases m <;> simp only [State.errResp, State.respond] <;> split <;> rfl
@[simp] theorem State.errResp_dram (m : Master) (w : Bool) (z a k : Nat) : (s.errResp m w z a k).dram = s.dram := by cases m <;> simp only [State.errResp, State.respond] <;> split <;> rfl
@[simp] theorem State.errResp_boot (m : Master) (w : Bool) (z a k : Nat) : (s.errResp m w z a k).boot = s.boot := by cases m <;> simp only [State.errResp, State.respond] <;> split <;> rfl
@[simp] theorem State.errResp_gate (m : Master) (w : Bool) (z a k : Nat) : (s.errResp m w z a k).gate = s.gate := by cases m <;> simp only [State.errResp, State.respond] <;> split <;> rfl
@[simp] theorem State.errResp_log (m : Master) (w : Bool) (z a k : Nat) : (s.errResp m w z a k).log = s.log := by cases m <;> simp only [State.errResp, State.respond] <;> split <;> rfl
@[simp] theorem State.errResp_tns (m : Master) (w : Bool) (z a k : Nat) : (s.errResp m w z a k).tns = s.tns := by cases m <;> simp only [State.errResp, State.respond] <;> split <;> rfl
@[simp] theorem State.errResp_ports (m : Master) (w : Bool) (z a k : Nat) : (s.errResp m w z a k).ports = s.ports := by cases m <;> simp only [State.errResp, State.respond] <;> split <;> rfl
@[simp] theorem State.errResp_red (m : Master) (w : Bool) (z a k : Nat) : (s.errResp m w z a k).red = s.red := by cases m <;> simp only [State.errResp, State.respond] <;> split <;> rfl
@[simp] theorem State.errResp_ccd (m : Master) (w : Bool) (z a k : Nat) : (s.errResp m w z a k).ccd = s.ccd := by cases m <;> simp only [State.errResp, State.respond] <;> split <;> rfl
@[simp] theorem State.errResp_sch (m : Master) (w : Bool) (z a k : Nat) : (s.errResp m w z a k).sch = s.sch := by cases m <;> simp only [State.errResp, State.respond] <;> split <;> rfl
@[simp] theorem State.errResp_ing (m : Master) (w : Bool) (z a k : Nat) : (s.errResp m w z a k).ing = s.ing := by cases m <;> simp only [State.errResp, State.respond] <;> split <;> rfl
@[simp] theorem State.errResp_ana (m : Master) (w : Bool) (z a k : Nat) : (s.errResp m w z a k).ana = s.ana := by cases m <;> simp only [State.errResp, State.respond] <;> split <;> rfl
@[simp] theorem State.errResp_pub (m : Master) (w : Bool) (z a k : Nat) : (s.errResp m w z a k).pub = s.pub := by cases m <;> simp only [State.errResp, State.respond] <;> split <;> rfl
@[simp] theorem State.errResp_cap (m : Master) (w : Bool) (z a k : Nat) : (s.errResp m w z a k).cap = s.cap := by cases m <;> simp only [State.errResp, State.respond] <;> split <;> rfl
@[simp] theorem State.errResp_els (m : Master) (w : Bool) (z a k : Nat) : (s.errResp m w z a k).els = s.els := by cases m <;> simp only [State.errResp, State.respond] <;> split <;> rfl
@[simp] theorem State.errResp_key (m : Master) (w : Bool) (z a k : Nat) : (s.errResp m w z a k).key = s.key := by cases m <;> simp only [State.errResp, State.respond] <;> split <;> rfl
@[simp] theorem State.errResp_fwu (m : Master) (w : Bool) (z a k : Nat) : (s.errResp m w z a k).fwu = s.fwu := by cases m <;> simp only [State.errResp, State.respond] <;> split <;> rfl
@[simp] theorem State.errResp_acq (m : Master) (w : Bool) (z a k : Nat) : (s.errResp m w z a k).acq = s.acq := by cases m <;> simp only [State.errResp, State.respond] <;> split <;> rfl
@[simp] theorem State.errResp_phs (m : Master) (w : Bool) (z a k : Nat) : (s.errResp m w z a k).phs = s.phs := by cases m <;> simp only [State.errResp, State.respond] <;> split <;> rfl
@[simp] theorem State.errResp_qty (m : Master) (w : Bool) (z a k : Nat) : (s.errResp m w z a k).qty = s.qty := by cases m <;> simp only [State.errResp, State.respond] <;> split <;> rfl

/-! ### errEvent -/

@[simp] theorem State.errEvent_pending (m : Master) (w : Bool) (z a d k : Nat) : (s.errEvent m w z a d k).pending = s.pending := by unfold State.errEvent; (repeat' split) <;> rfl
@[simp] theorem State.errEvent_regs (m : Master) (w : Bool) (z a d k : Nat) : (s.errEvent m w z a d k).regs = s.regs := by unfold State.errEvent; (repeat' split) <;> rfl
@[simp] theorem State.errEvent_bufs (m : Master) (w : Bool) (z a d k : Nat) : (s.errEvent m w z a d k).bufs = s.bufs := by unfold State.errEvent; (repeat' split) <;> rfl
@[simp] theorem State.errEvent_pend (m : Master) (w : Bool) (z a d k : Nat) : (s.errEvent m w z a d k).pend = s.pend := by unfold State.errEvent; (repeat' split) <;> rfl
@[simp] theorem State.errEvent_tai (m : Master) (w : Bool) (z a d k : Nat) : (s.errEvent m w z a d k).tai = s.tai := by unfold State.errEvent; (repeat' split) <;> rfl
@[simp] theorem State.errEvent_mono (m : Master) (w : Bool) (z a d k : Nat) : (s.errEvent m w z a d k).mono = s.mono := by unfold State.errEvent; (repeat' split) <;> rfl
@[simp] theorem State.errEvent_rtc (m : Master) (w : Bool) (z a d k : Nat) : (s.errEvent m w z a d k).rtc = s.rtc := by unfold State.errEvent; (repeat' split) <;> rfl
@[simp] theorem State.errEvent_free (m : Master) (w : Bool) (z a d k : Nat) : (s.errEvent m w z a d k).free = s.free := by unfold State.errEvent; (repeat' split) <;> rfl
@[simp] theorem State.errEvent_loaded (m : Master) (w : Bool) (z a d k : Nat) : (s.errEvent m w z a d k).loaded = s.loaded := by unfold State.errEvent; (repeat' split) <;> rfl
@[simp] theorem State.errEvent_nor (m : Master) (w : Bool) (z a d k : Nat) : (s.errEvent m w z a d k).nor = s.nor := by unfold State.errEvent; (repeat' split) <;> rfl
@[simp] theorem State.errEvent_dram (m : Master) (w : Bool) (z a d k : Nat) : (s.errEvent m w z a d k).dram = s.dram := by unfold State.errEvent; (repeat' split) <;> rfl
@[simp] theorem State.errEvent_boot (m : Master) (w : Bool) (z a d k : Nat) : (s.errEvent m w z a d k).boot = s.boot := by unfold State.errEvent; (repeat' split) <;> rfl
@[simp] theorem State.errEvent_gate (m : Master) (w : Bool) (z a d k : Nat) : (s.errEvent m w z a d k).gate = s.gate := by unfold State.errEvent; (repeat' split) <;> rfl
@[simp] theorem State.errEvent_fab (m : Master) (w : Bool) (z a d k : Nat) : (s.errEvent m w z a d k).fab = s.fab := by unfold State.errEvent; (repeat' split) <;> rfl
@[simp] theorem State.errEvent_tns (m : Master) (w : Bool) (z a d k : Nat) : (s.errEvent m w z a d k).tns = s.tns := by unfold State.errEvent; (repeat' split) <;> rfl
@[simp] theorem State.errEvent_ports (m : Master) (w : Bool) (z a d k : Nat) : (s.errEvent m w z a d k).ports = s.ports := by unfold State.errEvent; (repeat' split) <;> rfl
@[simp] theorem State.errEvent_red (m : Master) (w : Bool) (z a d k : Nat) : (s.errEvent m w z a d k).red = s.red := by unfold State.errEvent; (repeat' split) <;> rfl
@[simp] theorem State.errEvent_ccd (m : Master) (w : Bool) (z a d k : Nat) : (s.errEvent m w z a d k).ccd = s.ccd := by unfold State.errEvent; (repeat' split) <;> rfl
@[simp] theorem State.errEvent_sch (m : Master) (w : Bool) (z a d k : Nat) : (s.errEvent m w z a d k).sch = s.sch := by unfold State.errEvent; (repeat' split) <;> rfl
@[simp] theorem State.errEvent_ing (m : Master) (w : Bool) (z a d k : Nat) : (s.errEvent m w z a d k).ing = s.ing := by unfold State.errEvent; (repeat' split) <;> rfl
@[simp] theorem State.errEvent_ana (m : Master) (w : Bool) (z a d k : Nat) : (s.errEvent m w z a d k).ana = s.ana := by unfold State.errEvent; (repeat' split) <;> rfl
@[simp] theorem State.errEvent_pub (m : Master) (w : Bool) (z a d k : Nat) : (s.errEvent m w z a d k).pub = s.pub := by unfold State.errEvent; (repeat' split) <;> rfl
@[simp] theorem State.errEvent_cap (m : Master) (w : Bool) (z a d k : Nat) : (s.errEvent m w z a d k).cap = s.cap := by unfold State.errEvent; (repeat' split) <;> rfl
@[simp] theorem State.errEvent_els (m : Master) (w : Bool) (z a d k : Nat) : (s.errEvent m w z a d k).els = s.els := by unfold State.errEvent; (repeat' split) <;> rfl
@[simp] theorem State.errEvent_key (m : Master) (w : Bool) (z a d k : Nat) : (s.errEvent m w z a d k).key = s.key := by unfold State.errEvent; (repeat' split) <;> rfl
@[simp] theorem State.errEvent_fwu (m : Master) (w : Bool) (z a d k : Nat) : (s.errEvent m w z a d k).fwu = s.fwu := by unfold State.errEvent; (repeat' split) <;> rfl
@[simp] theorem State.errEvent_acq (m : Master) (w : Bool) (z a d k : Nat) : (s.errEvent m w z a d k).acq = s.acq := by unfold State.errEvent; (repeat' split) <;> rfl
@[simp] theorem State.errEvent_phs (m : Master) (w : Bool) (z a d k : Nat) : (s.errEvent m w z a d k).phs = s.phs := by unfold State.errEvent; (repeat' split) <;> rfl
@[simp] theorem State.errEvent_qty (m : Master) (w : Bool) (z a d k : Nat) : (s.errEvent m w z a d k).qty = s.qty := by unfold State.errEvent; (repeat' split) <;> rfl
@[simp] theorem State.errEvent_rd (m : Master) (w : Bool) (z a d k : Nat) (g : Field) : (s.errEvent m w z a d k).rd g = s.rd g := by simp only [State.rd, State.errEvent_regs]
@[simp] theorem State.errEvent_rdBuf (m : Master) (w : Bool) (z a d k : Nat) (g : Field) : (s.errEvent m w z a d k).rdBuf g = s.rdBuf g := by simp only [State.rdBuf, State.errEvent_bufs, State.errEvent_rd]

/-! ### norWrite -/

@[simp] theorem State.norWrite_pending (a : Nat) (b : List Byte) : (s.norWrite a b).pending = s.pending := (rfl)
@[simp] theorem State.norWrite_regs (a : Nat) (b : List Byte) : (s.norWrite a b).regs = s.regs := (rfl)
@[simp] theorem State.norWrite_bufs (a : Nat) (b : List Byte) : (s.norWrite a b).bufs = s.bufs := (rfl)
@[simp] theorem State.norWrite_pend (a : Nat) (b : List Byte) : (s.norWrite a b).pend = s.pend := (rfl)
@[simp] theorem State.norWrite_tai (a : Nat) (b : List Byte) : (s.norWrite a b).tai = s.tai := (rfl)
@[simp] theorem State.norWrite_mono (a : Nat) (b : List Byte) : (s.norWrite a b).mono = s.mono := (rfl)
@[simp] theorem State.norWrite_rtc (a : Nat) (b : List Byte) : (s.norWrite a b).rtc = s.rtc := (rfl)
@[simp] theorem State.norWrite_free (a : Nat) (b : List Byte) : (s.norWrite a b).free = s.free := (rfl)
@[simp] theorem State.norWrite_loaded (a : Nat) (b : List Byte) : (s.norWrite a b).loaded = s.loaded := (rfl)
@[simp] theorem State.norWrite_dram (a : Nat) (b : List Byte) : (s.norWrite a b).dram = s.dram := (rfl)
@[simp] theorem State.norWrite_boot (a : Nat) (b : List Byte) : (s.norWrite a b).boot = s.boot := (rfl)
@[simp] theorem State.norWrite_gate (a : Nat) (b : List Byte) : (s.norWrite a b).gate = s.gate := (rfl)
@[simp] theorem State.norWrite_fab (a : Nat) (b : List Byte) : (s.norWrite a b).fab = s.fab := (rfl)
@[simp] theorem State.norWrite_log (a : Nat) (b : List Byte) : (s.norWrite a b).log = s.log := (rfl)
@[simp] theorem State.norWrite_tns (a : Nat) (b : List Byte) : (s.norWrite a b).tns = s.tns := (rfl)
@[simp] theorem State.norWrite_ports (a : Nat) (b : List Byte) : (s.norWrite a b).ports = s.ports := (rfl)
@[simp] theorem State.norWrite_red (a : Nat) (b : List Byte) : (s.norWrite a b).red = s.red := (rfl)
@[simp] theorem State.norWrite_ccd (a : Nat) (b : List Byte) : (s.norWrite a b).ccd = s.ccd := (rfl)
@[simp] theorem State.norWrite_sch (a : Nat) (b : List Byte) : (s.norWrite a b).sch = s.sch := (rfl)
@[simp] theorem State.norWrite_ing (a : Nat) (b : List Byte) : (s.norWrite a b).ing = s.ing := (rfl)
@[simp] theorem State.norWrite_ana (a : Nat) (b : List Byte) : (s.norWrite a b).ana = s.ana := (rfl)
@[simp] theorem State.norWrite_pub (a : Nat) (b : List Byte) : (s.norWrite a b).pub = s.pub := (rfl)
@[simp] theorem State.norWrite_cap (a : Nat) (b : List Byte) : (s.norWrite a b).cap = s.cap := (rfl)
@[simp] theorem State.norWrite_els (a : Nat) (b : List Byte) : (s.norWrite a b).els = s.els := (rfl)
@[simp] theorem State.norWrite_key (a : Nat) (b : List Byte) : (s.norWrite a b).key = s.key := (rfl)
@[simp] theorem State.norWrite_fwu (a : Nat) (b : List Byte) : (s.norWrite a b).fwu = s.fwu := (rfl)
@[simp] theorem State.norWrite_acq (a : Nat) (b : List Byte) : (s.norWrite a b).acq = s.acq := (rfl)
@[simp] theorem State.norWrite_phs (a : Nat) (b : List Byte) : (s.norWrite a b).phs = s.phs := (rfl)
@[simp] theorem State.norWrite_qty (a : Nat) (b : List Byte) : (s.norWrite a b).qty = s.qty := (rfl)
@[simp] theorem State.norWrite_rd (a : Nat) (b : List Byte) (g : Field) : (s.norWrite a b).rd g = s.rd g := by simp only [State.rd, State.norWrite_regs]
@[simp] theorem State.norWrite_rdBuf (a : Nat) (b : List Byte) (g : Field) : (s.norWrite a b).rdBuf g = s.rdBuf g := by simp only [State.rdBuf, State.norWrite_bufs, State.norWrite_rd]

/-! ### norErase -/

@[simp] theorem State.norErase_pending (a n : Nat) : (s.norErase a n).pending = s.pending := (rfl)
@[simp] theorem State.norErase_regs (a n : Nat) : (s.norErase a n).regs = s.regs := (rfl)
@[simp] theorem State.norErase_bufs (a n : Nat) : (s.norErase a n).bufs = s.bufs := (rfl)
@[simp] theorem State.norErase_pend (a n : Nat) : (s.norErase a n).pend = s.pend := (rfl)
@[simp] theorem State.norErase_tai (a n : Nat) : (s.norErase a n).tai = s.tai := (rfl)
@[simp] theorem State.norErase_mono (a n : Nat) : (s.norErase a n).mono = s.mono := (rfl)
@[simp] theorem State.norErase_rtc (a n : Nat) : (s.norErase a n).rtc = s.rtc := (rfl)
@[simp] theorem State.norErase_free (a n : Nat) : (s.norErase a n).free = s.free := (rfl)
@[simp] theorem State.norErase_loaded (a n : Nat) : (s.norErase a n).loaded = s.loaded := (rfl)
@[simp] theorem State.norErase_dram (a n : Nat) : (s.norErase a n).dram = s.dram := (rfl)
@[simp] theorem State.norErase_boot (a n : Nat) : (s.norErase a n).boot = s.boot := (rfl)
@[simp] theorem State.norErase_gate (a n : Nat) : (s.norErase a n).gate = s.gate := (rfl)
@[simp] theorem State.norErase_fab (a n : Nat) : (s.norErase a n).fab = s.fab := (rfl)
@[simp] theorem State.norErase_log (a n : Nat) : (s.norErase a n).log = s.log := (rfl)
@[simp] theorem State.norErase_tns (a n : Nat) : (s.norErase a n).tns = s.tns := (rfl)
@[simp] theorem State.norErase_ports (a n : Nat) : (s.norErase a n).ports = s.ports := (rfl)
@[simp] theorem State.norErase_red (a n : Nat) : (s.norErase a n).red = s.red := (rfl)
@[simp] theorem State.norErase_ccd (a n : Nat) : (s.norErase a n).ccd = s.ccd := (rfl)
@[simp] theorem State.norErase_sch (a n : Nat) : (s.norErase a n).sch = s.sch := (rfl)
@[simp] theorem State.norErase_ing (a n : Nat) : (s.norErase a n).ing = s.ing := (rfl)
@[simp] theorem State.norErase_ana (a n : Nat) : (s.norErase a n).ana = s.ana := (rfl)
@[simp] theorem State.norErase_pub (a n : Nat) : (s.norErase a n).pub = s.pub := (rfl)
@[simp] theorem State.norErase_cap (a n : Nat) : (s.norErase a n).cap = s.cap := (rfl)
@[simp] theorem State.norErase_els (a n : Nat) : (s.norErase a n).els = s.els := (rfl)
@[simp] theorem State.norErase_key (a n : Nat) : (s.norErase a n).key = s.key := (rfl)
@[simp] theorem State.norErase_fwu (a n : Nat) : (s.norErase a n).fwu = s.fwu := (rfl)
@[simp] theorem State.norErase_acq (a n : Nat) : (s.norErase a n).acq = s.acq := (rfl)
@[simp] theorem State.norErase_phs (a n : Nat) : (s.norErase a n).phs = s.phs := (rfl)
@[simp] theorem State.norErase_qty (a n : Nat) : (s.norErase a n).qty = s.qty := (rfl)
@[simp] theorem State.norErase_rd (a n : Nat) (g : Field) : (s.norErase a n).rd g = s.rd g := by simp only [State.rd, State.norErase_regs]
@[simp] theorem State.norErase_rdBuf (a n : Nat) (g : Field) : (s.norErase a n).rdBuf g = s.rdBuf g := by simp only [State.rdBuf, State.norErase_bufs, State.norErase_rd]

/-! ### dramWrite -/

@[simp] theorem State.dramWrite_pending (a : Nat) (b : List Byte) : (s.dramWrite a b).pending = s.pending := (rfl)
@[simp] theorem State.dramWrite_regs (a : Nat) (b : List Byte) : (s.dramWrite a b).regs = s.regs := (rfl)
@[simp] theorem State.dramWrite_bufs (a : Nat) (b : List Byte) : (s.dramWrite a b).bufs = s.bufs := (rfl)
@[simp] theorem State.dramWrite_pend (a : Nat) (b : List Byte) : (s.dramWrite a b).pend = s.pend := (rfl)
@[simp] theorem State.dramWrite_tai (a : Nat) (b : List Byte) : (s.dramWrite a b).tai = s.tai := (rfl)
@[simp] theorem State.dramWrite_mono (a : Nat) (b : List Byte) : (s.dramWrite a b).mono = s.mono := (rfl)
@[simp] theorem State.dramWrite_rtc (a : Nat) (b : List Byte) : (s.dramWrite a b).rtc = s.rtc := (rfl)
@[simp] theorem State.dramWrite_free (a : Nat) (b : List Byte) : (s.dramWrite a b).free = s.free := (rfl)
@[simp] theorem State.dramWrite_loaded (a : Nat) (b : List Byte) : (s.dramWrite a b).loaded = s.loaded := (rfl)
@[simp] theorem State.dramWrite_nor (a : Nat) (b : List Byte) : (s.dramWrite a b).nor = s.nor := (rfl)
@[simp] theorem State.dramWrite_boot (a : Nat) (b : List Byte) : (s.dramWrite a b).boot = s.boot := (rfl)
@[simp] theorem State.dramWrite_gate (a : Nat) (b : List Byte) : (s.dramWrite a b).gate = s.gate := (rfl)
@[simp] theorem State.dramWrite_fab (a : Nat) (b : List Byte) : (s.dramWrite a b).fab = s.fab := (rfl)
@[simp] theorem State.dramWrite_log (a : Nat) (b : List Byte) : (s.dramWrite a b).log = s.log := (rfl)
@[simp] theorem State.dramWrite_tns (a : Nat) (b : List Byte) : (s.dramWrite a b).tns = s.tns := (rfl)
@[simp] theorem State.dramWrite_ports (a : Nat) (b : List Byte) : (s.dramWrite a b).ports = s.ports := (rfl)
@[simp] theorem State.dramWrite_red (a : Nat) (b : List Byte) : (s.dramWrite a b).red = s.red := (rfl)
@[simp] theorem State.dramWrite_ccd (a : Nat) (b : List Byte) : (s.dramWrite a b).ccd = s.ccd := (rfl)
@[simp] theorem State.dramWrite_sch (a : Nat) (b : List Byte) : (s.dramWrite a b).sch = s.sch := (rfl)
@[simp] theorem State.dramWrite_ing (a : Nat) (b : List Byte) : (s.dramWrite a b).ing = s.ing := (rfl)
@[simp] theorem State.dramWrite_ana (a : Nat) (b : List Byte) : (s.dramWrite a b).ana = s.ana := (rfl)
@[simp] theorem State.dramWrite_pub (a : Nat) (b : List Byte) : (s.dramWrite a b).pub = s.pub := (rfl)
@[simp] theorem State.dramWrite_cap (a : Nat) (b : List Byte) : (s.dramWrite a b).cap = s.cap := (rfl)
@[simp] theorem State.dramWrite_els (a : Nat) (b : List Byte) : (s.dramWrite a b).els = s.els := (rfl)
@[simp] theorem State.dramWrite_key (a : Nat) (b : List Byte) : (s.dramWrite a b).key = s.key := (rfl)
@[simp] theorem State.dramWrite_fwu (a : Nat) (b : List Byte) : (s.dramWrite a b).fwu = s.fwu := (rfl)
@[simp] theorem State.dramWrite_acq (a : Nat) (b : List Byte) : (s.dramWrite a b).acq = s.acq := (rfl)
@[simp] theorem State.dramWrite_phs (a : Nat) (b : List Byte) : (s.dramWrite a b).phs = s.phs := (rfl)
@[simp] theorem State.dramWrite_qty (a : Nat) (b : List Byte) : (s.dramWrite a b).qty = s.qty := (rfl)
@[simp] theorem State.dramWrite_rd (a : Nat) (b : List Byte) (g : Field) : (s.dramWrite a b).rd g = s.rd g := by simp only [State.rd, State.dramWrite_regs]
@[simp] theorem State.dramWrite_rdBuf (a : Nat) (b : List Byte) (g : Field) : (s.dramWrite a b).rdBuf g = s.rdBuf g := by simp only [State.rdBuf, State.dramWrite_bufs, State.dramWrite_rd]

/-! ### delayAdd -/

@[simp] theorem State.delayAdd_pending (n : Nat) (k : DlyKind) : (s.delayAdd n k).pending = s.pending := (rfl)
@[simp] theorem State.delayAdd_regs (n : Nat) (k : DlyKind) : (s.delayAdd n k).regs = s.regs := (rfl)
@[simp] theorem State.delayAdd_bufs (n : Nat) (k : DlyKind) : (s.delayAdd n k).bufs = s.bufs := (rfl)
@[simp] theorem State.delayAdd_pend (n : Nat) (k : DlyKind) : (s.delayAdd n k).pend = s.pend := (rfl)
@[simp] theorem State.delayAdd_tai (n : Nat) (k : DlyKind) : (s.delayAdd n k).tai = s.tai := (rfl)
@[simp] theorem State.delayAdd_mono (n : Nat) (k : DlyKind) : (s.delayAdd n k).mono = s.mono := (rfl)
@[simp] theorem State.delayAdd_rtc (n : Nat) (k : DlyKind) : (s.delayAdd n k).rtc = s.rtc := (rfl)
@[simp] theorem State.delayAdd_free (n : Nat) (k : DlyKind) : (s.delayAdd n k).free = s.free := (rfl)
@[simp] theorem State.delayAdd_loaded (n : Nat) (k : DlyKind) : (s.delayAdd n k).loaded = s.loaded := (rfl)
@[simp] theorem State.delayAdd_nor (n : Nat) (k : DlyKind) : (s.delayAdd n k).nor = s.nor := (rfl)
@[simp] theorem State.delayAdd_dram (n : Nat) (k : DlyKind) : (s.delayAdd n k).dram = s.dram := (rfl)
@[simp] theorem State.delayAdd_boot (n : Nat) (k : DlyKind) : (s.delayAdd n k).boot = s.boot := (rfl)
@[simp] theorem State.delayAdd_gate (n : Nat) (k : DlyKind) : (s.delayAdd n k).gate = s.gate := (rfl)
@[simp] theorem State.delayAdd_fab (n : Nat) (k : DlyKind) : (s.delayAdd n k).fab = s.fab := (rfl)
@[simp] theorem State.delayAdd_log (n : Nat) (k : DlyKind) : (s.delayAdd n k).log = s.log := (rfl)
@[simp] theorem State.delayAdd_tns (n : Nat) (k : DlyKind) : (s.delayAdd n k).tns = s.tns := (rfl)
@[simp] theorem State.delayAdd_ports (n : Nat) (k : DlyKind) : (s.delayAdd n k).ports = s.ports := (rfl)
@[simp] theorem State.delayAdd_red (n : Nat) (k : DlyKind) : (s.delayAdd n k).red = s.red := (rfl)
@[simp] theorem State.delayAdd_ccd (n : Nat) (k : DlyKind) : (s.delayAdd n k).ccd = s.ccd := (rfl)
@[simp] theorem State.delayAdd_ing (n : Nat) (k : DlyKind) : (s.delayAdd n k).ing = s.ing := (rfl)
@[simp] theorem State.delayAdd_ana (n : Nat) (k : DlyKind) : (s.delayAdd n k).ana = s.ana := (rfl)
@[simp] theorem State.delayAdd_pub (n : Nat) (k : DlyKind) : (s.delayAdd n k).pub = s.pub := (rfl)
@[simp] theorem State.delayAdd_cap (n : Nat) (k : DlyKind) : (s.delayAdd n k).cap = s.cap := (rfl)
@[simp] theorem State.delayAdd_els (n : Nat) (k : DlyKind) : (s.delayAdd n k).els = s.els := (rfl)
@[simp] theorem State.delayAdd_key (n : Nat) (k : DlyKind) : (s.delayAdd n k).key = s.key := (rfl)
@[simp] theorem State.delayAdd_fwu (n : Nat) (k : DlyKind) : (s.delayAdd n k).fwu = s.fwu := (rfl)
@[simp] theorem State.delayAdd_acq (n : Nat) (k : DlyKind) : (s.delayAdd n k).acq = s.acq := (rfl)
@[simp] theorem State.delayAdd_phs (n : Nat) (k : DlyKind) : (s.delayAdd n k).phs = s.phs := (rfl)
@[simp] theorem State.delayAdd_qty (n : Nat) (k : DlyKind) : (s.delayAdd n k).qty = s.qty := (rfl)
@[simp] theorem State.delayAdd_rd (n : Nat) (k : DlyKind) (g : Field) : (s.delayAdd n k).rd g = s.rd g := by simp only [State.rd, State.delayAdd_regs]
@[simp] theorem State.delayAdd_rdBuf (n : Nat) (k : DlyKind) (g : Field) : (s.delayAdd n k).rdBuf g = s.rdBuf g := by simp only [State.rdBuf, State.delayAdd_bufs, State.delayAdd_rd]

/-! ### delayDrop -/

@[simp] theorem State.delayDrop_pending (k : DlyKind) : (s.delayDrop k).pending = s.pending := (rfl)
@[simp] theorem State.delayDrop_regs (k : DlyKind) : (s.delayDrop k).regs = s.regs := (rfl)
@[simp] theorem State.delayDrop_bufs (k : DlyKind) : (s.delayDrop k).bufs = s.bufs := (rfl)
@[simp] theorem State.delayDrop_pend (k : DlyKind) : (s.delayDrop k).pend = s.pend := (rfl)
@[simp] theorem State.delayDrop_tai (k : DlyKind) : (s.delayDrop k).tai = s.tai := (rfl)
@[simp] theorem State.delayDrop_mono (k : DlyKind) : (s.delayDrop k).mono = s.mono := (rfl)
@[simp] theorem State.delayDrop_rtc (k : DlyKind) : (s.delayDrop k).rtc = s.rtc := (rfl)
@[simp] theorem State.delayDrop_free (k : DlyKind) : (s.delayDrop k).free = s.free := (rfl)
@[simp] theorem State.delayDrop_loaded (k : DlyKind) : (s.delayDrop k).loaded = s.loaded := (rfl)
@[simp] theorem State.delayDrop_nor (k : DlyKind) : (s.delayDrop k).nor = s.nor := (rfl)
@[simp] theorem State.delayDrop_dram (k : DlyKind) : (s.delayDrop k).dram = s.dram := (rfl)
@[simp] theorem State.delayDrop_boot (k : DlyKind) : (s.delayDrop k).boot = s.boot := (rfl)
@[simp] theorem State.delayDrop_gate (k : DlyKind) : (s.delayDrop k).gate = s.gate := (rfl)
@[simp] theorem State.delayDrop_fab (k : DlyKind) : (s.delayDrop k).fab = s.fab := (rfl)
@[simp] theorem State.delayDrop_log (k : DlyKind) : (s.delayDrop k).log = s.log := (rfl)
@[simp] theorem State.delayDrop_tns (k : DlyKind) : (s.delayDrop k).tns = s.tns := (rfl)
@[simp] theorem State.delayDrop_ports (k : DlyKind) : (s.delayDrop k).ports = s.ports := (rfl)
@[simp] theorem State.delayDrop_red (k : DlyKind) : (s.delayDrop k).red = s.red := (rfl)
@[simp] theorem State.delayDrop_ccd (k : DlyKind) : (s.delayDrop k).ccd = s.ccd := (rfl)
@[simp] theorem State.delayDrop_ing (k : DlyKind) : (s.delayDrop k).ing = s.ing := (rfl)
@[simp] theorem State.delayDrop_ana (k : DlyKind) : (s.delayDrop k).ana = s.ana := (rfl)
@[simp] theorem State.delayDrop_pub (k : DlyKind) : (s.delayDrop k).pub = s.pub := (rfl)
@[simp] theorem State.delayDrop_cap (k : DlyKind) : (s.delayDrop k).cap = s.cap := (rfl)
@[simp] theorem State.delayDrop_els (k : DlyKind) : (s.delayDrop k).els = s.els := (rfl)
@[simp] theorem State.delayDrop_key (k : DlyKind) : (s.delayDrop k).key = s.key := (rfl)
@[simp] theorem State.delayDrop_fwu (k : DlyKind) : (s.delayDrop k).fwu = s.fwu := (rfl)
@[simp] theorem State.delayDrop_acq (k : DlyKind) : (s.delayDrop k).acq = s.acq := (rfl)
@[simp] theorem State.delayDrop_phs (k : DlyKind) : (s.delayDrop k).phs = s.phs := (rfl)
@[simp] theorem State.delayDrop_qty (k : DlyKind) : (s.delayDrop k).qty = s.qty := (rfl)
@[simp] theorem State.delayDrop_rd (k : DlyKind) (g : Field) : (s.delayDrop k).rd g = s.rd g := by simp only [State.rd, State.delayDrop_regs]
@[simp] theorem State.delayDrop_rdBuf (k : DlyKind) (g : Field) : (s.delayDrop k).rdBuf g = s.rdBuf g := by simp only [State.rdBuf, State.delayDrop_bufs, State.delayDrop_rd]

/-! ### setNmi -/

@[simp] theorem State.setNmi_pending (f : Field) : (s.setNmi f).pending = s.pending := (rfl)
@[simp] theorem State.setNmi_bufs (f : Field) : (s.setNmi f).bufs = s.bufs := (rfl)
@[simp] theorem State.setNmi_pend (f : Field) : (s.setNmi f).pend = s.pend := (rfl)
@[simp] theorem State.setNmi_tai (f : Field) : (s.setNmi f).tai = s.tai := (rfl)
@[simp] theorem State.setNmi_mono (f : Field) : (s.setNmi f).mono = s.mono := (rfl)
@[simp] theorem State.setNmi_rtc (f : Field) : (s.setNmi f).rtc = s.rtc := (rfl)
@[simp] theorem State.setNmi_free (f : Field) : (s.setNmi f).free = s.free := (rfl)
@[simp] theorem State.setNmi_loaded (f : Field) : (s.setNmi f).loaded = s.loaded := (rfl)
@[simp] theorem State.setNmi_nor (f : Field) : (s.setNmi f).nor = s.nor := (rfl)
@[simp] theorem State.setNmi_dram (f : Field) : (s.setNmi f).dram = s.dram := (rfl)
@[simp] theorem State.setNmi_boot (f : Field) : (s.setNmi f).boot = s.boot := (rfl)
@[simp] theorem State.setNmi_gate (f : Field) : (s.setNmi f).gate = s.gate := (rfl)
@[simp] theorem State.setNmi_fab (f : Field) : (s.setNmi f).fab = s.fab := (rfl)
@[simp] theorem State.setNmi_log (f : Field) : (s.setNmi f).log = s.log := (rfl)
@[simp] theorem State.setNmi_tns (f : Field) : (s.setNmi f).tns = s.tns := (rfl)
@[simp] theorem State.setNmi_ports (f : Field) : (s.setNmi f).ports = s.ports := (rfl)
@[simp] theorem State.setNmi_red (f : Field) : (s.setNmi f).red = s.red := (rfl)
@[simp] theorem State.setNmi_ccd (f : Field) : (s.setNmi f).ccd = s.ccd := (rfl)
@[simp] theorem State.setNmi_sch (f : Field) : (s.setNmi f).sch = s.sch := (rfl)
@[simp] theorem State.setNmi_ing (f : Field) : (s.setNmi f).ing = s.ing := (rfl)
@[simp] theorem State.setNmi_ana (f : Field) : (s.setNmi f).ana = s.ana := (rfl)
@[simp] theorem State.setNmi_pub (f : Field) : (s.setNmi f).pub = s.pub := (rfl)
@[simp] theorem State.setNmi_cap (f : Field) : (s.setNmi f).cap = s.cap := (rfl)
@[simp] theorem State.setNmi_els (f : Field) : (s.setNmi f).els = s.els := (rfl)
@[simp] theorem State.setNmi_key (f : Field) : (s.setNmi f).key = s.key := (rfl)
@[simp] theorem State.setNmi_fwu (f : Field) : (s.setNmi f).fwu = s.fwu := (rfl)
@[simp] theorem State.setNmi_acq (f : Field) : (s.setNmi f).acq = s.acq := (rfl)
@[simp] theorem State.setNmi_phs (f : Field) : (s.setNmi f).phs = s.phs := (rfl)
@[simp] theorem State.setNmi_qty (f : Field) : (s.setNmi f).qty = s.qty := (rfl)

/-! ### draw -/

@[simp] theorem State.draw_pending : s.draw.2.pending = s.pending := (rfl)
@[simp] theorem State.draw_regs : s.draw.2.regs = s.regs := (rfl)
@[simp] theorem State.draw_bufs : s.draw.2.bufs = s.bufs := (rfl)
@[simp] theorem State.draw_pend : s.draw.2.pend = s.pend := (rfl)
@[simp] theorem State.draw_tai : s.draw.2.tai = s.tai := (rfl)
@[simp] theorem State.draw_mono : s.draw.2.mono = s.mono := (rfl)
@[simp] theorem State.draw_rtc : s.draw.2.rtc = s.rtc := (rfl)
@[simp] theorem State.draw_loaded : s.draw.2.loaded = s.loaded := (rfl)
@[simp] theorem State.draw_nor : s.draw.2.nor = s.nor := (rfl)
@[simp] theorem State.draw_dram : s.draw.2.dram = s.dram := (rfl)
@[simp] theorem State.draw_boot : s.draw.2.boot = s.boot := (rfl)
@[simp] theorem State.draw_gate : s.draw.2.gate = s.gate := (rfl)
@[simp] theorem State.draw_fab : s.draw.2.fab = s.fab := (rfl)
@[simp] theorem State.draw_log : s.draw.2.log = s.log := (rfl)
@[simp] theorem State.draw_tns : s.draw.2.tns = s.tns := (rfl)
@[simp] theorem State.draw_ports : s.draw.2.ports = s.ports := (rfl)
@[simp] theorem State.draw_red : s.draw.2.red = s.red := (rfl)
@[simp] theorem State.draw_ccd : s.draw.2.ccd = s.ccd := (rfl)
@[simp] theorem State.draw_sch : s.draw.2.sch = s.sch := (rfl)
@[simp] theorem State.draw_ing : s.draw.2.ing = s.ing := (rfl)
@[simp] theorem State.draw_ana : s.draw.2.ana = s.ana := (rfl)
@[simp] theorem State.draw_pub : s.draw.2.pub = s.pub := (rfl)
@[simp] theorem State.draw_cap : s.draw.2.cap = s.cap := (rfl)
@[simp] theorem State.draw_els : s.draw.2.els = s.els := (rfl)
@[simp] theorem State.draw_key : s.draw.2.key = s.key := (rfl)
@[simp] theorem State.draw_fwu : s.draw.2.fwu = s.fwu := (rfl)
@[simp] theorem State.draw_acq : s.draw.2.acq = s.acq := (rfl)
@[simp] theorem State.draw_phs : s.draw.2.phs = s.phs := (rfl)
@[simp] theorem State.draw_qty : s.draw.2.qty = s.qty := (rfl)
@[simp] theorem State.draw_rd (g : Field) : s.draw.2.rd g = s.rd g := (rfl)

end Sys2Proof.Machine
end

