-- ==== Sys2Proof/Laws/Regs.lean ====
section
/-! SUPPORT. Reading a field after a write of one: of the values in force and of the buffers. -/

namespace Sys2Proof.Machine

theorem assoc_assocSet {α : Type} (l : List (Nat × α)) (k j : Nat) (v : α) :
    assoc (assocSet l k v) j = if k = j then some v else assoc l j := by
  induction l with
  | nil => simp [assocSet, assoc]
  | cons p ps ih =>
    unfold assocSet
    split
    · simp only [assoc]; split <;> simp_all
    · split
      · simp only [assoc]
      · simp only [assoc, ih]; split <;> split <;> simp_all

theorem RegFile.get_set (r : RegFile) (f g : Field) (v : Nat) :
    (r.set f v).get g = if fieldKey f = fieldKey g then v % 2 ^ f.width else r.get g := by
  unfold RegFile.get RegFile.set
  rw [assoc_assocSet]
  split <;> simp

variable (s : State) (f g : Field) (v : Nat)

theorem State.rd_wr : (s.wr f v).rd g = if fieldKey f = fieldKey g then v % 2 ^ f.width else s.rd g :=
  RegFile.get_set s.regs f g v

/-- A field reads back what was written to it, cut to its width. -/
@[simp] theorem State.rd_wr_self : (s.wr f v).rd f = v % 2 ^ f.width := by simp [State.rd_wr]

/-- A write of one field leaves every other field. -/
theorem State.rd_wr_ne (h : fieldKey f ≠ fieldKey g) : (s.wr f v).rd g = s.rd g := by simp [State.rd_wr, h]

theorem State.rdBuf_wrBuf :
    (s.wrBuf f v).rdBuf g = if fieldKey f = fieldKey g then v % 2 ^ f.width else s.rdBuf g := by
  unfold State.rdBuf State.wrBuf RegFile.set
  simp only [assoc_assocSet]
  split <;> rfl

/-- A buffer reads back what was written to it. -/
@[simp] theorem State.rdBuf_wrBuf_self : (s.wrBuf f v).rdBuf f = v % 2 ^ f.width := by simp [State.rdBuf_wrBuf]


theorem State.rd_wrBoth : (s.wrBoth f v).rd g = if fieldKey f = fieldKey g then v % 2 ^ f.width else s.rd g := by
  simp [State.wrBoth, State.rd_wr]

theorem State.rd_cntN (n : Nat) : (s.cntN f n).rd g =
    if fieldKey f = fieldKey g then (if f.sat then min (s.rd f + n) (2 ^ f.width - 1) else s.rd f + n) % 2 ^ f.width else s.rd g := by
  simp [State.cntN, State.rd_wr]

/-- A counter counts one: it wraps, or stops at all ones when it saturates. -/
theorem State.rd_cnt : (s.cnt f).rd g =
    if fieldKey f = fieldKey g then (if f.sat then min (s.rd f + 1) (2 ^ f.width - 1) else s.rd f + 1) % 2 ^ f.width else s.rd g :=
  s.rd_cntN f g 1

theorem State.rd_countWrite (m : Master) : (s.countWrite m).rd g =
    (s.cnt (match m with
      | .mc => SYS_FAB_WR_MC_COUNT
      | .host => SYS_FAB_WR_HC_COUNT)).rd g := by cases m <;> rfl

/-- Every write of an accepted access leaves all fields but the write counter of its master. -/
theorem State.countWrite_rd_ne (m : Master) (h : fieldKey g ≠ 2048 ∧ fieldKey g ≠ 2176) : (s.countWrite m).rd g = s.rd g := by
  cases m
  · exact s.rd_wr_ne SYS_FAB_WR_MC_COUNT g _ (by intro e; exact h.1 (by rw [← e]; rfl))
  · exact s.rd_wr_ne SYS_FAB_WR_HC_COUNT g _ (by intro e; exact h.2 (by rw [← e]; rfl))

/-- The checks of an access do not look at the gates. -/
theorem State.busFail_hostGate (m n : Master) (w : Bool) (z a : Nat) : busFail (s.hostGate m) n w z a = busFail s n w z a := by
  cases m <;> rfl

/-- An access that passes every check has the command's effect on the state with the write counted. -/
theorem State.accessW_ok (m : Master) (a : Nat) (eff : State → State) (hu : s.up = true) (hb : busFail s m true 4 a = none) :
    s.accessW m a v eff = eff (((s.hostGate m).countWrite m).respond m .served) := by
  have h : busFail (s.hostGate m) m true 4 a = none := by rw [State.busFail_hostGate]; exact hb
  simp [State.accessW, hu, h]

/-- An access that fails a check does nothing but answer with an error response and record its event. -/
theorem State.accessW_fail (m : Master) (a k : Nat) (eff : State → State) (hu : s.up = true) (hb : busFail s m true 4 a = some k) :
    s.accessW m a v eff = ((s.hostGate m).errResp m true 4 a k).errEvent m true 4 a v k := by
  have h : busFail (s.hostGate m) m true 4 a = some k := by rw [State.busFail_hostGate]; exact hb
  simp [State.accessW, hu, h]

/-- Outside service nothing answers. -/
theorem State.accessW_down (m : Master) (a : Nat) (eff : State → State) (hu : s.up = false) : s.accessW m a v eff = s := by
  simp [State.accessW, hu]

/-- A property that a step of a fold keeps holds after it. -/
theorem State.each_keeps {α : Type} (P : State → Prop) (l : List α) (k : State → α → State) (hk : ∀ t a, P t → P (k t a))
    (h : P s) : P (s.each l k) := by
  induction l generalizing s with
  | nil => exact h
  | cons a l ih => exact ih (k s a) (hk s a h)

end Sys2Proof.Machine
end

