-- ==== Sys2Proof/Laws/Status.lean ====
section
/-! SUPPORT. What the shared operations over the computed status can change, the state a command leaves, and the small lemmas of
the terms in which claims are stated. -/

namespace Sys2Proof.Machine

variable (s t : State)

/-! ### The recorder's hand-over -/

@[simp] theorem State.ev_log (c p q r u : Nat) :
    (s.ev c p q r u).log = pushEv (s.isCrit c) ⟨c, p % 2 ^ 32, q % 2 ^ 32, r % 2 ^ 32, u % 2 ^ 32, s.tai, s.epoch, s.mono / (5 * nsU)⟩ s.log := (rfl)

/-- With room in the queue, an event joins it, whichever its class. -/
theorem pushEv_room (b : Bool) (e : Ev) (l : Recorder) (h1 : l.running = true) (h2 : l.inq.length < 240) (h3 : l.waiting = []) :
    pushEv b e l = { l with inq := l.inq ++ [e] } := by
  have : l.inq.length < 256 := by omega
  cases b <;> simp [pushEv, h1, h2, h3, this]

/-- One event handed over, when the recorder listens. -/
theorem State.tells_ev (c p q r u : Nat) (h : Listens s) : Tells s (s.ev c p q r u) c p q r u :=
  ⟨_, (s.ev_log c p q r u).trans (pushEv_room _ _ _ h.1 h.2.1 h.2.2), rfl, rfl, rfl, rfl, rfl⟩

theorem tells_of_log (v w : State) (c p q r u : Nat) (h1 : v.log = s.log) (h2 : w.log = (v.ev c p q r u).log) (h : Listens s) :
    Tells s w c p q r u := by
  have hv : Listens v := by simpa [Listens, h1] using h
  obtain ⟨e, he, rest⟩ := v.tells_ev c p q r u hv
  exact ⟨e, by rw [h2, he, h1], rest⟩


/-! ### What the computed status can change: the alarm pins, the drive comparison, the claim, health -/

theorem State.each_keep {α β : Type} (π : State → β) (l : List α) (k : State → α → State) (h : ∀ t a, π (k t a) = π t) :
    π (s.each l k) = π s := s.each_keeps (fun t => π t = π s) l k (fun t a e => (h t a).trans e) rfl

@[simp] theorem State.almHolds_pending : (s.almHolds).pending = s.pending := State.each_keep s (fun t => t.pending) _ _ (fun t p => by dsimp only; split <;> simp)
@[simp] theorem State.almHolds_regs : (s.almHolds).regs = s.regs := State.each_keep s (fun t => t.regs) _ _ (fun t p => by dsimp only; split <;> simp)
@[simp] theorem State.almHolds_bufs : (s.almHolds).bufs = s.bufs := State.each_keep s (fun t => t.bufs) _ _ (fun t p => by dsimp only; split <;> simp)
@[simp] theorem State.almHolds_pend : (s.almHolds).pend = s.pend := State.each_keep s (fun t => t.pend) _ _ (fun t p => by dsimp only; split <;> simp)
@[simp] theorem State.almHolds_tai : (s.almHolds).tai = s.tai := State.each_keep s (fun t => t.tai) _ _ (fun t p => by dsimp only; split <;> simp)
@[simp] theorem State.almHolds_mono : (s.almHolds).mono = s.mono := State.each_keep s (fun t => t.mono) _ _ (fun t p => by dsimp only; split <;> simp)
@[simp] theorem State.almHolds_rtc : (s.almHolds).rtc = s.rtc := State.each_keep s (fun t => t.rtc) _ _ (fun t p => by dsimp only; split <;> simp)
@[simp] theorem State.almHolds_free : (s.almHolds).free = s.free := State.each_keep s (fun t => t.free) _ _ (fun t p => by dsimp only; split <;> simp)
@[simp] theorem State.almHolds_loaded : (s.almHolds).loaded = s.loaded := State.each_keep s (fun t => t.loaded) _ _ (fun t p => by dsimp only; split <;> simp)
@[simp] theorem State.almHolds_nor : (s.almHolds).nor = s.nor := State.each_keep s (fun t => t.nor) _ _ (fun t p => by dsimp only; split <;> simp)
@[simp] theorem State.almHolds_dram : (s.almHolds).dram = s.dram := State.each_keep s (fun t => t.dram) _ _ (fun t p => by dsimp only; split <;> simp)
@[simp] theorem State.almHolds_boot : (s.almHolds).boot = s.boot := State.each_keep s (fun t => t.boot) _ _ (fun t p => by dsimp only; split <;> simp)
@[simp] theorem State.almHolds_gate : (s.almHolds).gate = s.gate := State.each_keep s (fun t => t.gate) _ _ (fun t p => by dsimp only; split <;> simp)
@[simp] theorem State.almHolds_fab : (s.almHolds).fab = s.fab := State.each_keep s (fun t => t.fab) _ _ (fun t p => by dsimp only; split <;> simp)
@[simp] theorem State.almHolds_log : (s.almHolds).log = s.log := State.each_keep s (fun t => t.log) _ _ (fun t p => by dsimp only; split <;> simp)
@[simp] theorem State.almHolds_tns : (s.almHolds).tns = s.tns := State.each_keep s (fun t => t.tns) _ _ (fun t p => by dsimp only; split <;> simp)
@[simp] theorem State.almHolds_ports : (s.almHolds).ports = s.ports := State.each_keep s (fun t => t.ports) _ _ (fun t p => by dsimp only; split <;> simp)
@[simp] theorem State.almHolds_red : (s.almHolds).red = s.red := State.each_keep s (fun t => t.red) _ _ (fun t p => by dsimp only; split <;> simp)
@[simp] theorem State.almHolds_ccd : (s.almHolds).ccd = s.ccd := State.each_keep s (fun t => t.ccd) _ _ (fun t p => by dsimp only; split <;> simp)
@[simp] theorem State.almHolds_ing : (s.almHolds).ing = s.ing := State.each_keep s (fun t => t.ing) _ _ (fun t p => by dsimp only; split <;> simp)
@[simp] theorem State.almHolds_pub : (s.almHolds).pub = s.pub := State.each_keep s (fun t => t.pub) _ _ (fun t p => by dsimp only; split <;> simp)
@[simp] theorem State.almHolds_cap : (s.almHolds).cap = s.cap := State.each_keep s (fun t => t.cap) _ _ (fun t p => by dsimp only; split <;> simp)
@[simp] theorem State.almHolds_els : (s.almHolds).els = s.els := State.each_keep s (fun t => t.els) _ _ (fun t p => by dsimp only; split <;> simp)
@[simp] theorem State.almHolds_key : (s.almHolds).key = s.key := State.each_keep s (fun t => t.key) _ _ (fun t p => by dsimp only; split <;> simp)
@[simp] theorem State.almHolds_fwu : (s.almHolds).fwu = s.fwu := State.each_keep s (fun t => t.fwu) _ _ (fun t p => by dsimp only; split <;> simp)
@[simp] theorem State.almHolds_acq : (s.almHolds).acq = s.acq := State.each_keep s (fun t => t.acq) _ _ (fun t p => by dsimp only; split <;> simp)
@[simp] theorem State.almHolds_phs : (s.almHolds).phs = s.phs := State.each_keep s (fun t => t.phs) _ _ (fun t p => by dsimp only; split <;> simp)
@[simp] theorem State.almHolds_qty : (s.almHolds).qty = s.qty := State.each_keep s (fun t => t.qty) _ _ (fun t p => by dsimp only; split <;> simp)

@[simp] theorem State.almPins_pending : (s.almPins).pending = s.pending := by simp [State.almPins]
@[simp] theorem State.almPins_bufs : (s.almPins).bufs = s.bufs := by simp [State.almPins]
@[simp] theorem State.almPins_pend : (s.almPins).pend = s.pend := by simp [State.almPins]
@[simp] theorem State.almPins_tai : (s.almPins).tai = s.tai := by simp [State.almPins]
@[simp] theorem State.almPins_mono : (s.almPins).mono = s.mono := by simp [State.almPins]
@[simp] theorem State.almPins_rtc : (s.almPins).rtc = s.rtc := by simp [State.almPins]
@[simp] theorem State.almPins_free : (s.almPins).free = s.free := by simp [State.almPins]
@[simp] theorem State.almPins_loaded : (s.almPins).loaded = s.loaded := by simp [State.almPins]
@[simp] theorem State.almPins_nor : (s.almPins).nor = s.nor := by simp [State.almPins]
@[simp] theorem State.almPins_dram : (s.almPins).dram = s.dram := by simp [State.almPins]
@[simp] theorem State.almPins_boot : (s.almPins).boot = s.boot := by simp [State.almPins]
@[simp] theorem State.almPins_gate : (s.almPins).gate = s.gate := by simp [State.almPins]
@[simp] theorem State.almPins_fab : (s.almPins).fab = s.fab := by simp [State.almPins]
@[simp] theorem State.almPins_log : (s.almPins).log = s.log := by simp [State.almPins]
@[simp] theorem State.almPins_tns : (s.almPins).tns = s.tns := by simp [State.almPins]
@[simp] theorem State.almPins_ports : (s.almPins).ports = s.ports := by simp [State.almPins]
@[simp] theorem State.almPins_red : (s.almPins).red = s.red := by simp [State.almPins]
@[simp] theorem State.almPins_ccd : (s.almPins).ccd = s.ccd := by simp [State.almPins]
@[simp] theorem State.almPins_ing : (s.almPins).ing = s.ing := by simp [State.almPins]
@[simp] theorem State.almPins_pub : (s.almPins).pub = s.pub := by simp [State.almPins]
@[simp] theorem State.almPins_cap : (s.almPins).cap = s.cap := by simp [State.almPins]
@[simp] theorem State.almPins_els : (s.almPins).els = s.els := by simp [State.almPins]
@[simp] theorem State.almPins_key : (s.almPins).key = s.key := by simp [State.almPins]
@[simp] theorem State.almPins_fwu : (s.almPins).fwu = s.fwu := by simp [State.almPins]
@[simp] theorem State.almPins_acq : (s.almPins).acq = s.acq := by simp [State.almPins]
@[simp] theorem State.almPins_phs : (s.almPins).phs = s.phs := by simp [State.almPins]
@[simp] theorem State.almPins_qty : (s.almPins).qty = s.qty := by simp [State.almPins]

@[simp] theorem State.sendDecisions_pending : (s.sendDecisions).pending = s.pending := by unfold State.sendDecisions; split <;> rfl
@[simp] theorem State.sendDecisions_regs : (s.sendDecisions).regs = s.regs := by unfold State.sendDecisions; split <;> rfl
@[simp] theorem State.sendDecisions_bufs : (s.sendDecisions).bufs = s.bufs := by unfold State.sendDecisions; split <;> rfl
@[simp] theorem State.sendDecisions_pend : (s.sendDecisions).pend = s.pend := by unfold State.sendDecisions; split <;> rfl
@[simp] theorem State.sendDecisions_tai : (s.sendDecisions).tai = s.tai := by unfold State.sendDecisions; split <;> rfl
@[simp] theorem State.sendDecisions_mono : (s.sendDecisions).mono = s.mono := by unfold State.sendDecisions; split <;> rfl
@[simp] theorem State.sendDecisions_rtc : (s.sendDecisions).rtc = s.rtc := by unfold State.sendDecisions; split <;> rfl
@[simp] theorem State.sendDecisions_free : (s.sendDecisions).free = s.free := by unfold State.sendDecisions; split <;> rfl
@[simp] theorem State.sendDecisions_loaded : (s.sendDecisions).loaded = s.loaded := by unfold State.sendDecisions; split <;> rfl
@[simp] theorem State.sendDecisions_nor : (s.sendDecisions).nor = s.nor := by unfold State.sendDecisions; split <;> rfl
@[simp] theorem State.sendDecisions_dram : (s.sendDecisions).dram = s.dram := by unfold State.sendDecisions; split <;> rfl
@[simp] theorem State.sendDecisions_boot : (s.sendDecisions).boot = s.boot := by unfold State.sendDecisions; split <;> rfl
@[simp] theorem State.sendDecisions_gate : (s.sendDecisions).gate = s.gate := by unfold State.sendDecisions; split <;> rfl
@[simp] theorem State.sendDecisions_fab : (s.sendDecisions).fab = s.fab := by unfold State.sendDecisions; split <;> rfl
@[simp] theorem State.sendDecisions_log : (s.sendDecisions).log = s.log := by unfold State.sendDecisions; split <;> rfl
@[simp] theorem State.sendDecisions_tns : (s.sendDecisions).tns = s.tns := by unfold State.sendDecisions; split <;> rfl
@[simp] theorem State.sendDecisions_ports : (s.sendDecisions).ports = s.ports := by unfold State.sendDecisions; split <;> rfl
@[simp] theorem State.sendDecisions_ccd : (s.sendDecisions).ccd = s.ccd := by unfold State.sendDecisions; split <;> rfl
@[simp] theorem State.sendDecisions_sch : (s.sendDecisions).sch = s.sch := by unfold State.sendDecisions; split <;> rfl
@[simp] theorem State.sendDecisions_ing : (s.sendDecisions).ing = s.ing := by unfold State.sendDecisions; split <;> rfl
@[simp] theorem State.sendDecisions_ana : (s.sendDecisions).ana = s.ana := by unfold State.sendDecisions; split <;> rfl
@[simp] theorem State.sendDecisions_pub : (s.sendDecisions).pub = s.pub := by unfold State.sendDecisions; split <;> rfl
@[simp] theorem State.sendDecisions_cap : (s.sendDecisions).cap = s.cap := by unfold State.sendDecisions; split <;> rfl
@[simp] theorem State.sendDecisions_els : (s.sendDecisions).els = s.els := by unfold State.sendDecisions; split <;> rfl
@[simp] theorem State.sendDecisions_key : (s.sendDecisions).key = s.key := by unfold State.sendDecisions; split <;> rfl
@[simp] theorem State.sendDecisions_fwu : (s.sendDecisions).fwu = s.fwu := by unfold State.sendDecisions; split <;> rfl
@[simp] theorem State.sendDecisions_acq : (s.sendDecisions).acq = s.acq := by unfold State.sendDecisions; split <;> rfl
@[simp] theorem State.sendDecisions_phs : (s.sendDecisions).phs = s.phs := by unfold State.sendDecisions; split <;> rfl
@[simp] theorem State.sendDecisions_qty : (s.sendDecisions).qty = s.qty := by unfold State.sendDecisions; split <;> rfl

@[simp] theorem State.driveCompare_pending : (s.driveCompare).pending = s.pending := by simp only [State.driveCompare]; (repeat' split) <;> simp
@[simp] theorem State.driveCompare_bufs : (s.driveCompare).bufs = s.bufs := by simp only [State.driveCompare]; (repeat' split) <;> simp
@[simp] theorem State.driveCompare_pend : (s.driveCompare).pend = s.pend := by simp only [State.driveCompare]; (repeat' split) <;> simp
@[simp] theorem State.driveCompare_tai : (s.driveCompare).tai = s.tai := by simp only [State.driveCompare]; (repeat' split) <;> simp
@[simp] theorem State.driveCompare_mono : (s.driveCompare).mono = s.mono := by simp only [State.driveCompare]; (repeat' split) <;> simp
@[simp] theorem State.driveCompare_rtc : (s.driveCompare).rtc = s.rtc := by simp only [State.driveCompare]; (repeat' split) <;> simp
@[simp] theorem State.driveCompare_free : (s.driveCompare).free = s.free := by simp only [State.driveCompare]; (repeat' split) <;> simp
@[simp] theorem State.driveCompare_loaded : (s.driveCompare).loaded = s.loaded := by simp only [State.driveCompare]; (repeat' split) <;> simp
@[simp] theorem State.driveCompare_nor : (s.driveCompare).nor = s.nor := by simp only [State.driveCompare]; (repeat' split) <;> simp
@[simp] theorem State.driveCompare_dram : (s.driveCompare).dram = s.dram := by simp only [State.driveCompare]; (repeat' split) <;> simp
@[simp] theorem State.driveCompare_boot : (s.driveCompare).boot = s.boot := by simp only [State.driveCompare]; (repeat' split) <;> simp
@[simp] theorem State.driveCompare_gate : (s.driveCompare).gate = s.gate := by simp only [State.driveCompare]; (repeat' split) <;> simp
@[simp] theorem State.driveCompare_fab : (s.driveCompare).fab = s.fab := by simp only [State.driveCompare]; (repeat' split) <;> simp
@[simp] theorem State.driveCompare_tns : (s.driveCompare).tns = s.tns := by simp only [State.driveCompare]; (repeat' split) <;> simp
@[simp] theorem State.driveCompare_ports : (s.driveCompare).ports = s.ports := by simp only [State.driveCompare]; (repeat' split) <;> simp
@[simp] theorem State.driveCompare_ccd : (s.driveCompare).ccd = s.ccd := by simp only [State.driveCompare]; (repeat' split) <;> simp
@[simp] theorem State.driveCompare_ing : (s.driveCompare).ing = s.ing := by simp only [State.driveCompare]; (repeat' split) <;> simp
@[simp] theorem State.driveCompare_pub : (s.driveCompare).pub = s.pub := by simp only [State.driveCompare]; (repeat' split) <;> simp
@[simp] theorem State.driveCompare_cap : (s.driveCompare).cap = s.cap := by simp only [State.driveCompare]; (repeat' split) <;> simp
@[simp] theorem State.driveCompare_els : (s.driveCompare).els = s.els := by simp only [State.driveCompare]; (repeat' split) <;> simp
@[simp] theorem State.driveCompare_key : (s.driveCompare).key = s.key := by simp only [State.driveCompare]; (repeat' split) <;> simp
@[simp] theorem State.driveCompare_fwu : (s.driveCompare).fwu = s.fwu := by simp only [State.driveCompare]; (repeat' split) <;> simp
@[simp] theorem State.driveCompare_acq : (s.driveCompare).acq = s.acq := by simp only [State.driveCompare]; (repeat' split) <;> simp
@[simp] theorem State.driveCompare_phs : (s.driveCompare).phs = s.phs := by simp only [State.driveCompare]; (repeat' split) <;> simp
@[simp] theorem State.driveCompare_qty : (s.driveCompare).qty = s.qty := by simp only [State.driveCompare]; (repeat' split) <;> simp

@[simp] theorem State.claimInForce_pending (c w : Nat) : (s.claimInForce c w).pending = s.pending := by simp only [State.claimInForce]; split <;> simp
@[simp] theorem State.claimInForce_bufs (c w : Nat) : (s.claimInForce c w).bufs = s.bufs := by simp only [State.claimInForce]; split <;> simp
@[simp] theorem State.claimInForce_pend (c w : Nat) : (s.claimInForce c w).pend = s.pend := by simp only [State.claimInForce]; split <;> simp
@[simp] theorem State.claimInForce_tai (c w : Nat) : (s.claimInForce c w).tai = s.tai := by simp only [State.claimInForce]; split <;> simp
@[simp] theorem State.claimInForce_mono (c w : Nat) : (s.claimInForce c w).mono = s.mono := by simp only [State.claimInForce]; split <;> simp
@[simp] theorem State.claimInForce_rtc (c w : Nat) : (s.claimInForce c w).rtc = s.rtc := by simp only [State.claimInForce]; split <;> simp
@[simp] theorem State.claimInForce_free (c w : Nat) : (s.claimInForce c w).free = s.free := by simp only [State.claimInForce]; split <;> simp
@[simp] theorem State.claimInForce_loaded (c w : Nat) : (s.claimInForce c w).loaded = s.loaded := by simp only [State.claimInForce]; split <;> simp
@[simp] theorem State.claimInForce_nor (c w : Nat) : (s.claimInForce c w).nor = s.nor := by simp only [State.claimInForce]; split <;> simp
@[simp] theorem State.claimInForce_dram (c w : Nat) : (s.claimInForce c w).dram = s.dram := by simp only [State.claimInForce]; split <;> simp
@[simp] theorem State.claimInForce_boot (c w : Nat) : (s.claimInForce c w).boot = s.boot := by simp only [State.claimInForce]; split <;> simp
@[simp] theorem State.claimInForce_gate (c w : Nat) : (s.claimInForce c w).gate = s.gate := by simp only [State.claimInForce]; split <;> simp
@[simp] theorem State.claimInForce_fab (c w : Nat) : (s.claimInForce c w).fab = s.fab := by simp only [State.claimInForce]; split <;> simp
@[simp] theorem State.claimInForce_tns (c w : Nat) : (s.claimInForce c w).tns = s.tns := by simp only [State.claimInForce]; split <;> simp
@[simp] theorem State.claimInForce_ports (c w : Nat) : (s.claimInForce c w).ports = s.ports := by simp only [State.claimInForce]; split <;> simp
@[simp] theorem State.claimInForce_ccd (c w : Nat) : (s.claimInForce c w).ccd = s.ccd := by simp only [State.claimInForce]; split <;> simp
@[simp] theorem State.claimInForce_ing (c w : Nat) : (s.claimInForce c w).ing = s.ing := by simp only [State.claimInForce]; split <;> simp
@[simp] theorem State.claimInForce_pub (c w : Nat) : (s.claimInForce c w).pub = s.pub := by simp only [State.claimInForce]; split <;> simp
@[simp] theorem State.claimInForce_cap (c w : Nat) : (s.claimInForce c w).cap = s.cap := by simp only [State.claimInForce]; split <;> simp
@[simp] theorem State.claimInForce_els (c w : Nat) : (s.claimInForce c w).els = s.els := by simp only [State.claimInForce]; split <;> simp
@[simp] theorem State.claimInForce_key (c w : Nat) : (s.claimInForce c w).key = s.key := by simp only [State.claimInForce]; split <;> simp
@[simp] theorem State.claimInForce_fwu (c w : Nat) : (s.claimInForce c w).fwu = s.fwu := by simp only [State.claimInForce]; split <;> simp
@[simp] theorem State.claimInForce_acq (c w : Nat) : (s.claimInForce c w).acq = s.acq := by simp only [State.claimInForce]; split <;> simp
@[simp] theorem State.claimInForce_phs (c w : Nat) : (s.claimInForce c w).phs = s.phs := by simp only [State.claimInForce]; split <;> simp
@[simp] theorem State.claimInForce_qty (c w : Nat) : (s.claimInForce c w).qty = s.qty := by simp only [State.claimInForce]; split <;> simp

@[simp] theorem State.announce_pending (h : Nat) : (s.announce h).pending = s.pending := by simp only [State.announce]; (repeat' split) <;> simp
@[simp] theorem State.announce_bufs (h : Nat) : (s.announce h).bufs = s.bufs := by simp only [State.announce]; (repeat' split) <;> simp
@[simp] theorem State.announce_pend (h : Nat) : (s.announce h).pend = s.pend := by simp only [State.announce]; (repeat' split) <;> simp
@[simp] theorem State.announce_tai (h : Nat) : (s.announce h).tai = s.tai := by simp only [State.announce]; (repeat' split) <;> simp
@[simp] theorem State.announce_mono (h : Nat) : (s.announce h).mono = s.mono := by simp only [State.announce]; (repeat' split) <;> simp
@[simp] theorem State.announce_rtc (h : Nat) : (s.announce h).rtc = s.rtc := by simp only [State.announce]; (repeat' split) <;> simp
@[simp] theorem State.announce_free (h : Nat) : (s.announce h).free = s.free := by simp only [State.announce]; (repeat' split) <;> simp
@[simp] theorem State.announce_loaded (h : Nat) : (s.announce h).loaded = s.loaded := by simp only [State.announce]; (repeat' split) <;> simp
@[simp] theorem State.announce_nor (h : Nat) : (s.announce h).nor = s.nor := by simp only [State.announce]; (repeat' split) <;> simp
@[simp] theorem State.announce_dram (h : Nat) : (s.announce h).dram = s.dram := by simp only [State.announce]; (repeat' split) <;> simp
@[simp] theorem State.announce_boot (h : Nat) : (s.announce h).boot = s.boot := by simp only [State.announce]; (repeat' split) <;> simp
@[simp] theorem State.announce_gate (h : Nat) : (s.announce h).gate = s.gate := by simp only [State.announce]; (repeat' split) <;> simp
@[simp] theorem State.announce_fab (h : Nat) : (s.announce h).fab = s.fab := by simp only [State.announce]; (repeat' split) <;> simp
@[simp] theorem State.announce_tns (h : Nat) : (s.announce h).tns = s.tns := by simp only [State.announce]; (repeat' split) <;> simp
@[simp] theorem State.announce_ports (h : Nat) : (s.announce h).ports = s.ports := by simp only [State.announce]; (repeat' split) <;> simp
@[simp] theorem State.announce_ccd (h : Nat) : (s.announce h).ccd = s.ccd := by simp only [State.announce]; (repeat' split) <;> simp
@[simp] theorem State.announce_ing (h : Nat) : (s.announce h).ing = s.ing := by simp only [State.announce]; (repeat' split) <;> simp
@[simp] theorem State.announce_pub (h : Nat) : (s.announce h).pub = s.pub := by simp only [State.announce]; (repeat' split) <;> simp
@[simp] theorem State.announce_cap (h : Nat) : (s.announce h).cap = s.cap := by simp only [State.announce]; (repeat' split) <;> simp
@[simp] theorem State.announce_els (h : Nat) : (s.announce h).els = s.els := by simp only [State.announce]; (repeat' split) <;> simp
@[simp] theorem State.announce_key (h : Nat) : (s.announce h).key = s.key := by simp only [State.announce]; (repeat' split) <;> simp
@[simp] theorem State.announce_fwu (h : Nat) : (s.announce h).fwu = s.fwu := by simp only [State.announce]; (repeat' split) <;> simp
@[simp] theorem State.announce_acq (h : Nat) : (s.announce h).acq = s.acq := by simp only [State.announce]; (repeat' split) <;> simp
@[simp] theorem State.announce_phs (h : Nat) : (s.announce h).phs = s.phs := by simp only [State.announce]; (repeat' split) <;> simp
@[simp] theorem State.announce_qty (h : Nat) : (s.announce h).qty = s.qty := by simp only [State.announce]; (repeat' split) <;> simp

@[simp] theorem State.health_pending : (s.health).pending = s.pending := by simp only [State.health]; (repeat' split) <;> simp
@[simp] theorem State.health_bufs : (s.health).bufs = s.bufs := by simp only [State.health]; (repeat' split) <;> simp
@[simp] theorem State.health_pend : (s.health).pend = s.pend := by simp only [State.health]; (repeat' split) <;> simp
@[simp] theorem State.health_tai : (s.health).tai = s.tai := by simp only [State.health]; (repeat' split) <;> simp
@[simp] theorem State.health_mono : (s.health).mono = s.mono := by simp only [State.health]; (repeat' split) <;> simp
@[simp] theorem State.health_rtc : (s.health).rtc = s.rtc := by simp only [State.health]; (repeat' split) <;> simp
@[simp] theorem State.health_free : (s.health).free = s.free := by simp only [State.health]; (repeat' split) <;> simp
@[simp] theorem State.health_loaded : (s.health).loaded = s.loaded := by simp only [State.health]; (repeat' split) <;> simp
@[simp] theorem State.health_nor : (s.health).nor = s.nor := by simp only [State.health]; (repeat' split) <;> simp
@[simp] theorem State.health_dram : (s.health).dram = s.dram := by simp only [State.health]; (repeat' split) <;> simp
@[simp] theorem State.health_boot : (s.health).boot = s.boot := by simp only [State.health]; (repeat' split) <;> simp
@[simp] theorem State.health_gate : (s.health).gate = s.gate := by simp only [State.health]; (repeat' split) <;> simp
@[simp] theorem State.health_fab : (s.health).fab = s.fab := by simp only [State.health]; (repeat' split) <;> simp
@[simp] theorem State.health_tns : (s.health).tns = s.tns := by simp only [State.health]; (repeat' split) <;> simp
@[simp] theorem State.health_ports : (s.health).ports = s.ports := by simp only [State.health]; (repeat' split) <;> simp
@[simp] theorem State.health_ccd : (s.health).ccd = s.ccd := by simp only [State.health]; (repeat' split) <;> simp
@[simp] theorem State.health_ing : (s.health).ing = s.ing := by simp only [State.health]; (repeat' split) <;> simp
@[simp] theorem State.health_pub : (s.health).pub = s.pub := by simp only [State.health]; (repeat' split) <;> simp
@[simp] theorem State.health_cap : (s.health).cap = s.cap := by simp only [State.health]; (repeat' split) <;> simp
@[simp] theorem State.health_els : (s.health).els = s.els := by simp only [State.health]; (repeat' split) <;> simp
@[simp] theorem State.health_key : (s.health).key = s.key := by simp only [State.health]; (repeat' split) <;> simp
@[simp] theorem State.health_fwu : (s.health).fwu = s.fwu := by simp only [State.health]; (repeat' split) <;> simp
@[simp] theorem State.health_acq : (s.health).acq = s.acq := by simp only [State.health]; (repeat' split) <;> simp
@[simp] theorem State.health_phs : (s.health).phs = s.phs := by simp only [State.health]; (repeat' split) <;> simp
@[simp] theorem State.health_qty : (s.health).qty = s.qty := by simp only [State.health]; (repeat' split) <;> simp


/-- The registers of the claim, the health score and the alarm pins: what the computed status writes. -/
def statusFields : List Field :=
  [ANA_PIN_STATE_LOGIC, ANA_PIN_STATE_DRIVEN, RED_STAT_DRIVING, RED_HO_CNT_COUNT, RED_STAT_ACKWAIT, RED_CLAIM_INFORCE, RED_HEALTH_HELD,
    RED_CLAIM_ANNOUNCED, RED_HEALTH_COND, RED_HEALTH_SCORE, RED_STAT_HOLDOFF]

section
variable (g : Field) (h : fieldKey g ∉ statusFields.map fieldKey)
include h

theorem statusFields_ne {f : Field} (hf : f ∈ statusFields) : fieldKey f ≠ fieldKey g :=
  fun e => h (e ▸ List.mem_map_of_mem hf)

theorem State.almPins_rd : s.almPins.rd g = s.rd g := by
  have h1 : s.almHolds.rd g = s.rd g := by simp [State.rd]
  simp only [State.almPins]
  rw [State.rd_wr_ne _ _ _ _ (statusFields_ne g h (by simp [statusFields])), State.rd_wr_ne _ _ _ _ (statusFields_ne g h (by simp [statusFields])), h1]

theorem State.wr_status {f : Field} (v : Nat) (hf : f ∈ statusFields) : (s.wr f v).rd g = s.rd g :=
  s.rd_wr_ne f g v (statusFields_ne g h hf)

theorem State.driveCompare_rd : s.driveCompare.rd g = s.rd g := by
  have h1 : ∀ u : State, u.sendDecisions.rd g = u.rd g := fun u => by simp [State.rd]
  have h2 : ∀ (u : State) (n : Nat), (u.wr RED_STAT_DRIVING n).rd g = u.rd g := fun u n => u.wr_status g h n (by simp [statusFields])
  have h3 : ∀ u : State, (u.cnt RED_HO_CNT_COUNT).rd g = u.rd g := fun u => u.wr_status g h _ (by simp [statusFields])
  simp only [State.driveCompare]
  split
  · rfl
  · rw [State.almPins_rd _ g h, h1]
    split <;> simp [h2, h3]

theorem State.claimInForce_rd (c w : Nat) : (s.claimInForce c w).rd g = s.rd g := by
  have h1 : ∀ (u : State) (n : Nat), (u.wr RED_STAT_ACKWAIT n).rd g = u.rd g := fun u n => u.wr_status g h n (by simp [statusFields])
  have h2 : ∀ (u : State) (n : Nat), (u.wr RED_CLAIM_INFORCE n).rd g = u.rd g := fun u n => u.wr_status g h n (by simp [statusFields])
  simp only [State.claimInForce]
  split
  · rw [h1]; rfl
  · rw [State.driveCompare_rd _ g h, State.ev_rd, h2, h1]; rfl

theorem State.announce_rd (c : Nat) : (s.announce c).rd g = s.rd g := by
  have h1 : ∀ (u : State) (n : Nat), (u.wr RED_HEALTH_HELD n).rd g = u.rd g := fun u n => u.wr_status g h n (by simp [statusFields])
  have h2 : ∀ (u : State) (n : Nat), (u.wr RED_CLAIM_ANNOUNCED n).rd g = u.rd g := fun u n => u.wr_status g h n (by simp [statusFields])
  have h3 : ∀ (u : State) (n : Nat), (u.wr RED_STAT_ACKWAIT n).rd g = u.rd g := fun u n => u.wr_status g h n (by simp [statusFields])
  simp only [State.announce]
  split
  · rw [h1]
  · split
    · rw [State.claimInForce_rd _ g h, State.ev_rd, h2, h1]
    · have : ∀ (u : State) (r : Redund), ({ u with red := r } : State).rd g = u.rd g := fun _ _ => rfl
      rw [this, h3, State.ev_rd, h2, h1]

/-- The health score's recomputation writes no register but those of the claim, the score and the alarm pins. -/
theorem State.health_rd : s.health.rd g = s.rd g := by
  have h1 : ∀ (u : State) (n : Nat), (u.wr RED_HEALTH_COND n).regs.get g = u.regs.get g := fun u n => u.wr_status g h n (by simp [statusFields])
  have h2 : ∀ (u : State) (n : Nat), (u.wr RED_HEALTH_SCORE n).regs.get g = u.regs.get g := fun u n => u.wr_status g h n (by simp [statusFields])
  have h3 : ∀ (u : State) (n : Nat), (u.wr RED_STAT_HOLDOFF n).regs.get g = u.regs.get g := fun u n => u.wr_status g h n (by simp [statusFields])
  have h5 : ∀ (u : State) (n : Nat), (u.announce n).regs.get g = u.regs.get g := fun u n => u.announce_rd g h n
  unfold State.rd
  simp only [State.health]
  repeat' split
  all_goals simp [h1, h2, h3, h5]

end

/-! ### The state a command leaves -/

theorem finish_pending : (finish s t).pending = s.pending := (rfl)

@[simp] theorem finish_regs : (finish s t).regs = t.regs := (rfl)
@[simp] theorem finish_bufs : (finish s t).bufs = t.bufs := (rfl)
@[simp] theorem finish_pend : (finish s t).pend = t.pend := (rfl)
@[simp] theorem finish_tai : (finish s t).tai = t.tai := (rfl)
@[simp] theorem finish_mono : (finish s t).mono = t.mono := (rfl)
@[simp] theorem finish_rtc : (finish s t).rtc = t.rtc := (rfl)
@[simp] theorem finish_free : (finish s t).free = t.free := (rfl)
@[simp] theorem finish_loaded : (finish s t).loaded = t.loaded := (rfl)
@[simp] theorem finish_nor : (finish s t).nor = t.nor := (rfl)
@[simp] theorem finish_dram : (finish s t).dram = t.dram := (rfl)
@[simp] theorem finish_boot : (finish s t).boot = t.boot := (rfl)
@[simp] theorem finish_gate : (finish s t).gate = t.gate := (rfl)
@[simp] theorem finish_log : (finish s t).log = t.log := (rfl)
@[simp] theorem finish_tns : (finish s t).tns = t.tns := (rfl)
@[simp] theorem finish_ports : (finish s t).ports = t.ports := (rfl)
@[simp] theorem finish_red : (finish s t).red = t.red := (rfl)
@[simp] theorem finish_ccd : (finish s t).ccd = t.ccd := (rfl)
@[simp] theorem finish_sch : (finish s t).sch = t.sch := (rfl)
@[simp] theorem finish_ing : (finish s t).ing = t.ing := (rfl)
@[simp] theorem finish_ana : (finish s t).ana = t.ana := (rfl)
@[simp] theorem finish_pub : (finish s t).pub = t.pub := (rfl)
@[simp] theorem finish_cap : (finish s t).cap = t.cap := (rfl)
@[simp] theorem finish_els : (finish s t).els = t.els := (rfl)
@[simp] theorem finish_key : (finish s t).key = t.key := (rfl)
@[simp] theorem finish_fwu : (finish s t).fwu = t.fwu := (rfl)
@[simp] theorem finish_acq : (finish s t).acq = t.acq := (rfl)
@[simp] theorem finish_phs : (finish s t).phs = t.phs := (rfl)
@[simp] theorem finish_qty : (finish s t).qty = t.qty := (rfl)
@[simp] theorem finish_rd (g : Field) : (finish s t).rd g = t.rd g := (rfl)
@[simp] theorem finish_rdBuf (g : Field) : (finish s t).rdBuf g = t.rdBuf g := (rfl)
@[simp] theorem finish_inner : (finish s t).fab.inner = t.fab.inner := (rfl)
@[simp] theorem finish_shadow : (finish s t).fab.shadow = t.fab.shadow := (rfl)
@[simp] theorem finish_rdMc : (finish s t).fab.rdMc = t.fab.rdMc := (rfl)
@[simp] theorem finish_rdHost : (finish s t).fab.rdHost = t.fab.rdHost := (rfl)
@[simp] theorem finish_qspiErr : (finish s t).fab.qspiErr = t.fab.qspiErr := (rfl)
@[simp] theorem finish_respMc : (finish s t).fab.respMc = t.fab.respMc := (rfl)
@[simp] theorem finish_respHost : (finish s t).fab.respHost = t.fab.respHost := (rfl)
@[simp] theorem finish_dpHeld : (finish s t).fab.dpHeld = t.fab.dpHeld := (rfl)
@[simp] theorem finish_dpOp : (finish s t).fab.dpOp = t.fab.dpOp := (rfl)
@[simp] theorem finish_dpLen : (finish s t).fab.dpLen = t.fab.dpLen := (rfl)
@[simp] theorem finish_dpAddr : (finish s t).fab.dpAddr = t.fab.dpAddr := (rfl)

/-- What holds of the state that a command's effect leaves holds of its answer. -/
theorem runs_done {c : Instr} {s t : State} {P : State → Prop} (h : exec c s = done s t) (hp : P (finish s t)) : Runs c s P :=
  ⟨_, h, hp⟩

theorem tells_finish {s t : State} {c p q r u : Nat} (h : Tells s t c p q r u) : Tells s (finish s t) c p q r u := h

/-! ### Frames -/

theorem KeepsRegs.of_regs {fs : List Field} {s t : State} (h : t.regs = s.regs) : KeepsRegs fs s t := fun g _ => by
  simp [State.rd, h]

theorem KeepsRegs.wr {fs : List Field} {s t : State} {f : Field} {v : Nat} (hf : f ∈ fs) (h : KeepsRegs fs s t) :
    KeepsRegs fs s (t.wr f v) := fun g hg =>
  (t.rd_wr_ne f g v (fun e => hg (e ▸ List.mem_map_of_mem hf))).trans (h g hg)

theorem KeepsRegs.trans {fs : List Field} {s t u : State} (h : KeepsRegs fs s t) (h2 : KeepsRegs fs t u) : KeepsRegs fs s u :=
  fun g hg => (h2 g hg).trans (h g hg)

theorem KeepsRegs.mono {fs gs : List Field} {s t : State} (hs : ∀ f ∈ fs, f ∈ gs) (h : KeepsRegs fs s t) : KeepsRegs gs s t :=
  fun g hg => h g (fun hm => hg (by
    obtain ⟨f, hf, e⟩ := List.mem_map.mp hm
    exact e ▸ List.mem_map_of_mem (hs f hf)))

theorem KeepsRegs.health {fs : List Field} {s t : State} (hs : ∀ f ∈ statusFields, f ∈ fs) (h : KeepsRegs fs s t) :
    KeepsRegs fs s t.health := fun g hg =>
  (t.health_rd g (fun hm => hg (by
    obtain ⟨f, hf, e⟩ := List.mem_map.mp hm
    exact e ▸ List.mem_map_of_mem (hs f hf)))).trans (h g hg)

/-! ### The output lines -/

/-- The lines depend on nothing the fabric itself holds. -/
theorem State.irqLines_fab (f : Fabric) : ({ s with fab := f } : State).irqLines = s.irqLines := (rfl)
theorem State.nmiLine_fab (f : Fabric) : ({ s with fab := f } : State).nmiLine = s.nmiLine := (rfl)

/-- The state a command leaves has its lines where their sources put them. -/
theorem linesFollow_finish : LinesFollow (finish s t) := ⟨(rfl), (rfl)⟩

theorem linesFollow_withMsix (l : List Nat) (h : LinesFollow s) : LinesFollow (s.withMsix l) :=
  ⟨h.1.trans (s.irqLines_fab _).symm, h.2.trans (s.nmiLine_fab _).symm⟩

end Sys2Proof.Machine
end

