-- ==== Sys2Proof/Laws/Time.lean ====
section
/-! SUPPORT. What the passing of time does to the counter and the clocks (R71, R86, R88). -/

namespace Sys2Proof.Machine

variable (s : State) (n x d : Nat)

theorem State.tickN_pos : 0 < s.tickN := by unfold State.tickN; split <;> decide

theorem tickU_pos : 0 < tickU := by decide

theorem State.ticks_tai : (s.ticks n).tai = s.tai + n * s.tickInc := by simp only [State.ticks]
theorem State.ticks_mono : (s.ticks n).mono = s.mono + n * (s.tickN * tickU) := by simp only [State.ticks]
theorem State.tick_tai : s.tick.tai = s.tai + s.tickInc := by simp [State.tick, State.ticks_tai]
theorem State.tick_mono : s.tick.mono = s.mono + s.tickN * tickU := by simp [State.tick, State.ticks_mono]
/-- While the clocks of PD1 run, a tick adds the increment for each core clock it stands for. -/
theorem State.tickInc_up (h : s.up = true) : s.tickInc = s.tickN * s.inc := by simp [State.tickInc, h]
/-- The counter stands still while the clocks of PD1 do not run. -/
theorem State.tickInc_down (h : s.up = false) : s.tickInc = 0 := by simp [State.tickInc, h]
@[simp] theorem State.dark_mono : (s.dark d).mono = s.mono + d := by simp only [State.dark]
@[simp] theorem State.dark_rtc : (s.dark d).rtc = s.rtc + d := by simp only [State.dark]

theorem State.waitUntil_eq : s.waitUntil x =
    if x ≤ s.mono then s else s.ticks ((x - s.mono + s.tickN * tickU - 1) / (s.tickN * tickU)) := by
  simp only [State.waitUntil]

theorem ceil_reach (a b : Nat) (hb : 0 < b) : a ≤ (a + b - 1) / b * b := by
  have h1 := Nat.div_add_mod (a + b - 1) b
  have h2 := Nat.mod_lt (a + b - 1) hb
  rw [Nat.mul_comm] at h1
  omega

/-- After a wait for an instant of the running time, that instant has come. -/
theorem State.waitUntil_reaches : x ≤ (s.waitUntil x).mono := by
  rw [State.waitUntil_eq]
  split
  · assumption
  · rw [State.ticks_mono]
    have := ceil_reach (x - s.mono) (s.tickN * tickU) (Nat.mul_pos s.tickN_pos tickU_pos)
    omega

/-- A wait never goes back. -/
theorem State.waitUntil_mono_le : s.mono ≤ (s.waitUntil x).mono := by
  rw [State.waitUntil_eq]
  split
  · exact Nat.le_refl _
  · rw [State.ticks_mono]; exact Nat.le_add_right _ _

theorem State.waitUntil_past (h : x ≤ s.mono) : s.waitUntil x = s := by rw [State.waitUntil_eq, if_pos h]

theorem State.advanceTo_eq : s.advanceTo x =
    if x ≤ s.tai then s else if s.tickInc = 0 then s else s.ticks ((x - s.tai + s.tickInc - 1) / s.tickInc) := by
  unfold State.advanceTo
  rfl

/-- After a wait for an instant of the counter, that instant has come, unless the counter stands still. -/
theorem State.advanceTo_reaches (h : 0 < s.tickInc) : x ≤ (s.advanceTo x).tai := by
  rw [State.advanceTo_eq]
  split
  · assumption
  · split
    · omega
    · rw [State.ticks_tai]
      have := ceil_reach (x - s.tai) s.tickInc h
      omega

theorem State.advanceTo_past (h : x ≤ s.tai) : s.advanceTo x = s := by rw [State.advanceTo_eq, if_pos h]

end Sys2Proof.Machine
end

