-- ==== Sys2Proof/Tests/Slice0.lean ====
section
/-! SUPPORT. Tests of the model, one step each on small states, and for every statement a state and operands that meet its hypotheses.
Expected results come from the rules of spec/ named beside them. -/

namespace Sys2Proof.Tests
open Sys2Proof Sys2Proof.Machine
set_option Elab.async false

/-- In service, all domains on, the recorder running. -/
def svc : State :=
  let s := State.reset
  let s := { s with boot := { s.boot with stage := .run, pd0Lost := false }, log := { s.log with running := true, rateEnd := 1 }, red := { s.red with live := true } }
  (s.wr PWR_STAT_ON 255).wr SYS_BOOT_STAT_PHASE 9
/-- `svc` with the DRAM partitions at their default sizes. -/
def svcP : State := { svc with cap.parts := [1536, 5632, 64, 64, 64, 64, 64, 64, 64, 64] }
/-- `svc` with port `n` in mode `v`, its references and its link up. -/
def upPort (n v : Nat) : State :=
  ((((svc.wr (NET_P_CFG_MODE n) v).wr (NET_P_STAT_LINK n) 1).wr NET_SREF_STAT_SREF0_OK 1).wr NET_SREF_STAT_SREF1_OK 1)
/-- A frame to the broadcast address, of the given type and length. -/
def frame (et n : Nat) : List Byte :=
  beBytes 6 0xFFFFFFFFFFFF ++ beBytes 6 0x020000000001 ++ beBytes 2 et ++ zeros (n - 14)
/-- A received frame as the FIFO holds it. -/
def entry (bs : List Byte) : RxEntry := ⟨bs, bs.length + 4, 0, 0, 0, false, none, false⟩
/-- A frame waiting to be sent. -/
def txF (n : Nat) : TxFrame := ⟨3, frame 0x0806 n, false, false⟩
/-- A C37.118 data frame of 54 bytes in a UDP datagram to port 0x1269. -/
def c37Frame : List Byte :=
  insertSums false (beBytes 6 0xFFFFFFFFFFFF ++ beBytes 6 0x020000000001 ++ beBytes 2 0x0800
    ++ beBytes 4 0x45000052 ++ zeros 4 ++ beBytes 4 0x40110000 ++ beBytes 4 0x0A000001 ++ beBytes 4 0x0A000002
    ++ beBytes 4 0x12691269 ++ beBytes 4 0x003E0000 ++ beBytes 4 0xAA010036 ++ zeros 50)
/-- The header frame a coded block holds. -/
def codedInner : List Byte :=
  let h := zeros 4 ++ leBytes 4 52 ++ [1, 2] ++ zeros 38
  h ++ leBytes 4 (crc32c h)
/-- A coded block, stored uncompressed. -/
def codedBlock : List Byte :=
  zeros 16 ++ leBytes 2 0x4245 ++ [0x80, 0] ++ leBytes 4 52 ++ leBytes 4 52 ++ leBytes 4 (crc32c codedInner) ++ codedInner ++ zeros 4
/-- A coded frame waiting for Elision. -/
def codedIn : CodedIn := ⟨7, entry (frame 0x0800 60), 2, codedBlock, []⟩
/-- `svc` with acquisition enabled and the lanes of `en` enabled. -/
def acqS (en : Nat) : State := (svc.wr ACQ_CFG_EN 1).wr ACQ_LANE_EN_EN en
/-- `svc` with the phasor unit enabled. -/
def phsS : State := svc.wr PHS_CFG_EN 1
/-- A sample at instant `sec`, `n`. -/
def smpAt (sec n : Nat) : Smp := ⟨sec, n, 0, 0, false, 0, List.replicate 24 0, List.replicate 192 0⟩
/-- `svc` with the slots running at 50 in a second. -/
def ccdS : State := { svc.wr CCD_STAT_RATE_ACT 50 with ccd := { concord0 with started := true, grid := (1, 0) } }
/-- A slot of serial `n` and state `st`. -/
def slotOf (n st : Nat) : Slot := { slot0 with serial := n, st := st }
/-- `ccdS` with one slot in its ring position. -/
def ccdWith (sl : Slot) : State := { ccdS with ccd.ring := [(sl.serial % 128, sl)] }
/-- An item of the scheduler. -/
def itemOf (h typ serial : Nat) : Item := ⟨h, 0, typ, 0, 0, serial, none, [1], 0, 0, 0, [], none, [], []⟩
/-- `svc` with a partner. -/
def pairS : State := svc.wrV RED_CFG_PAIR_EN 1
/-- A UDP datagram with the given payload, from 10.0.0.1. -/
def udpFrame (p : List Byte) : List Byte :=
  insertSums false (beBytes 6 0xFFFFFFFFFFFF ++ beBytes 6 0x020000000001 ++ beBytes 2 0x0800
    ++ beBytes 2 0x4500 ++ beBytes 2 (28 + p.length) ++ zeros 4 ++ beBytes 4 0x40110000 ++ beBytes 4 0x0A000001 ++ beBytes 4 0x0A000002
    ++ beBytes 4 0x12691269 ++ beBytes 2 (8 + p.length) ++ zeros 2 ++ p)
/-- The payload of a flow datagram with one record of zeros. -/
def flowPay : List Byte :=
  let h := beBytes 4 0x474B4652 ++ leBytes 2 44 ++ [1, 1] ++ zeros 32
  h ++ leBytes 4 (crc32c h)
/-- `svc` with metering enabled. -/
def qtyS : State := svc.wr QTY_CFG_EN 1
/-- A publisher frame of stream 5. -/
def pubF (kind : Nat) : PubFrame := ⟨5, 3, 0, kind, false, 0, frame 0x0800 60⟩
/-- Six ports, port `n` as given. -/
def portsWith (n : Nat) (p : Port) : List Port := (List.range 6).map (fun k => if k = n then p else port0)
/-- `svc` with a key in slot `k` of the given world and type that serves both masters. -/
def keyS (k world typ : Nat) : State :=
  { ((((svc.wr (KSL_STATE k) 1).wr (KSL_WORLD k) world).wr (KSL_TYPE k) typ).wr (KSL_LCMASK k) 7).wr (KSL_MASTERS k) 3 with
    key := { svc.key with cur := [(k, ⟨[5], [6]⟩)] } }
/-- `svc` with staging owned by master `m`. -/
def stgS (m : Master) : State := svc.wr FWU_STG_STAT_OWNER (ownerOf m)
/-- A record of sequence number `n`. -/
def recOf (n : Nat) : Rec := ⟨n, 0, 0, false, false, 0, 0x7020, 1, 2, 3, 4⟩
/-- An event that waits to be recorded. -/
def evOf (c : Nat) : Ev := ⟨c, 1, 2, 3, 4, 0, 0, 0⟩

/-- The state after a command; the same state if it stops. -/
def after (c : Instr) (s : State) : State :=
  match exec c s with
  | .next t => t
  | _ => s

/-! ### Numbers of the spec's own examples -/

/-- R104: the reporting rates of each system frequency. -/
theorem test_rates : (List.range 256).filter (rateOk false) = [10, 25, 50, 100, 200]
    ∧ (List.range 256).filter (rateOk true) = [10, 12, 15, 20, 30, 60, 120, 240] := by decide +kernel

/-- The published check value of each CRC that the spec names, over the digits 1 to 9. -/
theorem test_crcs : crc32c [0x31, 0x32, 0x33, 0x34, 0x35, 0x36, 0x37, 0x38, 0x39] = 0xE3069283
    ∧ crcCcitt [0x31, 0x32, 0x33, 0x34, 0x35, 0x36, 0x37, 0x38, 0x39] = 0x29B1 := by decide +kernel

/-- The start-up example: XDLY 0b011 gives 2 ms, and SYS_STRAP reads 3. -/
theorem test_straps : ((after (.strapSample 3 0 0) { svc with boot.stage := .strap }).rd SYS_STRAP_XDLY) = 3
    ∧ ((after (.strapSample 3 0 0) { svc with boot.stage := .strap }).rd SYS_STRAP_BOOT_MODE) = 0
    ∧ (after .refStartDelayEnd ({ svc with boot.stage := .refDelay, mono := 21320 * nsU }.wr SYS_STRAP_XDLY 3)).mono = 2021320 * nsU := by decide +kernel

/-- The pause example on 10GBASE-R: 0x0400 quanta start when the frame being sent ends, at 0.8064 µs, and run to 53.2352 µs. -/
theorem test_pause : (((after (.pauseFrame 1 0x400) { (upPort 1 3).wr (NET_P_CFG_PAUSE_HON 1) 1 with
      mono := 300 * nsU, ports := portsWith 1 { port0 with txUntil := psU 806400 } }).port 1).pause) = some (psU 806400, psU 806400 + psU 52428800) := by
  decide +kernel

/-- The example of the settings buffers: the strobe 0x1300 takes CCD, ANA and QTY, and SYS_APPLY_STAT reads it back. -/
theorem test_apply : (after (.applyStrobe .host 0x1300) ({ svc.wrBuf CCD_WAIT_WAIT 5 with ccd := concord0 })).rd SYS_APPLY_STAT_PEND = 0x1300 := by
  decide +kernel

/-- The same example's index 0x0002_0075 names entry 117 of table 2. -/
theorem test_table_index : ((after (.registerWrite ⟨.host, (TP_IDX_ENTRY 9 1).addr, 4, 0x20075⟩ none) svc).rd (TP_IDX_ENTRY 9 1),
    (after (.registerWrite ⟨.host, (TP_IDX_ENTRY 9 1).addr, 4, 0x20075⟩ none) svc).rd (TP_IDX_TABLE 9 1)) = (0x75, 2) := by decide +kernel

/-- The claim example: role 3, held health 0xF7, PAIR_POS high and a serial number ending in 0b100 give 0x3F7C. -/
theorem test_claim : (((svc.wrV RED_CFG_ROLE 3).wr SYS_STRAP_PAIR_POS 1).wr SYS_SN_LO_SN 4).claimOf 0xF7 = 0x3F7C := by decide +kernel

/-- The metering example: INC0 across the wrap of the register. -/
theorem test_increment : increment ⟨1199290448384, 0, 3⟩ (18446744073000000000, 2) = 1200000000000 := by decide +kernel

/-- Its demand: 1,200,000,000,000 µWh over 900 s is 4,800,000,000 mW. -/
theorem test_demand :
    let s := ({ svc with qty.points := [(7, { mPoint0 with regs := [⟨1199290448384, 0, 3⟩], base := [(18446744073000000000, 2)] })] } : State)
    (s.demand 7 900000000000).rd (ptMdLo 7) + (s.demand 7 900000000000).rd (ptMdHi 7) * 2 ^ 32 = 4800000000 := by decide +kernel

/-- The capture example: the capacity with 48 channels, 4,096 MiB and 64 instants in a block; CAP_POST 0x0200_0000 is clamped to 0x014A_DBE0. -/
def capS : State :=
  ((List.range 6).foldl (fun (s : State) i => s.wr (CAP_CHMASK_MASK i) (if i = 0 then 0xFFFFFFFF else if i = 1 then 0xFFFF else 0)) { svcP with cap.parts := [4096] }).wr CAP_CFG_MODE 1
    |>.wrBoth CAP_PRE_PRE 12000

theorem test_capacity : capS.capacity = 21695168 := by decide +kernel

theorem test_post_clamped : (after (.capPostWrite .host 0x2000000) capS).rdBuf CAP_POST_POST = 0x014ADBE0
    ∧ (after (.capPostWrite .host 0x2000000) capS).rd CAP_STAT_CLAMPED = 1 := by decide +kernel

/-! ### Reset, the queue and decoding -/

theorem test_reset_memory : Memory.wf norErased State.reset.nor = true ∧ Memory.wf dramBlank State.reset.dram = true := by decide +kernel

/-- Register tables: defaults of a setting, a status and a version field. -/
theorem test_reset_registers : State.reset.rd LOG_CFG_RATE_MAX = 0x10 ∧ State.reset.rd LOG_RD_STAT_RESULT = 1 ∧ State.reset.rd CAP_CFG_BLK_INST = 0x40
    ∧ State.reset.pending = [] := by decide +kernel

/-- The table of operations gives no row any bits (log 7). -/
theorem test_no_words : decodeTableWord 8 0 = none ∧ decodeTableWord 32 0xFFFFFFFF = none := by decide +kernel

/-! ### Ill-formed commands -/

/-- The terms are refused. -/
def refused (l : List Instr) : Bool := l.all (fun c => !c.wf)

/-- An origin of a command frame, and ones with one field out of range. -/
def fromOk : CmdFrom := ⟨7, 0x0A000001, 4712, false, 5, 0x020000000001⟩
def fromBad : List CmdFrom := [{ fromOk with idcode := 2 ^ 16 }, { fromOk with ip := 2 ^ 32 }, { fromOk with sport := 2 ^ 16 }, { fromOk with port := 6 }, { fromOk with mac := 2 ^ 48 }]

theorem test_wf_access : refused [.registerWrite ⟨.mc, 0x10, 3, 0⟩ none, .registerWrite ⟨.mc, 2 ^ 32, 4, 0⟩ none, .registerWrite ⟨.mc, 0x10, 1, 256⟩ none,
    .registerWrite ⟨.mc, 0x10, 4, 0⟩ (some ⟨.mc, 0x14, 4, 0⟩), .registerWrite ⟨.mc, 0x10, 4, 0⟩ (some ⟨.host, 0x14, 5, 0⟩), .pairLowRead ⟨.mc, 0x10, 4, 2 ^ 32⟩,
    .tnsIncWrite .mc none none, .tnsIncWrite .mc (some (2 ^ 32)) none, .tnsIncWrite .mc none (some (2 ^ 32)), .capRdptrWrite .host none none,
    .ccdCfgWrite .mc ⟨.host, 0x70000, 4, 0⟩, .ccdCfgWrite .mc ⟨.mc, 0x70008, 4, 0⟩, .ccdCfgWrite .mc ⟨.mc, 0x70000, 4, 2 ^ 32⟩] = true := by decide +kernel

theorem test_wf_start : refused [.strapSample 8 0 0, .strapSample 0 4 0, .strapSample 0 0 2, .monitorWindowEnd 1024, .pllLock 401 0 0, .ircTrim 4096, .gateClose 19,
    .quiesceTimeout 19 0 .mc true, .quiesceTimeout 0 (2 ^ 32) .mc true, .hibernate .mc (2 ^ 32)] = true := by decide +kernel

theorem test_wf_blocks : refused [.blkClr .mc 20 [], .blkLock .mc 20 0, .blkLock .mc 0 (2 ^ 32), .tableRead .mc 20, .tableWrite .mc 20, .tableCommandDone .mc 20,
    .applyStrobe .mc (2 ^ 32), .applyTakeEffect (2 ^ 20), .nmiAck .mc (2 ^ 32) 0, .nmiAck .mc 0 32, .pcieLinkChange 2 0 0, .pcieLinkChange 0 4 0, .pcieLinkChange 0 0 4,
    .qspiRead (2 ^ 32) 0, .qspiRead 0 (2 ^ 32), .qspiWrite (2 ^ 32) [], .qspiWrite 0 [2 ^ 32], .qspiWordDiscard (2 ^ 32) 0 0, .qspiWordDiscard 0 256 0,
    .qspiWordDiscard 0 0 8, .dpDataWrite (2 ^ 32), .dpBurstAbort 257, .dpBurstDone [256]] = true := by decide +kernel

theorem test_wf_time : refused [.servoUpdate ⟨0, 0, 0, 0, false, none, 0, 0, 0, none, 0, 0, 0, 0⟩, .servoUpdate ⟨5, 0, 0, 0, false, none, 0, 0, 0, none, 0, 0, 0, 0⟩,
    .servoUpdate ⟨1, 0, 0, 0, false, none, 0, 0, 0, none, 3, 0, 0, 0⟩, .servoUpdate ⟨1, 0, 0, 0, false, none, 2 ^ 64, 0, 0, none, 0, 0, 0, 0⟩,
    .servoUpdate ⟨1, 0, 0, 0, false, none, 0, 256, 0, none, 0, 0, 0, 0⟩, .sourceTimeout 0, .sourceTimeout 5, .irigbFrame ⟨0, 0, true, true, 0, 16, 0, none⟩,
    .irigbFrame ⟨0, 0, true, true, 0, 0, 3, none⟩, .tsqPop .mc 4] = true := by decide +kernel

theorem test_wf_network : refused [.linkUp 6 0, .linkDown 6 true, .srefChange 2 true 0, .srefChange 0 true 16, .frameReceived 6 ⟨[], true, 0⟩, .pauseFrame 6 0,
    .pauseFrame 0 65536, .pauseExpiry 6, .lpiEntry 4, .fifoFlush .mc 6 true, .flushComplete 6 0, .flushComplete 0 (2 ^ 32), .flushForced 6 0, .flushForced 0 (2 ^ 32),
    .frameTransmit 6 0, .collision 3 0, .collision 6 0, .backoffExpiry 3, .backoffExpiry 6, .beaconTimeout 3, .beaconTimeout 6, .beaconReceived 3, .beaconReceived 6,
    .parseFrame 6, .pairClaimTimeout 4096, .pairDecisionReceived 4096 true] = true := by decide +kernel

theorem test_wf_measurement : refused [.laneLock 24 0, .laneLockLoss 24, .laneFaultInterval 24, .sampleInstant (List.replicate 25 0), .firBankSelect .mc 2,
    .statusInputAccept 64, .chatterEnd 64 true, .phasorGridPoint (List.replicate 9 0), .vsHoldExpiry 8, .homeStreamComplete 32 0, .ssoUpdate 16 0, .freeze 8,
    .laneJobComplete 16 true, .directAlarmTimer 2048, .almHoldExpiry 16, .alarmAck .mc (2 ^ 32)] = true := by decide +kernel

theorem test_wf_clients : refused ([.pubQueueDrain 6, .pubAgeDrop 6, .tcpSessionIdle 63] ++ fromBad.map .cmdTransmissionOff ++ fromBad.map .cmdTransmissionOn
    ++ fromBad.map .cmdSendHeader ++ fromBad.map .cmdSendCfg1 ++ fromBad.map .cmdSendCfg2 ++ fromBad.map .cmdSendCfg3 ++ fromBad.map .cmdExtendedFrame) = true := by
  decide +kernel

theorem test_wf_meters_and_capture : refused [.meterResults 48, .flowDatagram 6, .transferStale 256, .mdReset .mc (2 ^ 32), .pulseStart 16, .pulseEnd 16,
    .sealWrite .mc (2 ^ 32), .manualTrigger .mc (2 ^ 32), .captureRelease .mc (2 ^ 32), .capPostWrite .mc (2 ^ 32), .capPartWrite .mc (2 ^ 32) 0,
    .capPartWrite .mc 0 (2 ^ 32), .archiveFind .mc (2 ^ 32), .logReadSeq .mc (2 ^ 32), .objectSelect .mc (2 ^ 32), .objectConfigure .mc (2 ^ 32) 0,
    .objectConfigure .mc 0 (2 ^ 32)] = true := by decide +kernel

theorem test_wf_pair_and_keys : refused [.memoryScrub 11 0 0, .memoryScrub 0 0 3, .memoryScrub 0 (2 ^ 33) 0, .zlControlCell ⟨true, 2 ^ 64, 0, none, 0⟩,
    .zlControlCell ⟨true, 0, 2 ^ 16, none, 0⟩, .zlControlCell ⟨true, 0, 0, some (2 ^ 16), 0⟩, .zlControlCell ⟨true, 0, 0, none, 2 ^ 32⟩, .zlLaneFail 2,
    .healthReportReceived ⟨2 ^ 32, 0, 0, 0, 0, false, 0, 0, 0, 0, 0, 0⟩, .healthReportReceived ⟨0, 0, 0, 8, 0, false, 0, 0, 0, 0, 0, 0⟩, .laneUnfence .mc (2 ^ 32) 0,
    .laneUnfence .mc 0 65, .keyOverlapExpiry 64, .keyMaskRefresh (some 64), .otpRevoke .mc (2 ^ 32), .activate .mc (2 ^ 32), .healthConditionExpiry 4] = true := by
  decide +kernel

/-- Terms at the ends of their ranges are well formed. -/
theorem test_wf_accepts : [Instr.strapSample 7 3 1, .monitorWindowEnd 1023, .gateClose 18, .blkClr .host 19 [], .qspiWordDiscard 0xFFFFFFFF 255 7, .linkUp 5 0, .lpiEntry 3,
    .collision 4 700, .laneLock 23 9, .statusInputAccept 63, .cmdSendCfg3 fromOk, .meterResults 47, .transferStale 255, .memoryScrub 9 (2 ^ 33 - 1) 2,
    .registerWrite ⟨.mc, 0x10, 8, 2 ^ 64 - 1⟩ (some ⟨.host, 0x10, 4, 0⟩)].all (fun c => c.wf) = true := by decide +kernel

/-! ### For every statement, states and operands that meet its hypotheses -/

/-- A register above every listed one holds its default. -/
theorem assoc_above (l : List (Nat × Nat)) (b k : Nat) (h : l.all (fun e => decide (e.1 < b)) = true) (hk : b ≤ k) : assoc l k = none := by
  induction l with
  | nil => rfl
  | cons p ps ih =>
    simp only [List.all_cons, Bool.and_eq_true, decide_eq_true_eq] at h
    have : p.1 ≠ k := by omega
    simp [assoc, this, ih h.2]

theorem rd_above (s : State) (f : Field) (b : Nat) (h : s.regs.all (fun e => decide (e.1 < b)) = true) (hk : b ≤ fieldKey f) : s.rd f = f.dflt := by
  simp [State.rd, RegFile.get, assoc_above s.regs b _ h hk]

theorem is_above (s : State) (f : Field) (b : Nat) (h : s.regs.all (fun e => decide (e.1 < b)) = true) (hk : b ≤ fieldKey f) (h0 : f.dflt = 0) :
    s.is f = false := by simp [State.is, rd_above s f b h hk, h0]

/-- Sixteen bytes are four words, least significant byte first. -/
theorem four_bytes (a b c d : Byte) : leBytes 4 (a.toNat + 256 * (b.toNat + 256 * (c.toNat + 256 * d.toNat))) = [a, b, c, d] := by
  have ha := a.isLt; have hb := b.isLt; have hc := c.isLt; have hd := d.isLt
  simp only [leBytes, List.range, List.range.loop, List.map, toByte, List.cons.injEq, and_true]
  refine ⟨?_, ?_, ?_, ?_⟩ <;> apply BitVec.eq_of_toNat_eq <;> simp only [BitVec.toNat_ofNat] <;> omega

theorem four_words (l : List Byte) (h : l.length = 16) : ∃ w : Nat → Nat, (∀ i, w i < 2 ^ 32) ∧ l = (List.range 4).flatMap (fun i => leBytes 4 (w i)) := by
  match l, h with
  | [a0, a1, a2, a3, b0, b1, b2, b3, c0, c1, c2, c3, d0, d1, d2, d3], _ =>
    refine ⟨fun i => match i with
      | 0 => a0.toNat + 256 * (a1.toNat + 256 * (a2.toNat + 256 * a3.toNat))
      | 1 => b0.toNat + 256 * (b1.toNat + 256 * (b2.toNat + 256 * b3.toNat))
      | 2 => c0.toNat + 256 * (c1.toNat + 256 * (c2.toNat + 256 * c3.toNat))
      | _ => d0.toNat + 256 * (d1.toNat + 256 * (d2.toNat + 256 * d3.toNat)), ?_, ?_⟩
    · intro i
      have := a0.isLt; have := a1.isLt; have := a2.isLt; have := a3.isLt
      have := b0.isLt; have := b1.isLt; have := b2.isLt; have := b3.isLt
      have := c0.isLt; have := c1.isLt; have := c2.isLt; have := c3.isLt
      have := d0.isLt; have := d1.isLt; have := d2.isLt; have := d3.isLt
      dsimp only; split <;> omega
    · simp [List.range, List.range.loop, four_bytes]

theorem beBytes_length (n v : Nat) : (beBytes n v).length = n := by simp [beBytes, leBytes]

/-- `keyS 5 5 2` with the given response words of LOG_CLR. -/
def respS (w : Nat → Nat) : State :=
  (((((keyS 5 5 2).wr LOG_CLR_KEY_KEYSLOT 5).wr LOG_CLR_KEY_SCOPE 1).wr (LOG_CLR_RESP_RESP 0) (w 0)).wr (LOG_CLR_RESP_RESP 1) (w 1)).wr (LOG_CLR_RESP_RESP 2) (w 2)
    |>.wr (LOG_CLR_RESP_RESP 3) (w 3)

theorem respS_words (w : Nat → Nat) (h : ∀ i, w i < 2 ^ 32) :
    (List.range 4).flatMap (fun i => leBytes 4 ((respS w).rd (LOG_CLR_RESP_RESP i))) = (List.range 4).flatMap (fun i => leBytes 4 (w i)) := by
  have m (i : Nat) : w i % 4294967296 = w i := Nat.mod_eq_of_lt (h i)
  have e0 : (respS w).rd (LOG_CLR_RESP_RESP 0) = w 0 := m 0
  have e1 : (respS w).rd (LOG_CLR_RESP_RESP 1) = w 1 := m 1
  have e2 : (respS w).rd (LOG_CLR_RESP_RESP 2) = w 2 := m 2
  have e3 : (respS w).rd (LOG_CLR_RESP_RESP 3) = w 3 := m 3
  simp only [List.range, List.range.loop, List.flatMap_cons, List.flatMap_nil, e0, e1, e2, e3]


theorem trig_ne (s : State) (v : Nat) (hv : 0 ≠ v) (h : s.regs.all (fun e => decide (e.1 < 32 * 0xC0040)) = true) (k : Nat) :
    s.rd (CAP_TRIG_CFG_SRC k) ≠ v := by
  rw [rd_above s _ _ h (by simp only [fieldKey, CAP_TRIG_CFG_SRC]; omega)]
  exact hv

theorem alm_ne (s : State) (v w : Nat) (hv : 0 ≠ v) (hw : 0 ≠ w) (h : s.regs.all (fun e => decide (e.1 < 2 ^ 37)) = true) (k : Nat) :
    s.rd (ALM_SOURCE k) ≠ v ∧ s.rd (ALM_SOURCE k) ≠ w := by
  rw [rd_above s _ _ h (by simp only [fieldKey, ALM_SOURCE]; omega)]
  exact ⟨hv, hw⟩

theorem ctx_off (s : State) (h : s.regs.all (fun e => decide (e.1 < 2 ^ 37)) = true) (c : Nat) : s.is (CTX_EN c) = false :=
  is_above s _ _ h (by simp only [fieldKey, CTX_EN]; omega) rfl

theorem lom_off (s : State) (h : s.regs.all (fun e => decide (e.1 < 32 * 0x62000)) = true) (d : Nat) :
    s.is (PHS_LOM_CFG_RC_EN d) = false ∧ s.is (PHS_LOM_CFG_VS_EN d) = false ∧ s.is (PHS_LOM_STAT_RC d) = false ∧ s.is (PHS_LOM_STAT_VS d) = false :=
  ⟨is_above s _ _ h (by simp only [fieldKey, PHS_LOM_CFG_RC_EN]; omega) rfl, is_above s _ _ h (by simp only [fieldKey, PHS_LOM_CFG_VS_EN]; omega) rfl,
   is_above s _ _ h (by simp only [fieldKey, PHS_LOM_STAT_RC]; omega) rfl, is_above s _ _ h (by simp only [fieldKey, PHS_LOM_STAT_VS]; omega) rfl⟩

theorem prio_one (s : State) (n : Nat) (h : s.prioList = [n]) (k : Nat) (h1 : k ≠ n) (h2 : k ∈ s.prioList) : (s.src k).valid = false :=
  absurd (List.mem_singleton.mp (h ▸ h2)) h1

theorem accepted_of (s : State) (m : Master) (a : Nat) (hu : s.up = true) (h1 : checkA m true 4 a = none) (h2 : checkDomain s a = true)
    (h3 : (descOf (a / 4 * 4)).isNone = false) : Accepted s m a := by
  refine ⟨hu, ?_⟩
  unfold busFail
  rw [h1]
  simp [h2, h3]

theorem respS_use (w : Nat → Nat) : Accepted (respS w) .mc 0xD0120 ∧ (respS w).is LOG_CLR_STAT_BUSY = false ∧ (respS w).rd LOG_CLR_KEY_SCOPE = 1
    ∧ (respS w).is LOG_STAT_MEMFAIL = false ∧ (respS w).keyUse 5 5 [2] (some .mc) = none
    ∧ Listens (respS w) ∧ (respS w).rd LOG_CLR_KEY_KEYSLOT = 5 ∧ (respS w).verifyKeys 5 = [[3]] := by
  have k1 : (respS w).rd (KSL_STATE 5) = 1 := rfl
  have k2 : (respS w).rd (KSL_WORLD 5) = 5 := rfl
  have k3 : (respS w).rd (KSL_TYPE 5) = 2 := rfl
  have k4 : (respS w).rd (KSL_LCMASK 5) = 7 := rfl
  have k5 : (respS w).rd (KSL_MASTERS 5) = 3 := rfl
  have k6 : (respS w).curKey 5 = some [3] := rfl
  have k7 : (respS w).lc = 0 := (rfl : (respS w).lc = svc.lc).trans (by decide +kernel : svc.lc = 0)
  refine ⟨accepted_of _ _ _ rfl (by decide +kernel) ?_ (by decide +kernel), rfl, rfl, rfl, ?_, ⟨rfl, (by decide : 0 < 240), rfl⟩, rfl, rfl⟩
  · have p1 : (respS w).rd PWR_STAT_ON = 255 := rfl
    have p2 : (respS w).rd SYS_BOOT_STAT_PHASE = 9 := rfl
    have p3 : (respS w).rd PWR_STAT_BUSY = 0 := rfl
    simp only [checkDomain, State.on, p1, p2, p3]
    decide +kernel
  · simp [State.keyUse, k1, k2, k3, k4, k5, k6, k7, mNum, bit]

/-- A response that the opaque code of the key answers, whatever it is. -/
theorem clear_right : ∃ (m : Master) (sc : Nat) (s : State), Accepted s m 0xD0120 ∧ s.is LOG_CLR_STAT_BUSY = false ∧ s.rd LOG_CLR_KEY_SCOPE = sc ∧
    s.is LOG_STAT_MEMFAIL = false ∧ s.log.ring.length < 65536 ∧ s.keyUse (s.rd LOG_CLR_KEY_KEYSLOT) 5 [2] (some m) = none ∧
    (s.verifyKeys (s.rd LOG_CLR_KEY_KEYSLOT)).any (fun k => beBytes 16 (Config.hmacSha256 k (s.authMsg LOG_CLR_CHAL_LO_CHAL LOG_CLR_CHAL_HI_CHAL
      (s.rd LOG_CLR_KEY_KEYSLOT + sc * 256)) / 2 ^ 128) == (List.range 4).flatMap (fun i => leBytes 4 (s.rd (LOG_CLR_RESP_RESP i)))) = true := by
  obtain ⟨w, hw, he⟩ := four_words (beBytes 16 (Config.hmacSha256 [3]
    ((respS fun _ => 0).authMsg LOG_CLR_CHAL_LO_CHAL LOG_CLR_CHAL_HI_CHAL (5 + 256)) / 2 ^ 128)) (beBytes_length _ _)
  obtain ⟨h1, h2, h3, h4, h5, -, h7, h8⟩ := respS_use w
  have hm : (respS w).authMsg LOG_CLR_CHAL_LO_CHAL LOG_CLR_CHAL_HI_CHAL (5 + 256)
      = (respS fun _ => 0).authMsg LOG_CLR_CHAL_LO_CHAL LOG_CLR_CHAL_HI_CHAL (5 + 256) := rfl
  refine ⟨.mc, 1, respS w, h1, h2, h3, h4, (by decide : 0 < 65536), by rw [h7]; exact h5, ?_⟩
  rw [h7, h8, respS_words w hw, hm, ← he]
  simp only [List.any_cons, BEq.rfl, Bool.true_or]

/-- Of two responses at least one is wrong. -/
theorem any_one {α : Type} [DecidableEq α] (x a b : α) (h : a ≠ b) : (x == a) = false ∨ (x == b) = false := by
  by_cases e : x = a
  · right; simp [e, h]
  · left; simp [e]

theorem clear_wrong : ∃ (m : Master) (s : State), Accepted s m 0xD0120 ∧ s.is LOG_CLR_STAT_BUSY = false ∧
    s.keyUse (s.rd LOG_CLR_KEY_KEYSLOT) 5 [2] (some m) = none ∧
    (s.verifyKeys (s.rd LOG_CLR_KEY_KEYSLOT)).any (fun k => beBytes 16 (Config.hmacSha256 k (s.authMsg LOG_CLR_CHAL_LO_CHAL LOG_CLR_CHAL_HI_CHAL
      (s.rd LOG_CLR_KEY_KEYSLOT + s.rd LOG_CLR_KEY_SCOPE * 256)) / 2 ^ 128) == (List.range 4).flatMap (fun i => leBytes 4 (s.rd (LOG_CLR_RESP_RESP i)))) = false ∧
    Listens s := by
  have key : ∀ c : Nat, c < 2 → ((respS fun _ => c).verifyKeys 5).any (fun k => beBytes 16 (Config.hmacSha256 k ((respS fun _ => c).authMsg
      LOG_CLR_CHAL_LO_CHAL LOG_CLR_CHAL_HI_CHAL (5 + 1 * 256)) / 2 ^ 128) == (List.range 4).flatMap (fun i => leBytes 4 ((respS fun _ => c).rd (LOG_CLR_RESP_RESP i)))) = false →
      ∃ (m : Master) (s : State), Accepted s m 0xD0120 ∧ s.is LOG_CLR_STAT_BUSY = false ∧ s.keyUse (s.rd LOG_CLR_KEY_KEYSLOT) 5 [2] (some m) = none ∧
        (s.verifyKeys (s.rd LOG_CLR_KEY_KEYSLOT)).any (fun k => beBytes 16 (Config.hmacSha256 k (s.authMsg LOG_CLR_CHAL_LO_CHAL LOG_CLR_CHAL_HI_CHAL
          (s.rd LOG_CLR_KEY_KEYSLOT + s.rd LOG_CLR_KEY_SCOPE * 256)) / 2 ^ 128) == (List.range 4).flatMap (fun i => leBytes 4 (s.rd (LOG_CLR_RESP_RESP i)))) = false ∧
        Listens s := by
    intro c _ h
    obtain ⟨h1, h2, h3, -, h5, h6, h7, -⟩ := respS_use (fun _ => c)
    exact ⟨.mc, respS fun _ => c, h1, h2, by rw [h7]; exact h5, by rw [h7, h3]; exact h, h6⟩
  have hw (c : Nat) (h : c < 2) := respS_words (fun _ => c) (fun _ => by omega)
  have hm (c : Nat) : (respS fun _ => c).authMsg LOG_CLR_CHAL_LO_CHAL LOG_CLR_CHAL_HI_CHAL (5 + 1 * 256)
      = (respS fun _ => 0).authMsg LOG_CLR_CHAL_LO_CHAL LOG_CLR_CHAL_HI_CHAL (5 + 1 * 256) := rfl
  have h8 (c : Nat) : (respS fun _ => c).verifyKeys 5 = [[3]] := rfl
  rcases any_one (beBytes 16 (Config.hmacSha256 [3] ((respS fun _ => 0).authMsg LOG_CLR_CHAL_LO_CHAL LOG_CLR_CHAL_HI_CHAL (5 + 1 * 256)) / 2 ^ 128))
    ((List.range 4).flatMap (fun _ => leBytes 4 0)) ((List.range 4).flatMap (fun _ => leBytes 4 1)) (by decide +kernel) with h | h
  · exact key 0 (by omega) (by rw [h8, hw 0 (by omega), hm 0]; simpa using h)
  · exact key 1 (by omega) (by rw [h8, hw 1 (by omega), hm 1]; simpa using h)

/-- `keyS 5 6 2` in life cycle 2, with the given first response word. -/
def lcS (w : Nat) : State :=
  ((({ keyS 5 6 2 with key.lc := [2, 2, 2] } : State).wr KEY_LC_AUTH_KEYSLOT 5).wr (KEY_LC_RESP_RESP 0) w)

theorem lc_wrong : ∃ (m : Master) (s : State), Accepted s m 0xF0004 ∧ s.lc = 2 ∧ s.keyUse (s.rd KEY_LC_AUTH_KEYSLOT) 6 [2] (some m) = none ∧
    (s.verifyKeys (s.rd KEY_LC_AUTH_KEYSLOT)).any (fun k => beBytes 16 (Config.hmacSha256 k (s.authMsg KEY_LC_CHAL_LO_CHAL KEY_LC_CHAL_HI_CHAL 0x4C430003) / 2 ^ 128)
      == (List.range 4).flatMap (fun i => leBytes 4 (s.rd (KEY_LC_RESP_RESP i)))) = false ∧ Listens s := by
  have hk (c : Nat) : (lcS c).rd KEY_LC_AUTH_KEYSLOT = 5 := rfl
  have h8 (c : Nat) : (lcS c).verifyKeys 5 = [[3]] := rfl
  have hm (c : Nat) : (lcS c).authMsg KEY_LC_CHAL_LO_CHAL KEY_LC_CHAL_HI_CHAL 0x4C430003 = (lcS 0).authMsg KEY_LC_CHAL_LO_CHAL KEY_LC_CHAL_HI_CHAL 0x4C430003 := rfl
  have h0 : (List.range 4).flatMap (fun i => leBytes 4 ((lcS 0).rd (KEY_LC_RESP_RESP i))) = zeros 16 := by decide +kernel
  have h1 : (List.range 4).flatMap (fun i => leBytes 4 ((lcS 1).rd (KEY_LC_RESP_RESP i))) = 1 :: zeros 15 := by decide +kernel
  rcases any_one (beBytes 16 (Config.hmacSha256 [3] ((lcS 0).authMsg KEY_LC_CHAL_LO_CHAL KEY_LC_CHAL_HI_CHAL 0x4C430003) / 2 ^ 128))
    (zeros 16) (1 :: zeros 15) (by decide +kernel) with h | h
  · exact ⟨.mc, lcS 0, by decide +kernel, by decide +kernel, by decide +kernel, by rw [hk, h8, h0]; simpa using h, by decide +kernel⟩
  · exact ⟨.mc, lcS 1, by decide +kernel, by decide +kernel, by decide +kernel, by rw [hk, h8, hm 1, h1]; simpa using h, by decide +kernel⟩

/-- A key load whose check value is the key's, whatever the opaque code makes of it. -/
def loadS (v : Nat) : State :=
  (((svc.wr (forM .mc KEY_LD_SLOT_SLOT) 4).wr (forM .mc KEY_LD_ATTR_TYPE) 2).wr (forM .mc KEY_LD_ATTR_WORLD) 5).wr (forM .mc KEY_LD_KCV_KCV) v

theorem load_right : ∃ (m : Master) (k : KeyIn) (s : State), Accepted s m 0xF0100 ∧ s.key.job = none ∧ s.ldKey m = k ∧ s.loadErr m none k = none := by
  obtain ⟨v, hv⟩ : ∃ v, v = Config.hmacSha256 (List.replicate 8 0) (zeros 16) / 2 ^ 232 % 2 ^ 24 := ⟨_, rfl⟩
  have e1 : ((loadS v).ldKey .mc).slot = 4 := rfl
  have e2 : ((loadS v).ldKey .mc).world = 5 := rfl
  have e3 : ((loadS v).ldKey .mc).typ = 2 := rfl
  have e4 : ((loadS v).ldKey .mc).kcv = v % 2 ^ 24 := by
    show (loadS v).rd (forM .mc KEY_LD_KCV_KCV) = _
    simp [loadS, KEY_LD_KCV_KCV, Machine.forM]
  have e5 : ((loadS v).ldKey .mc).mat.take 8 = List.replicate 8 0 := rfl
  have e6 : (loadS v).rd (KSL_STATE 4) = 0 := rfl
  have e7 : (loadS v).lc = 0 := (rfl : (loadS v).lc = svc.lc).trans (by decide +kernel : svc.lc = 0)
  have e8 : (loadS v).sealedNow = false := (rfl : (loadS v).sealedNow = svc.sealedNow).trans (by decide +kernel : svc.sealedNow = false)
  have p1 : (loadS v).rd PWR_STAT_ON = 255 := rfl
  have p2 : (loadS v).rd SYS_BOOT_STAT_PHASE = 9 := rfl
  have p3 : (loadS v).rd PWR_STAT_BUSY = 0 := rfl
  refine ⟨.mc, (loadS v).ldKey .mc, loadS v, accepted_of _ _ _ rfl (by decide +kernel) ?_ (by decide +kernel), rfl, rfl, ?_⟩
  · simp only [checkDomain, State.on, p1, p2, p3]
    decide +kernel
  · have e9 : keyCheck 2 (List.replicate 8 0) = some v := congrArg some hv.symm
    have hb : v < 2 ^ 24 := hv ▸ Nat.mod_lt _ (by decide)
    have e10 : matWords 2 = 8 := rfl
    simp only [State.loadErr, e1, e2, e3, e4, e5, e6, e7, e8, e9, e10, Nat.mod_eq_of_lt hb]
    simp [attrOk]

/-- A block is never longer than its bytes and its head. -/
theorem elsBlock_length (l : Nat) (bs : List Byte) : (elsBlock l false bs).length ≤ bs.length + 16 := by
  simp only [elsBlock, leBytes, List.length_append, List.length_cons, List.length_nil, List.length_map, List.length_range]
  by_cases h : bs.length < (Config.elsTokens l bs).length <;> simp [h] <;> omega

/-- A compress job of one byte. -/
def jobS : State :=
  (((({ svcP with els := [⟨.soft 1, true⟩] } : State).wr (ELS_J_OP_OP 1) 1).wr (ELS_J_LEN_LEN 1) 1).wr (ELS_J_OP_SRC_PART 1) 2).wr (ELS_J_OP_DST_PART 1) 2
    |>.wr (ELS_J_DSTCAP_CAP 1) 17

theorem crc32cBit_lt (c : Nat) (h : c < 2 ^ 32) : crc32cBit c < 2 ^ 32 := by
  unfold crc32cBit
  split
  · exact Nat.xor_lt_two_pow (by omega) (by decide)
  · omega

theorem crc32c_lt (bs : List Byte) : crc32c bs < 2 ^ 32 := by
  unfold crc32c
  refine Nat.xor_lt_two_pow ?_ (by decide)
  have step : ∀ (l : List Nat) (c : Nat), c < 2 ^ 32 → l.foldl (fun x _ => crc32cBit x) c < 2 ^ 32 := by
    intro l
    induction l with
    | nil => exact fun c h => h
    | cons a l ih => exact fun c h => ih _ (crc32cBit_lt c h)
  have all : ∀ (l : List Byte) (c : Nat), c < 2 ^ 32 →
      l.foldl (fun c b => (List.range 8).foldl (fun x _ => crc32cBit x) (c ^^^ b.toNat)) c < 2 ^ 32 := by
    intro l
    induction l with
    | nil => exact fun c h => h
    | cons b l ih => exact fun c h => ih _ (step _ _ (Nat.xor_lt_two_pow h (Nat.lt_trans b.isLt (by decide))))
  exact all bs _ (by decide)

theorem byteAt_right (a b : List Byte) (i : Nat) (h : a.length ≤ i) : byteAt (a ++ b) i = byteAt b (i - a.length) := by
  induction a generalizing i with
  | nil => simp
  | cons x a ih =>
    cases i with
    | zero => simp at h
    | succ i => simpa [byteAt, nth] using ih i (by simpa using h)

theorem byteAt_left (a b : List Byte) (i : Nat) (h : i < a.length) : byteAt (a ++ b) i = byteAt a i := by
  induction a generalizing i with
  | nil => simp at h
  | cons x a ih =>
    cases i with
    | zero => rfl
    | succ i => simpa [byteAt, nth] using ih i (by simpa using h)

theorem byteAt_zeros (n i : Nat) : byteAt (zeros n) i = 0 := by
  induction n generalizing i with
  | zero => rfl
  | succ n ih => cases i with
    | zero => rfl
    | succ i => simpa [zeros, List.replicate_succ, byteAt, nth] using ih i

theorem leAt_four (a b : List Byte) (v : Nat) (h : v < 2 ^ 32) : leAt (a ++ (leBytes 4 v ++ b)) a.length 4 = v := by
  have l : (leBytes 4 v).length = 4 := by simp [leBytes]
  have e (i : Nat) (hi : i < 4) : byteAt (a ++ (leBytes 4 v ++ b)) (a.length + i) = v / 256 ^ i % 256 := by
    rw [byteAt_right _ _ _ (by omega), byteAt_left _ _ _ (by omega), show a.length + i - a.length = i by omega]
    have : i = 0 ∨ i = 1 ∨ i = 2 ∨ i = 3 := by omega
    rcases this with rfl | rfl | rfl | rfl <;> simp [byteAt, nth, leBytes, List.range, List.range.loop, toByte]
  simp only [leAt, List.range, List.range.loop, List.foldr, e 0 (by omega), e 1 (by omega), e 2 (by omega), e 3 (by omega)]
  omega

theorem slice_right (a b : List Byte) (o n : Nat) (h : a.length ≤ o) : slice (a ++ b) o n = slice b (o - a.length) n := by
  simp [slice, List.drop_append, List.drop_eq_nil_of_le h]

theorem slice_zeros (k o n : Nat) (b : List Byte) (h : o + n ≤ k) : slice (zeros k ++ b) o n = zeros n := by
  rw [slice, List.drop_append, show (zeros k).length = k by simp [zeros], show o - k = 0 by omega, List.take_append]
  simp [zeros, show n - (k - o) = 0 by omega, show min n (k - o) = n by omega]

/-- The bytes of a snapshot after its CRC, with digest `d`. -/
def auditTail (d : List Byte) : List Byte := zeros 112 ++ (d ++ zeros 336000)

/-- A snapshot whose CRC is right, whose digest is `d` and whose settings' CRC is `c`. -/
def auditSnap (c : Nat) (d : List Byte) : List Byte := (zeros 4 ++ leBytes 4 c ++ zeros 4 ++ leBytes 4 (crc32c (auditTail d))) ++ auditTail d

theorem auditHead (c e : Nat) : (zeros 4 ++ leBytes 4 c ++ zeros 4 ++ leBytes 4 e).length = 16 := by simp [zeros, leBytes]

theorem audit_byte (c : Nat) (d : List Byte) (hd : d.length = 16) (i : Nat) (h : 16 ≤ i ∧ i < 128 ∨ 144 ≤ i) : byteAt (auditSnap c d) i = 0 := by
  have z : (zeros 112).length = 112 := by simp [zeros]
  rw [auditSnap, byteAt_right _ _ _ (by rw [auditHead]; omega), auditHead, auditTail]
  by_cases hi : i < 128
  · rw [byteAt_left _ _ _ (by omega), byteAt_zeros]
  · rw [byteAt_right _ _ _ (by omega), z, byteAt_right _ _ _ (by omega), byteAt_zeros]

/-- For every CRC of settings there is a snapshot that carries it and whose own CRC and digest are right. -/
theorem audit_with (c : Nat) (lc : c < 2 ^ 32) : ∃ bs : List Byte, leAt bs 12 4 = crc32c (bs.drop 16) ∧ 8336 + 327680 + 32 ≤ bs.length ∧ leAt bs 4 4 = c ∧
    (beBytes 32 (Config.sha256 (leBytes 4 (leAt bs 68 4) ++ slice bs 72 2 ++ leBytes 4 (leAt bs 76 4)
      ++ (List.range 4096).map (fun c => toByte (leAt bs (144 + 2 * c) 2 % 8)) ++ slice bs 8336 327680))).take 16 = slice bs 128 16 := by
  let m : List Byte := leBytes 4 0 ++ zeros 2 ++ leBytes 4 0 ++ (List.range 4096).map (fun _ => toByte (0 % 8)) ++ zeros 327680
  obtain ⟨d, hd⟩ : ∃ d, d = (beBytes 32 (Config.sha256 m)).take 16 := ⟨_, rfl⟩
  have ld : d.length = 16 := by rw [hd, List.length_take, beBytes_length]; decide
  have z (n : Nat) : (zeros n).length = n := by simp [zeros]
  have b := audit_byte c d ld
  have l4 (o : Nat) (h : 16 ≤ o ∧ o + 4 ≤ 128) : leAt (auditSnap c d) o 4 = 0 := by
    simp [leAt, List.range, List.range.loop, b o (by omega), b (o + 1) (by omega), b (o + 2) (by omega), b (o + 3) (by omega)]
  have l2 (o : Nat) (h : 144 ≤ o) : leAt (auditSnap c d) o 2 = 0 := by
    simp [leAt, List.range, List.range.loop, b o (by omega), b (o + 1) (by omega)]
  have tail (o n : Nat) (h : 16 ≤ o) : slice (auditSnap c d) o n = slice (auditTail d) (o - 16) n := by
    rw [auditSnap, slice_right _ _ _ _ (by rw [auditHead]; exact h), auditHead]
  have s1 : slice (auditSnap c d) 72 2 = zeros 2 := by rw [tail _ _ (by omega), auditTail, slice_zeros _ _ _ _ (by omega)]
  have s2 : slice (auditSnap c d) 8336 327680 = zeros 327680 := by
    rw [tail _ _ (by omega), auditTail, slice_right _ _ _ _ (by have := z 112; omega), z, slice_right _ _ _ _ (by omega), ld]
    have := slice_zeros 336000 (8336 - 16 - 112 - 16) 327680 [] (by omega)
    rwa [List.append_nil] at this
  have s3 : slice (auditSnap c d) 128 16 = d := by
    rw [tail _ _ (by omega), auditTail, slice_right _ _ _ _ (by have := z 112; omega), z]
    simp [slice, List.take_append_of_le_length (Nat.le_of_eq ld.symm), List.take_of_length_le (Nat.le_of_eq ld)]
  refine ⟨auditSnap c d, ?_, ?_, ?_, ?_⟩
  · have h1 : (auditSnap c d).drop 16 = auditTail d := by rw [auditSnap]; exact List.drop_left' (auditHead _ _)
    have h2 := leAt_four (zeros 4 ++ leBytes 4 c ++ zeros 4) (auditTail d) (crc32c (auditTail d)) (crc32c_lt _)
    rw [h1, auditSnap, List.append_assoc _ (leBytes 4 (crc32c (auditTail d)))]
    simpa [zeros, leBytes] using h2
  · simp [auditSnap, auditTail, z, ld, leBytes]
  · have h2 := leAt_four (zeros 4) (zeros 4 ++ leBytes 4 (crc32c (auditTail d)) ++ auditTail d) c lc
    rw [z] at h2
    rw [auditSnap]
    simpa only [List.append_assoc] using h2
  · have l3 (x : Nat) : leAt (auditSnap c d) (144 + 2 * x) 2 = 0 := l2 _ (by omega)
    simp only [l4 68 (by omega), l4 76 (by omega), s1, s2, s3, l3]
    exact hd.symm

theorem audit_digest : ∃ (bs : List Byte) (s : State), s.zlOn = true ∧ s.is RED_STAT_LINK = true ∧ s.on 4 = true ∧
    s.red.audBufs.length + s.red.audits.length < 48 ∧ leAt bs 12 4 = crc32c (bs.drop 16) ∧ 8336 + 327680 + 32 ≤ bs.length ∧ leAt bs 4 4 = s.setCrc ∧
    (beBytes 32 (Config.sha256 (leBytes 4 (leAt bs 68 4) ++ slice bs 72 2 ++ leBytes 4 (leAt bs 76 4)
      ++ (List.range 4096).map (fun c => toByte (leAt bs (144 + 2 * c) 2 % 8)) ++ slice bs 8336 327680))).take 16 = slice bs 128 16 := by
  obtain ⟨bs, h1, h2, h3, h4⟩ := audit_with (pairS.wr RED_STAT_LINK 1).setCrc (BitVec.isLt _)
  exact ⟨bs, pairS.wr RED_STAT_LINK 1, by decide +kernel, by decide +kernel, by decide +kernel, by decide +kernel, h1, h2, h3, h4⟩

theorem audit_other : ∃ (bs : List Byte) (s : State), s.zlOn = true ∧ s.is RED_STAT_LINK = true ∧ s.on 4 = true ∧
    s.red.audBufs.length + s.red.audits.length < 48 ∧ leAt bs 12 4 = crc32c (bs.drop 16) ∧ 8336 + 327680 + 32 ≤ bs.length ∧ leAt bs 4 4 ≠ s.setCrc ∧
    (beBytes 32 (Config.sha256 (leBytes 4 (leAt bs 68 4) ++ slice bs 72 2 ++ leBytes 4 (leAt bs 76 4)
      ++ (List.range 4096).map (fun c => toByte (leAt bs (144 + 2 * c) 2 % 8)) ++ slice bs 8336 327680))).take 16 = slice bs 128 16 ∧
    Listens s := by
  by_cases e : (pairS.wr RED_STAT_LINK 1).setCrc = 0
  · obtain ⟨bs, h1, h2, h3, h4⟩ := audit_with 1 (by decide)
    exact ⟨bs, pairS.wr RED_STAT_LINK 1, by decide +kernel, by decide +kernel, by decide +kernel, by decide +kernel, h1, h2, by omega, h4, by decide +kernel⟩
  · obtain ⟨bs, h1, h2, h3, h4⟩ := audit_with 0 (by decide)
    exact ⟨bs, pairS.wr RED_STAT_LINK 1, by decide +kernel, by decide +kernel, by decide +kernel, by decide +kernel, h1, h2, by omega, h4, by decide +kernel⟩

theorem full_ring : ∃ (e : Ev) (x y : Rec) (l : List Rec) (s : State), s.log.running = true ∧ s.log.inq = [e] ∧ s.log.waiting = [] ∧ s.log.lost = 0 ∧
    s.rd LOG_CFG_RATE_MAX = 0 ∧ s.is LOG_STAT_MEMFAIL = false ∧ s.log.ring = x :: y :: l ∧ s.log.ring.length = 65536 := by
  refine ⟨evOf 0x7020, recOf 0, recOf 1, List.replicate 65534 (recOf 2),
    { svc.wr LOG_CFG_RATE_MAX 0 with log.inq := [evOf 0x7020], log.ring := recOf 0 :: recOf 1 :: List.replicate 65534 (recOf 2) },
    rfl, rfl, rfl, rfl, rfl, rfl, rfl, ?_⟩
  show (recOf 0 :: recOf 1 :: List.replicate 65534 (recOf 2)).length = 65536
  rw [List.length_cons, List.length_cons, List.length_replicate]

theorem job_fits : ∃ (k len : Nat) (out : List Byte) (s : State), k < 2 ∧ s.on 6 = true ∧ s.rd CLK_STAT_STATE ≠ 1 ∧ s.elsCurrent = some (.soft k) ∧ s.rd (ELS_J_OP_OP k) = 1 ∧
    s.rd (ELS_J_LEN_LEN k) = len ∧ 0 < len ∧ len ≤ 1048576 ∧ s.rd (ELS_J_INDONE k) = 0 ∧ s.rd (ELS_J_OUTLEN k) = 0 ∧
    s.jobSrc k + len ≤ s.partSize (s.rd (ELS_J_OP_SRC_PART k)) ∧
    out = elsBlock (s.rd (ELS_J_OP_LEVEL k)) false (s.dramRead (s.partBase (s.rd (ELS_J_OP_SRC_PART k)) + s.jobSrc k) len) ∧
    out.length ≤ s.rd (ELS_J_DSTCAP_CAP k) ∧ out.length < 2 ^ 32 ∧ s.jobDst k + out.length ≤ s.partSize (s.rd (ELS_J_OP_DST_PART k)) := by
  have hl := elsBlock_length (jobS.rd (ELS_J_OP_LEVEL 1)) (jobS.dramRead (jobS.partBase (jobS.rd (ELS_J_OP_SRC_PART 1)) + jobS.jobSrc 1) 1)
  have h1 : (jobS.dramRead (jobS.partBase (jobS.rd (ELS_J_OP_SRC_PART 1)) + jobS.jobSrc 1) 1).length = 1 := by decide +kernel
  rw [h1] at hl
  have h2 : jobS.rd (ELS_J_DSTCAP_CAP 1) = 17 := by decide +kernel
  have h3 : jobS.jobDst 1 = 0 := by decide +kernel
  have h4 : jobS.partSize (jobS.rd (ELS_J_OP_DST_PART 1)) = 67108864 := by decide +kernel
  exact ⟨1, 1, _, jobS, by omega, by decide +kernel, by decide +kernel, by decide +kernel, by decide +kernel, by decide +kernel, by omega, by omega, by decide +kernel,
    by decide +kernel, by decide +kernel, rfl, by omega, by omega, by omega⟩


theorem witness_StepRunsFrontCommand :
    ∃ (c : Instr) (rest : List Instr) (s : State), s.pending = c :: rest :=
  ⟨.voteSweep, [], { svc with pending := [.voteSweep] }, by decide +kernel⟩

theorem witness_IdleStepIsOneTick :
    ∃ (s : State), s.pending = [] :=
  ⟨svc, by decide +kernel⟩

theorem witness_LinesFollowEveryStep :
    ∃ (s : State) (t : State), LinesFollow s ∧ step s = .next t :=
  ⟨State.reset, State.reset.tick, by exact ⟨by decide +kernel, rfl⟩⟩

theorem witness_ResetsRestartTheSequence :
    (∃ (p : Bool) (s : State), s.boot.stage = .porst) ∧
    (∃ (p : Bool) (s : State), s.boot.stage = .porst) ∧
    (∃ (s : State), s.boot.stage ≠ .porst) ∧
    (∃ (s : State), s.pd1Clocked = true) ∧
    (∃ (s : State), s.boot.stage = .pending ∧ s.mono ≤ s.boot.tripAt + 7 * secU / 32768) ∧
    (∃ (s : State), s.boot.stage = .pending ∧ s.mono ≤ s.boot.tripAt + 7 * secU / 32768) :=
  ⟨⟨true, { svc with boot.stage := .porst, rtc := 5 }, by decide +kernel⟩,
   ⟨false, { svc with boot.stage := .porst, rtc := 5 }, by decide +kernel⟩,
   ⟨svc, by decide +kernel⟩,
   ⟨svc, by decide +kernel⟩,
   ⟨{ svc with boot.stage := .pending }, by decide +kernel⟩,
   ⟨{ svc with mono := 100, tai := 7, boot.stage := .pending, boot.tripAt := 90 }, by decide +kernel⟩⟩

theorem witness_StartSequenceSteps :
    (∃ (us : Nat) (s : State), s.boot.stage = .ircStart ∧ us ≤ 200) ∧
    (∃ (s : State), s.boot.stage = .ircStart) ∧
    (∃ (s : State), s.boot.stage = .ircHold) ∧
    (∃ (x : Nat) (m : Nat) (p : Nat) (s : State), s.boot.stage = .strap ∧ s.boot.strapped = false ∧ s.fastWake = false ∧ x < 8 ∧ m < 4 ∧ p < 2) ∧
    (∃ (x : Nat) (m : Nat) (p : Nat) (s : State), (s.boot.stage = .pll ∨ s.boot.stage = .run) ∧ s.boot.strapped = false ∧ s.fastWake = true
        ∧ s.is CLK_STAT_IRC_STABLE = true ∧ x < 8 ∧ m < 4 ∧ p < 2) ∧
    (∃ (x : Nat) (m : Nat) (p : Nat) (s : State), (s.boot.stage = .pll ∨ s.boot.stage = .run) ∧ s.boot.strapped = false ∧ s.fastWake = true
        ∧ s.is CLK_STAT_IRC_STABLE = true ∧ x < 8 ∧ m < 4 ∧ p < 2) ∧
    (∃ (s : State), s.boot.stage = .refDelay ∧ s.fastWake = false) ∧
    (∃ (s : State), (s.boot.stage = .ircStart ∨ s.boot.stage = .strap ∨ s.boot.stage = .refDelay) ∧ s.fastWake = true) ∧
    (∃ (s : State), (s.boot.stage = .ircStart ∨ s.boot.stage = .strap ∨ s.boot.stage = .refDelay) ∧ s.fastWake = true) ∧
    (∃ (n : Nat) (s : State), s.boot.stage = .window ∧ s.boot.tripped = false ∧ 497 < n ∧ n < 503) :=
  ⟨⟨200, { svc with boot.stage := .ircStart }, by decide +kernel⟩,
   ⟨{ svc with boot.stage := .ircStart }, by decide +kernel⟩,
   ⟨{ svc with boot.stage := .ircHold }, by decide +kernel⟩,
   ⟨7, 3, 1, { svc with boot.stage := .strap }, by decide +kernel⟩,
   ⟨7, 3, 1, ({ svc.wr CLK_STAT_IRC_STABLE 1 with boot.stage := .pll, boot.wakeCause := 3 }).wr PWR_WAKE_CFG_FASTWAKE 1, by decide +kernel⟩,
   ⟨7, 3, 1, ({ svc.wr CLK_STAT_IRC_STABLE 1 with boot.wakeCause := 3 }).wr PWR_WAKE_CFG_FASTWAKE 1, by decide +kernel⟩,
   ⟨{ svc with boot.stage := .refDelay }, by decide +kernel⟩,
   ⟨({ svc with boot.stage := .ircStart, boot.wakeCause := 3 }).wr PWR_WAKE_CFG_FASTWAKE 1, by decide +kernel⟩,
   ⟨({ svc with boot.stage := .refDelay, boot.wakeCause := 3, mono := 2 ^ 80 }).wr PWR_WAKE_CFG_FASTWAKE 1, by decide +kernel⟩,
   ⟨502, { svc with boot.stage := .window }, by decide +kernel⟩⟩

theorem witness_RecoveryLimitedServiceAndServiceStart :
    (∃ (us : Nat) (b : Nat) (f : Nat) (s : State), s.boot.stage = .pll ∧ s.boot.tripped = false ∧ us ≤ 400 ∧ 2 ≤ s.rd SYS_STRAP_BOOT_MODE
        ∧ bit (s.rd PWR_STAT_ON) 7 = 0) ∧
    (∃ (us : Nat) (b : Nat) (f : Nat) (s : State), s.boot.stage = .pll ∧ s.boot.tripped = false ∧ us ≤ 400 ∧ s.rd SYS_STRAP_BOOT_MODE < 2
        ∧ s.header 0 = none ∧ s.header 1 = none ∧ bit (s.rd PWR_STAT_ON) 7 = 0) ∧
    (∃ (us : Nat) (b : Nat) (f : Nat) (s : State), s.boot.stage = .pll ∧ s.boot.tripped = false ∧ us ≤ 400 ∧ s.rd SYS_STRAP_BOOT_MODE < 2
        ∧ s.header 0 = none ∧ s.header 1 = none ∧ bit (s.rd PWR_STAT_ON) 7 = 0) ∧
    (∃ (s : State), s.boot.stage = .pll ∧ 2 ≤ s.rd SYS_STRAP_BOOT_MODE) ∧
    (∃ (f : Nat) (s : State), s.up = true ∧ s.is SYS_BOOT_STAT_NOREF = true) ∧
    (∃ (f : Nat) (s : State), s.up = true ∧ s.is SYS_BOOT_STAT_NOREF = true ∧ s.rd SYS_BOOT_STAT_PHASE ≠ 10) ∧
    (∃ (f : Nat) (s : State), s.up = true ∧ s.is SYS_BOOT_STAT_NOREF = true ∧ s.rd SYS_BOOT_STAT_PHASE = 10) ∧
    (∃ (f : Nat) (s : State), s.up = true ∧ s.is SYS_BOOT_STAT_NOREF = true ∧ s.rd SYS_BOOT_STAT_PHASE = 10) ∧
    (∃ (m : Master) (s : State), Accepted s m SYS_START_GO.addr ∧ s.rd SYS_BOOT_STAT_PHASE = 7) ∧
    (∃ (s : State), s.up = true ∧ s.rd SYS_BOOT_STAT_PHASE = 8 ∧ s.rd SYS_START_CFG_LOCKWAIT ≠ 0) ∧
    (∃ (s : State), s.up = true ∧ s.rd SYS_BOOT_STAT_PHASE = 8 ∧ s.mayServe = true ∧ s.pend = []) :=
  ⟨⟨400, 0, 0, (({ svc with boot.stage := .pll }).wr SYS_STRAP_BOOT_MODE 2).wr PWR_STAT_ON 0, by decide +kernel⟩,
   ⟨400, 0, 0, (({ svc with boot.stage := .pll }).wr SYS_STRAP_BOOT_MODE 1).wr PWR_STAT_ON 0, by decide +kernel⟩,
   ⟨100, 9, 3, (({ svc with boot.stage := .pll }).wr SYS_STRAP_BOOT_MODE 0).wr PWR_STAT_ON 0, by decide +kernel⟩,
   ⟨({ svc with boot.stage := .pll }).wr SYS_STRAP_BOOT_MODE 3, by decide +kernel⟩,
   ⟨0, svc.wr SYS_BOOT_STAT_NOREF 1, by decide +kernel⟩,
   ⟨0, svc.wr SYS_BOOT_STAT_NOREF 1, by decide +kernel⟩,
   ⟨0, (svc.wr SYS_BOOT_STAT_NOREF 1).wr SYS_BOOT_STAT_PHASE 10, by decide +kernel⟩,
   ⟨0, ((svc.wr SYS_BOOT_STAT_NOREF 1).wr SYS_STRAP_BOOT_MODE 1).wr SYS_BOOT_STAT_PHASE 10, by decide +kernel⟩,
   ⟨.host, svc.wr SYS_BOOT_STAT_PHASE 7, by decide +kernel⟩,
   ⟨(svc.wr SYS_BOOT_STAT_PHASE 8).wr SYS_START_CFG_LOCKWAIT 5, by decide +kernel⟩,
   ⟨(svc.wr SYS_BOOT_STAT_PHASE 8).wr SYS_START_CFG_WAITLOCK 0, by decide +kernel⟩⟩

theorem witness_ClockMonitorAndFailover :
    (∃ (n : Nat) (s : State), s.armed = true ∧ s.boot.stage ≠ .window ∧ s.is CLK_STAT_IRC_STABLE = true ∧ s.is CLK_STAT_REF_OK = true ∧ 497 < n
        ∧ n < 503) ∧
    (∃ (n : Nat) (s : State), s.armed = true ∧ s.boot.stage ≠ .window ∧ s.is CLK_STAT_IRC_STABLE = true ∧ s.boot.tripped = false
        ∧ (n ≤ 497 ∨ 503 ≤ n) ∧ n < 1024 ∧ s.onRef = false) ∧
    (∃ (n : Nat) (s : State), s.up = true ∧ s.is CLK_STAT_IRC_STABLE = true ∧ s.boot.tripped = false ∧ (n ≤ 497 ∨ 503 ≤ n) ∧ n < 1024
        ∧ s.onRef = true) ∧
    (∃ (s : State), s.armed = true ∧ s.boot.tripped = false ∧ s.onRef = true ∧ s.is CLK_STAT_IRC_STABLE = false) ∧
    (∃ (s : State), s.armed = true ∧ s.boot.tripped = false ∧ s.onRef = true ∧ s.is CLK_STAT_IRC_STABLE = false) ∧
    (∃ (s : State), s.up = true ∧ s.boot.tripped = false ∧ s.onRef = true ∧ s.is CLK_STAT_IRC_STABLE = true) ∧
    (∃ (s : State), s.armed = true ∧ s.boot.tripped = false ∧ s.onRef = false ∧ s.boot.stage ≠ .window) ∧
    (∃ (s : State), s.boot.stage = .window) ∧
    (∃ (n : Nat) (s : State), s.boot.stage = .pending) ∧
    (∃ (n : Nat) (s : State), s.boot.stage = .pending) ∧
    (∃ (us : Nat) (s : State), s.up = true ∧ s.rd CLK_STAT_STATE = 1 ∧ s.is CLK_CTRL_FO_RELOCK = true ∧ s.boot.ircFlag = true
        ∧ s.is CLK_STAT_PLL_LOCK = false) ∧
    (∃ (c : Nat) (s : State), s.up = true ∧ s.boot.trimFrozen = false ∧ 100 ≤ s.boot.windows ∧ s.rd CLK_STAT_STATE = 0
        ∧ s.is CLK_STAT_PLL_LOCK = true ∧ c < 4096) :=
  ⟨⟨498, (svc.wr CLK_STAT_IRC_STABLE 1).wr CLK_STAT_REF_OK 1, by decide +kernel⟩,
   ⟨503, (svc.wr CLK_STAT_IRC_STABLE 1).wr CLK_STAT_STATE 1, by decide +kernel⟩,
   ⟨497, svc.wr CLK_STAT_IRC_STABLE 1, by decide +kernel⟩,
   ⟨svc, by decide +kernel⟩,
   ⟨{ svc with boot.stage := .pll }, by decide +kernel⟩,
   ⟨svc.wr CLK_STAT_IRC_STABLE 1, by decide +kernel⟩,
   ⟨svc.wr CLK_STAT_STATE 1, by decide +kernel⟩,
   ⟨{ svc with boot.stage := .window }, by decide +kernel⟩,
   ⟨40, { svc with boot.stage := .pending, boot.resume := .run }, by decide +kernel⟩,
   ⟨40, { svc with boot.stage := .pending, boot.resume := .pll }, by decide +kernel⟩,
   ⟨1000, ({ svc.wr CLK_STAT_STATE 1 with boot.ircFlag := true }).wr CLK_CTRL_FO_RELOCK 1, by decide +kernel⟩,
   ⟨4095, { svc.wr CLK_STAT_PLL_LOCK 1 with boot.windows := 100 }, by decide +kernel⟩⟩

theorem witness_CommandedClockChanges :
    (∃ (m : Master) (s : State), Accepted s m CLK_SW_TARGET.addr ∧ s.is CLK_STAT_SW_BUSY = false ∧ s.rd CLK_STAT_STATE ≠ 4) ∧
    (∃ (m : Master) (s : State), Accepted s m CLK_SW_TARGET.addr ∧ (s.is CLK_STAT_SW_BUSY = true ∨ s.rd CLK_STAT_STATE = 4) ∧ Listens s) ∧
    (∃ (n : Nat) (s : State), s.up = true ∧ s.is CLK_STAT_SW_BUSY = true ∧ (s.boot.swTarget ≠ 1 ∨ (s.boot.tripped = false
        ∧ s.is CLK_STAT_IRC_STABLE = true)) ∧ 1 ≤ s.boot.swTarget ∧ s.boot.swTarget ≤ 3 ∧ s.is ACQ_CFG_EN = false) ∧
    (∃ (n : Nat) (s : State), s.up = true ∧ s.is CLK_STAT_SW_BUSY = true ∧ (s.boot.swTarget ≠ 1 ∨ (s.boot.tripped = false
        ∧ s.is CLK_STAT_IRC_STABLE = true)) ∧ 1 ≤ s.boot.swTarget ∧ s.boot.swTarget ≤ 3 ∧ s.is ACQ_CFG_EN = false) ∧
    (∃ (n : Nat) (s : State), s.boot.swTarget = 1 ∧ (s.boot.tripped = true ∨ s.is CLK_STAT_IRC_STABLE = false)) :=
  ⟨⟨.host, svc, by decide +kernel⟩,
   ⟨.mc, svc.wr CLK_STAT_SW_BUSY 1, by decide +kernel⟩,
   ⟨3, { svc.wr CLK_STAT_SW_BUSY 1 with boot.swTarget := 3 }, by decide +kernel⟩,
   ⟨3, { (svc.wr CLK_STAT_SW_BUSY 1).wr CLK_STAT_IRC_STABLE 1 with boot.swTarget := 1, boot.ircFlag := true }, by decide +kernel⟩,
   ⟨0, { svc.wr CLK_STAT_SW_BUSY 1 with boot.swTarget := 1 }, by decide +kernel⟩⟩

theorem witness_GatesDomainsHibernate :
    (∃ (u : Nat) (s : State), s.up = true ∧ u < 19 ∧ s.gateWanted u = false) ∧
    (∃ (u : Nat) (s : State), s.up = true ∧ u < 19 ∧ s.gateWanted u = false) ∧
    (∃ (u : Nat) (a : Nat) (m : Master) (w : Bool) (s : State), s.up = true ∧ u < 19 ∧ bit s.gate.opened u = 1 ∧ a < 2 ^ 32) ∧
    (∃ (u : Nat) (a : Nat) (m : Master) (w : Bool) (s : State), s.up = true ∧ u < 19 ∧ bit s.gate.opened u = 1 ∧ a < 2 ^ 32) ∧
    (∃ (u : Nat) (a : Nat) (m : Master) (w : Bool) (s : State), s.up = true ∧ u < 19 ∧ bit s.gate.opened u = 1 ∧ a < 2 ^ 32) ∧
    (∃ (a : Nat) (m : Master) (w : Bool) (s : State), s.up = true ∧ bit s.gate.opened 17 = 1 ∧ a < 2 ^ 32 ∧ Listens s) ∧
    (∃ (k : Nat) (s : State), s.up = true ∧ s.nextSwitch = some (k, true)) ∧
    (∃ (k : Nat) (b : Bool) (s : State), s.up = true ∧ s.nextSwitch = some (k, false)) ∧
    (∃ (s : State), s.up = true ∧ s.nextSwitch = some (7, true)) ∧
    (∃ (m : Master) (s : State), Accepted s m PWR_HIB_CMD.addr) ∧
    (∃ (m : Master) (v : Nat) (s : State), Accepted s m PWR_HIB_CMD.addr ∧ v < 2 ^ 32 ∧ v ≠ 0xA501) ∧
    (∃ (s : State), s.boot.stage = .hibernate ∧ s.is PWR_WAKE_CFG_RTC = true ∧ s.boot.alarmHeld = false) ∧
    (∃ (s : State), s.boot.stage = .hibernate ∧ s.boot.alarmHeld = true) :=
  ⟨⟨18, svc, by decide +kernel⟩,
   ⟨17, svc, by decide +kernel⟩,
   ⟨16, 0xFFFFFFFF, .mc, true, { svc with gate.opened := 2 ^ 16 }, by decide +kernel⟩,
   ⟨15, 0, .host, false, { svc with gate.opened := 2 ^ 15 }, by decide +kernel⟩,
   ⟨18, 0, .host, false, { svc with gate.opened := 2 ^ 18, fab.dpOp := 1, fab.dpLen := 4 }, by decide +kernel⟩,
   ⟨0xFFFFFFFF, .mc, true, { svc with gate.opened := 2 ^ 17 }, by decide +kernel⟩,
   ⟨2, (svc.wr PWR_DOMAIN_EN_EN 63).wr PWR_STAT_ON 251, by decide +kernel⟩,
   ⟨2, true, svc.wr PWR_DOMAIN_EN_EN 62, by decide +kernel⟩,
   ⟨(svc.wr PWR_DOMAIN_EN_EN 63).wr PWR_STAT_ON 127, by decide +kernel⟩,
   ⟨.host, svc, by decide +kernel⟩,
   ⟨.host, 0xA502, svc, by decide +kernel⟩,
   ⟨({ svc with boot.stage := .hibernate }).wr PWR_WAKE_CFG_RTC 1, by decide +kernel⟩,
   ⟨{ svc with boot.stage := .hibernate, boot.alarmHeld := true }, by decide +kernel⟩⟩

theorem witness_PfailPausesAndResumes :
    (∃ (s : State), s.up = true ∧ s.is PWR_PFAIL_STAT_PFAIL = false ∧ s.qtyRuns = false) ∧
    (∃ (s : State), s.up = true ∧ s.is PWR_PFAIL_STAT_PFAIL = false ∧ s.qtyRuns = false) ∧
    (∃ (s : State), s.up = true ∧ s.is PWR_PFAIL_STAT_PFAIL = false ∧ s.qtyRuns = true) ∧
    (∃ (us : Nat) (s : State), s.up = true ∧ s.is PWR_PFAIL_STAT_PFAIL = true ∧ s.is PWR_PFAIL_STAT_COPY_DONE = false) ∧
    (∃ (s : State), s.up = true ∧ s.is PWR_PFAIL_STAT_PFAIL = true) ∧
    (∃ (s : State), s.up = true ∧ s.is PWR_PFAIL_STAT_PFAIL = true) :=
  ⟨⟨svc.wr PWR_STAT_ON 0, by decide +kernel⟩,
   ⟨svc, by decide +kernel⟩,
   ⟨svc.wr QTY_CFG_EN 1, by decide +kernel⟩,
   ⟨20, svc.wr PWR_PFAIL_STAT_PFAIL 1, by decide +kernel⟩,
   ⟨svc.wr PWR_PFAIL_STAT_PFAIL 1, by decide +kernel⟩,
   ⟨({ svc with qty.paused := some 0 }.wr QTY_CFG_EN 1).wr PWR_PFAIL_STAT_PFAIL 1, by decide +kernel⟩⟩

theorem witness_RegisterWriteByAccessCode :
    (∃ (m : Master) (v : Nat) (s : State), Accepted s m 0x800C ∧ v < 2 ^ 32) ∧
    (∃ (m : Master) (v : Nat) (s : State), Accepted s m 0x20048 ∧ v < 2 ^ 32) ∧
    (∃ (m : Master) (v : Nat) (s : State), Accepted s m 0xE0000 ∧ v < 2 ^ 32) ∧
    (∃ (m : Master) (a : Nat) (v : Nat) (s : State), (a = 0x64 ∨ a = CLK_MON_TRIPS_TRIPS.addr) ∧ Accepted s m a ∧ v < 2 ^ 32) ∧
    (∃ (m : Master) (a : Nat) (v : Nat) (s : State), (a = 0x64 ∨ a = CLK_MON_TRIPS_TRIPS.addr) ∧ Accepted s m a ∧ v < 2 ^ 32) ∧
    (∃ (m : Master) (v : Nat) (s : State), Accepted s m 0x100000 ∧ v < 2 ^ 32 ∧ s.is (BLK_LOCK_LOCK 19) = false) ∧
    (∃ (m : Master) (v : Nat) (s : State), Accepted s m 0x100000 ∧ v < 2 ^ 32 ∧ s.is (BLK_LOCK_LOCK 19) = true ∧ Listens s) ∧
    (∃ (v : Nat) (w : Nat) (s : State), Accepted s .mc 0x800C ∧ Accepted s .host 0x800C ∧ v < 2 ^ 32 ∧ w < 2 ^ 32 ∧ Listens s) ∧
    (∃ (m : Master) (a : Nat) (v : Nat) (z : Nat) (s : State), s.up = true ∧ inWindow a = true ∧ (z = 1 ∨ z = 2)) :=
  ⟨⟨.host, 3, svc, by decide +kernel⟩,
   ⟨.mc, 0xFFFF0005, svc, by decide +kernel⟩,
   ⟨.mc, 0x71, svc, by decide +kernel⟩,
   ⟨.host, 0x64, 0xFFFFFFFF, svc, by decide +kernel⟩,
   ⟨.host, CLK_MON_TRIPS_TRIPS.addr, 7, svc, by decide +kernel⟩,
   ⟨.mc, 3, svc, by decide +kernel⟩,
   ⟨.mc, 3, svc.wr (BLK_LOCK_LOCK 19) 1, by decide +kernel⟩,
   ⟨2, 5, svc, by decide +kernel⟩,
   ⟨.mc, 0x800C, 3, 2, svc, by decide +kernel⟩⟩

theorem witness_LocksCountersCausesVoter :
    (∃ (m : Master) (b : Nat) (v : Nat) (s : State), b < 20 ∧ Accepted s m (BLK_LOCK_LOCK b).addr ∧ s.is (BLK_LOCK_LOCK b) = false) ∧
    (∃ (m : Master) (b : Nat) (v : Nat) (s : State), b < 20 ∧ Accepted s m (BLK_LOCK_LOCK b).addr ∧ s.is (BLK_LOCK_LOCK b) = true ∧ Listens s) ∧
    (∃ (m : Master) (b : Nat) (s : State), b < 20 ∧ Accepted s m (BLK_CLR_CLRCNT b).addr) ∧
    (∃ (m : Master) (b : Nat) (s : State), b < 20 ∧ Accepted s m (BLK_CLR_CLRCNT b).addr) ∧
    (∃ (m : Master) (b : Nat) (f : Field) (s : State), b < 20 ∧ Accepted s m (BLK_CLR_CLRCNT b).addr ∧ f.acc = .roc ∧ f.lo < 32
        ∧ blkOfAddr f.addr = b ∧ rocKey (fieldKey f) = true ∧ f.dflt = 0 ∧ 0 < f.width ∧ (b ≠ 0 ∨ fieldKey f ∉ writeCounters.map fieldKey)) ∧
    (∃ (m : Master) (mask : Nat) (s : State), Accepted s m SYS_NMI_ACK_MASK.addr) ∧
    (∃ (v : Nat) (s : State), s.up = true ∧ v < 16
        ∧ vote (s.rd (copyOf 0 RED_CFG_ROLE)) (s.rd (copyOf 1 RED_CFG_ROLE)) (s.rd (copyOf 2 RED_CFG_ROLE)) = some v) ∧
    (∃ (s : State), s.up = true ∧ vote (s.rd (copyOf 0 RED_CFG_ROLE)) (s.rd (copyOf 1 RED_CFG_ROLE)) (s.rd (copyOf 2 RED_CFG_ROLE)) = none) :=
  ⟨⟨.mc, 19, 1, svc, by decide +kernel⟩,
   ⟨.mc, 0, 0, svc.wr (BLK_LOCK_LOCK 0) 1, by decide +kernel⟩,
   ⟨.host, 4, svc.wr (NET_P_RX_OK_LO_COUNT 0) 5, by decide +kernel⟩,
   ⟨.host, 0, svc.wr SYS_FAB_WR_MC_COUNT 5, by decide +kernel⟩,
   ⟨.host, 4, NET_P_OVF_COUNT 5, svc.wr (NET_P_OVF_COUNT 5) 9, by decide +kernel⟩,
   ⟨.mc, 0x11, ((svc.wr SYS_NMI_CAUSE_CLKFAIL 1).wr SYS_NMI_CAUSE_UNCORR 1).wr SYS_NMI_CAUSE_VOTE 1, by decide +kernel⟩,
   ⟨8, svc.wr (copyOf 1 RED_CFG_ROLE) 3, by decide +kernel⟩,
   ⟨(svc.wr (copyOf 1 RED_CFG_ROLE) 3).wr (copyOf 2 RED_CFG_ROLE) 5, by decide +kernel⟩⟩

theorem witness_TablePorts :
    (∃ (m : Master) (b : Nat) (s : State), b < 20 ∧ Accepted s m (TP_CMD_OP b (mNum m)).addr ∧ s.is (TP_STAT_BUSY b (mNum m)) = false
        ∧ s.rd (TP_IDX_ENTRY b (mNum m)) < (tblSize b (s.rd (TP_IDX_TABLE b (mNum m)))).1 ∧ hasTables b = true) ∧
    (∃ (m : Master) (b : Nat) (s : State), b < 20 ∧ Accepted s m (TP_CMD_OP b (mNum m)).addr ∧ s.is (TP_STAT_BUSY b (mNum m)) = false
        ∧ (tblSize b (s.rd (TP_IDX_TABLE b (mNum m)))).1 ≤ s.rd (TP_IDX_ENTRY b (mNum m)) ∧ hasTables b = true) ∧
    (∃ (m : Master) (e : Nat) (s : State), Accepted s m (TP_CMD_OP 9 (mNum m)).addr ∧ s.is (TP_STAT_BUSY 9 (mNum m)) = false
        ∧ s.rd (TP_IDX_TABLE 9 (mNum m)) = 3 ∧ s.rd (TP_IDX_ENTRY 9 (mNum m)) = e ∧ e < 4096) ∧
    (∃ (m : Master) (b : Nat) (s : State), b < 20 ∧ hasTables b = true ∧ Accepted s m (TP_CMD_OP b (mNum m)).addr
        ∧ s.is (TP_STAT_BUSY b (mNum m)) = true ∧ Listens s) ∧
    (∃ (m : Master) (b : Nat) (s : State), s.up = true ∧ hasTables b = true ∧ s.is (TP_STAT_BUSY b (mNum m)) = true) :=
  ⟨⟨.mc, 5, svc, by decide +kernel⟩,
   ⟨.host, 5, svc.wr (TP_IDX_ENTRY 5 1) 4096, by decide +kernel⟩,
   ⟨.mc, 4095, (((svc.wr (TP_IDX_TABLE 9 0) 3).wr (TP_IDX_ENTRY 9 0) 4095).wr (TP_BUF 9 0 0) 0x7F).wr (TP_BUF 9 0 1) 0x0FFF7FFF, by decide +kernel⟩,
   ⟨.mc, 9, svc.wr (TP_STAT_BUSY 9 0) 1, by decide +kernel⟩,
   ⟨.host, 17, svc.wr (TP_STAT_BUSY 17 1) 1, by decide +kernel⟩⟩

theorem witness_PairsAndHostLinks :
    (∃ (m : Master) (a : Nat) (s : State), s.up = true ∧ busFail s m false 4 a = none ∧ pairOf a = 1 ∧ isPort (mNum m) a = false
        ∧ s.regFail false a = false ∧ a ≠ 0x100038) ∧
    (∃ (m : Master) (a : Nat) (w : Nat) (s : State), s.up = true ∧ busFail s m false 4 a = none ∧ pairOf a = 2 ∧ isPort (mNum m) a = false
        ∧ s.regFail false a = false ∧ a ≠ 0x100038 ∧ assoc s.fab.shadow (shadowKey m a) = some w) ∧
    (∃ (u : Nat) (w : Nat) (p : Nat) (s : State), s.up = true ∧ s.on 7 = true ∧ s.boot.hostPort = 0 ∧ u < 2 ∧ w < 4 ∧ p < 4) ∧
    (∃ (s : State), s.qspiOn = true ∧ busFail s .host false 4 0 = none) ∧
    (∃ (a : Nat) (s : State), s.qspiOn = true ∧ inWindow a = false) ∧
    (∃ (x : Nat) (y : Nat) (s : State), s.qspiOn = true ∧ busFail s .host true 4 0x800C = none ∧ x < 2 ^ 32 ∧ y < 2 ^ 32) ∧
    (∃ (s : State), s.qspiOn = true) ∧
    (∃ (a : Nat) (c : Nat) (n : Nat) (s : State), s.qspiOn = true ∧ Listens s) :=
  ⟨⟨.mc, 0x31080, svc, by decide +kernel⟩,
   ⟨.host, 0x31084, 77, { svc with fab.shadow := [(shadowKey .host 0x31084, 77)] }, by decide +kernel⟩,
   ⟨1, 3, 3, svc, by decide +kernel⟩,
   ⟨{ svc with boot.hostPort := 1 }, by decide +kernel⟩,
   ⟨0xFF0000, { svc with boot.hostPort := 1 }, by decide +kernel⟩,
   ⟨3, 0xFFFFFFFF, { svc with boot.hostPort := 1 }, by decide +kernel⟩,
   ⟨{ svc with boot.hostPort := 1, fab.qspiErr := true }, by decide +kernel⟩,
   ⟨0x100, 2, 31, { svc with boot.hostPort := 1 }, by decide +kernel⟩⟩

theorem witness_DataPort :
    (∃ (s : State), s.up = true ∧ busFail s .host false 4 0x100038 = none ∧ s.ircDirect = false ∧ s.is HST_DP_STAT_BUSY = false
        ∧ s.is HST_DP_CTRL_PAIR = false ∧ s.dpRefuse false 4 = none) ∧
    (∃ (s : State), s.up = true ∧ busFail s .host false 4 0x100038 = none ∧ s.ircDirect = false ∧ s.is HST_DP_STAT_BUSY = false
        ∧ s.is HST_DP_CTRL_PAIR = true ∧ s.fab.dpHeld = none ∧ s.dpRefuse false 8 = none) ∧
    (∃ (v : Nat) (s : State), s.up = true ∧ busFail s .host false 4 0x100038 = none ∧ s.ircDirect = false ∧ s.is HST_DP_STAT_BUSY = false
        ∧ s.is HST_DP_CTRL_PAIR = true ∧ s.fab.dpHeld = some (false, v)) ∧
    (∃ (v : Nat) (s : State), Accepted s .host 0x100038 ∧ s.ircDirect = false ∧ s.is HST_DP_STAT_BUSY = false ∧ s.is HST_DP_CTRL_PAIR = false
        ∧ s.dpRefuse true 4 = none ∧ v < 2 ^ 32) ∧
    (∃ (v : Nat) (s : State), Accepted s .host 0x100038 ∧ s.ircDirect = false ∧ s.is HST_DP_STAT_BUSY = false ∧ s.is HST_DP_CTRL_PAIR = true
        ∧ s.fab.dpHeld = none ∧ s.dpRefuse true 8 = none ∧ v < 2 ^ 32) ∧
    (∃ (v : Nat) (w : Nat) (s : State), Accepted s .host 0x100038 ∧ s.ircDirect = false ∧ s.is HST_DP_STAT_BUSY = false
        ∧ s.is HST_DP_CTRL_PAIR = true ∧ s.fab.dpHeld = some (true, w) ∧ v < 2 ^ 32) ∧
    (∃ (v : Nat) (s : State), Accepted s .host 0x100038 ∧ s.ircDirect = false ∧ s.is HST_DP_STAT_BUSY = false ∧ s.is HST_DP_CTRL_PAIR = false
        ∧ s.rd HST_DP_SEL_PART < 2) ∧
    (∃ (s : State), Accepted s .host HST_DP_CMD_OP.addr ∧ s.is HST_DP_STAT_BUSY = false ∧ s.dpRefuse false (4 * s.dpBlen) = none) ∧
    (∃ (s : State), Accepted s .host HST_DP_CMD_OP.addr ∧ s.is HST_DP_STAT_BUSY = false ∧ s.dpRefuse true (4 * s.dpBlen) = none) ∧
    (∃ (s : State), s.up = true ∧ s.on 7 = true ∧ s.ircDirect = false ∧ s.is HST_DP_STAT_BUSY = true ∧ s.fab.dpOp % 4 = 1 ∧ s.fab.dpLen ≤ 256) ∧
    (∃ (e : List Nat) (i : Nat) (s : State), s.up = true ∧ s.on 7 = true ∧ s.ircDirect = false ∧ s.is HST_DP_STAT_BUSY = true
        ∧ s.fab.dpOp % 4 = 1 ∧ i ∈ e ∧ i < s.fab.dpLen ∧ s.fab.dpLen ≤ 256) ∧
    (∃ (s : State), s.up = true ∧ s.on 7 = true ∧ s.ircDirect = false ∧ s.is HST_DP_STAT_BUSY = true ∧ s.fab.dpOp % 4 = 2) ∧
    (∃ (n : Nat) (s : State), Accepted s .host HST_DP_CMD_OP.addr ∧ s.is HST_DP_STAT_BUSY = true) ∧
    (∃ (n : Nat) (s : State), Accepted s .host HST_DP_CMD_OP.addr ∧ s.is HST_DP_STAT_BUSY = true) ∧
    (∃ (e : List Nat) (v : Nat) (s : State), s.ircDirect = true ∧ busFail s .host true 4 0x100038 = none) :=
  ⟨⟨svcP.wr HST_DP_SEL_PART 2, by decide +kernel⟩,
   ⟨(svcP.wr HST_DP_SEL_PART 2).wr HST_DP_CTRL_PAIR 1, by decide +kernel⟩,
   ⟨7, ({ svcP with fab.dpHeld := some (false, 7) }).wr HST_DP_CTRL_PAIR 1, by decide +kernel⟩,
   ⟨0xFFFFFFFF, (svcP.wr HST_DP_SEL_PART 9).wr HST_DP_ADDR_LO_ADDR 0x3FFFFFC, by decide +kernel⟩,
   ⟨0xFFFFFFFF, ((svcP.wr HST_DP_SEL_PART 9).wr HST_DP_ADDR_LO_ADDR 0x3FFFFF8).wr HST_DP_CTRL_PAIR 1, by decide +kernel⟩,
   ⟨0xFFFFFFFF, 5, ({ svcP.wr HST_DP_SEL_PART 9 with fab.dpHeld := some (true, 5) }).wr HST_DP_CTRL_PAIR 1, by decide +kernel⟩,
   ⟨1, svcP.wr HST_DP_SEL_PART 1, by decide +kernel⟩,
   ⟨(svcP.wr HST_DP_SEL_PART 2).wr HST_DP_CTRL_BLEN 4, by decide +kernel⟩,
   ⟨(svcP.wr HST_DP_SEL_PART 9).wr HST_DP_CTRL_BLEN 0, by decide +kernel⟩,
   ⟨{ svcP.wr HST_DP_STAT_BUSY 1 with fab.dpOp := 9, fab.dpLen := 2, dram := Memory.writeN dramBlank [] (svcP.partBase 2) [1, 2, 3, 4, 5] }, by decide +kernel⟩,
   ⟨[1, 9], 1, { svcP.wr HST_DP_STAT_BUSY 1 with fab.dpOp := 9, fab.dpLen := 2 }, by decide +kernel⟩,
   ⟨{ (svcP.wr HST_DP_STAT_BUSY 1).wr (HST_WIN 1) 0x01020304 with fab.dpOp := 10, fab.dpLen := 2 }, by decide +kernel⟩,
   ⟨3, { svcP.wr HST_DP_STAT_BUSY 1 with fab.dpOp := 10, fab.dpLen := 8 }, by decide +kernel⟩,
   ⟨9, { svcP.wr HST_DP_STAT_BUSY 1 with fab.dpOp := 9, fab.dpLen := 8, dram := Memory.writeN dramBlank [] (svcP.partBase 2) [1, 2, 3, 4, 5] }, by decide +kernel⟩,
   ⟨[1], 5, svcP.wr CLK_STAT_STATE 1, by decide +kernel⟩⟩

theorem witness_ApplyStrobeAndTakeEffect :
    (∃ (m : Master) (mask : Nat) (b : Nat) (s : State), Accepted s m SYS_APPLY_MASK.addr ∧ b < 20 ∧ bit mask b = 1 ∧ blkBuffered b = true
        ∧ s.on (blkDom b) = true) ∧
    (∃ (v : Nat) (s : State), s.up = true ∧ s.pend = [(1, [(fieldKey CLK_CTRL_FO_RELOCK, v)])]) :=
  ⟨⟨.mc, 2, 1, svc.wrBuf CLK_CTRL_FO_RELOCK 1, by decide +kernel⟩,
   ⟨1, { svc with pend := [(1, [(fieldKey CLK_CTRL_FO_RELOCK, 1)])] }, by decide +kernel⟩⟩

theorem witness_IncrementAndSlewEnd :
    (∃ (m : Master) (lo : Nat) (hi : Nat) (s : State), Accepted s m TNS_INC_LO_FRAC.addr ∧ lo < 2 ^ 32 ∧ hi < 16
        ∧ incLow (s.eff TNS_INC_LIM_PPM) ≤ hi * 2 ^ 32 + lo ∧ hi * 2 ^ 32 + lo ≤ incHigh (s.eff TNS_INC_LIM_PPM)) ∧
    (∃ (m : Master) (lo : Nat) (hi : Nat) (s : State), Accepted s m TNS_INC_LO_FRAC.addr ∧ lo < 2 ^ 32 ∧ hi < 16 ∧ Listens s
        ∧ incHigh (s.eff TNS_INC_LIM_PPM) < hi * 2 ^ 32 + lo) ∧
    (∃ (m : Master) (lo : Nat) (hi : Nat) (s : State), Accepted s m TNS_INC_LO_FRAC.addr ∧ lo < 2 ^ 32 ∧ hi < 16 ∧ Listens s
        ∧ hi * 2 ^ 32 + lo < incLow (s.eff TNS_INC_LIM_PPM)) ∧
    (∃ (m : Master) (hi : Nat) (s : State), Accepted s m TNS_INC_HI_NS.addr ∧ hi < 16
        ∧ incLow (s.eff TNS_INC_LIM_PPM) ≤ hi * 2 ^ 32 + s.tns.loHeld.getD (s.rd TNS_INC_LO_FRAC)
        ∧ hi * 2 ^ 32 + s.tns.loHeld.getD (s.rd TNS_INC_LO_FRAC) ≤ incHigh (s.eff TNS_INC_LIM_PPM) ∧ s.tns.loHeld.getD 0 < 2 ^ 32) ∧
    (∃ (m : Master) (hi : Nat) (s : State), Accepted s m TNS_INC_HI_NS.addr ∧ hi < 16
        ∧ incLow (s.eff TNS_INC_LIM_PPM) ≤ hi * 2 ^ 32 + s.tns.loHeld.getD (s.rd TNS_INC_LO_FRAC)
        ∧ hi * 2 ^ 32 + s.tns.loHeld.getD (s.rd TNS_INC_LO_FRAC) ≤ incHigh (s.eff TNS_INC_LIM_PPM) ∧ s.tns.loHeld.getD 0 < 2 ^ 32) ∧
    (∃ (m : Master) (lo : Nat) (s : State), Accepted s m TNS_INC_LO_FRAC.addr) ∧
    (∃ (x : Nat) (s : State), s.up = true ∧ s.tns.slewEnd = some x ∧ incLow (s.eff TNS_INC_LIM_PPM) ≤ s.tns.est
        ∧ s.tns.est ≤ incHigh (s.eff TNS_INC_LIM_PPM)) :=
  ⟨⟨.mc, 0x80000000, 2, svc, by decide +kernel⟩,
   ⟨.host, 0xFFFFFFFF, 2, svc, by decide +kernel⟩,
   ⟨.host, 0, 0, svc, by decide +kernel⟩,
   ⟨.mc, 2, svc, by decide +kernel⟩,
   ⟨.host, 2, { svc with tns.loHeld := some 0x80000001 }, by decide +kernel⟩,
   ⟨.mc, 5, svc, by decide +kernel⟩,
   ⟨100, { svc with tns.slewEnd := some 100, tns.est := 0x280000000 }, by decide +kernel⟩⟩

theorem witness_SnapshotOfTheWritingMaster :
    ∃ (m : Master) (s : State), Accepted s m TNS_SNAP_GO.addr :=
  ⟨.host, svc, by decide +kernel⟩

theorem witness_ServoUpdates :
    (∃ (x : ServoMeas) (s : State), s.up = true ∧ (x.source = 1 ∨ x.source = 2) ∧ s.srcEn x.source = true ∧ (s.src x.source).valid = true
        ∧ s.rd TNS_STAT_SRC = x.source ∧ x.announce = false ∧ x.utcOfs = none ∧ x.leap = 0 ∧ x.offset = 0 ∧ s.is TNS_STAT_SLEW = false
        ∧ s.rd TNS_STAT_STATE = 2 ∧ incLow (s.eff TNS_INC_LIM_PPM) ≤ x.inc ∧ x.inc ≤ incHigh (s.eff TNS_INC_LIM_PPM)) ∧
    (∃ (x : ServoMeas) (s : State), s.up = true ∧ (x.source = 1 ∨ x.source = 2) ∧ s.srcEn x.source = true ∧ (s.src x.source).valid = true
        ∧ s.rd TNS_STAT_SRC = x.source ∧ x.announce = false ∧ x.utcOfs = none ∧ x.leap = 0 ∧ x.offset = 0 ∧ s.is TNS_STAT_SLEW = false
        ∧ s.rd TNS_STAT_STATE = 1 ∧ s.tns.run = 15) ∧
    (∃ (x : ServoMeas) (s : State), s.up = true ∧ (x.source = 1 ∨ x.source = 2) ∧ s.srcEn x.source = true ∧ (s.src x.source).valid = true
        ∧ s.rd TNS_STAT_SRC = x.source ∧ x.announce = false ∧ x.utcOfs = none ∧ x.leap = 0 ∧ x.offset ≠ 0
        ∧ x.offset.natAbs ≤ s.eff TNS_STEP_MAX_NS
        ∧ (if x.offset < 0 then incLow (s.eff TNS_INC_LIM_PPM) < x.inc else x.inc < incHigh (s.eff TNS_INC_LIM_PPM))) ∧
    (∃ (x : ServoMeas) (s : State), s.up = true ∧ (x.source = 1 ∨ x.source = 2) ∧ s.srcEn x.source = true ∧ (s.src x.source).valid = true
        ∧ s.rd TNS_STAT_SRC = x.source ∧ x.announce = false ∧ x.utcOfs = none ∧ x.leap = 0 ∧ x.offset ≠ 0
        ∧ x.offset.natAbs ≤ s.eff TNS_STEP_MAX_NS
        ∧ (if x.offset < 0 then incLow (s.eff TNS_INC_LIM_PPM) < x.inc else x.inc < incHigh (s.eff TNS_INC_LIM_PPM))) :=
  ⟨⟨⟨1, 0, incHigh 100, 20, false, none, 0, 0, 30, none, 0, 0, 0, 0⟩, { ((svc.wr TNS_DOMA_CFG_EN 1).wr TNS_STAT_SRC 1).wr TNS_STAT_STATE 2 with tns.srcs := [{ tSource0 with valid := true }, tSource0, tSource0, tSource0] }, by decide +kernel⟩,
   ⟨⟨2, 0, tickU, 20, false, none, 0, 0, 30, none, 0, 0, 0, 0⟩, { ((svc.wr TNS_DOMB_CFG_EN 1).wr TNS_STAT_SRC 2).wr TNS_STAT_STATE 1 with tns.srcs := [tSource0, { tSource0 with valid := true }, tSource0, tSource0], tns.run := 15 }, by decide +kernel⟩,
   ⟨⟨1, -1, tickU, 20, false, none, 0, 0, 30, none, 0, 0, 0, 0⟩, { ((svc.wr TNS_DOMA_CFG_EN 1).wr TNS_STAT_SRC 1).wr TNS_STAT_STATE 2 with tns.srcs := [{ tSource0 with valid := true }, tSource0, tSource0, tSource0] }, by decide +kernel⟩,
   ⟨⟨1, (svc.eff TNS_STEP_MAX_NS : Int), tickU, 20, false, none, 0, 0, 30, none, 0, 0, 0, 0⟩, { ((svc.wr TNS_DOMA_CFG_EN 1).wr TNS_STAT_SRC 1).wr TNS_STAT_STATE 2 with tns.srcs := [{ tSource0 with valid := true }, tSource0, tSource0, tSource0] }, by decide +kernel⟩⟩

theorem witness_SourceTimeoutRevertHoldover :
    (∃ (n : Nat) (s : State), s.up = true ∧ 1 ≤ n ∧ n ≤ 4 ∧ (s.src n).valid = true ∧ ((∃ k, k ≠ n ∧ k ∈ s.prioList ∧ (s.src k).valid = true))) ∧
    (∃ (n : Nat) (s : State), s.up = true ∧ 1 ≤ n ∧ n ≤ 4 ∧ (s.src n).valid = true ∧ ((∀ k, k ≠ n → k ∈ s.prioList → (s.src k).valid = false))
        ∧ s.rd TNS_STAT_STATE = 2 ∧ s.rd TNS_STAT_SRC = n) ∧
    (∃ (n : Nat) (x : Nat) (s : State), s.up = true ∧ s.rd TNS_STAT_SRC ≠ 0 ∧ s.reverts = [(n, x)] ∧ 3 ≤ n ∧ (s.src n).measured = false
        ∧ (s.rd TNS_STAT_STATE = 1 ∨ s.rd TNS_STAT_STATE = 2) ∧ (s.tns.domAct = 1 ∨ s.tns.domAct = 2)) ∧
    (∃ (s : State), s.up = true ∧ s.rd TNS_STAT_STATE = 3 ∧ s.is TNS_HOLD_HOLD_MAX = true) :=
  ⟨⟨1, { (svc.wr TNS_CTRL_PRIO 0x21).wr TNS_STAT_STATE 2 with tns.srcs := [{ tSource0 with valid := true }, { tSource0 with valid := true }, tSource0, tSource0] }, by and_intros <;> first | exact ⟨2, by decide +kernel⟩ | decide +kernel⟩,
   ⟨4, { ((svc.wr TNS_CTRL_PRIO 0x4).wr TNS_STAT_STATE 2).wr TNS_STAT_SRC 4 with tns.srcs := [tSource0, tSource0, tSource0, { tSource0 with valid := true }] }, by and_intros <;> first | exact prio_one _ _ (by decide +kernel) | decide +kernel⟩,
   ⟨3, secU, { (((svc.wr TNS_CTRL_PRIO 0x13).wr TNS_CTRL_REVERT 1).wr TNS_STAT_STATE 2).wr TNS_STAT_SRC 1 with tns.srcs := [{ tSource0 with valid := true }, tSource0, { tSource0 with valid := true }, tSource0], tns.domAct := 1 }, by decide +kernel⟩,
   ⟨(svc.wr TNS_STAT_STATE 3).wr TNS_HOLD_HOLD_MAX 1, by decide +kernel⟩⟩

theorem witness_DomainTransfer :
    (∃ (m : Master) (s : State), Accepted s m TNS_XFER_GO.addr ∧ s.is TNS_STAT_XFER = false ∧ s.is TNS_STAT_ALT_OK = true
        ∧ (s.tns.domAct = 1 ∨ s.tns.domAct = 2) ∧ (s.rd TNS_STAT_STATE = 1 ∨ s.rd TNS_STAT_STATE = 2) ∧ (s.src s.standby).measured = true
        ∧ (s.src s.standby).offset = 0 ∧ incLow (s.eff TNS_INC_LIM_PPM) ≤ s.rd TNS_INC_ALT_HI_NS * 2 ^ 32 + s.rd TNS_INC_ALT_LO_FRAC
        ∧ s.rd TNS_INC_ALT_HI_NS * 2 ^ 32 + s.rd TNS_INC_ALT_LO_FRAC ≤ incHigh (s.eff TNS_INC_LIM_PPM)) ∧
    (∃ (m : Master) (s : State), Accepted s m TNS_XFER_GO.addr ∧ s.is TNS_STAT_XFER = false ∧ s.is TNS_STAT_ALT_OK = true
        ∧ (s.tns.domAct = 1 ∨ s.tns.domAct = 2) ∧ (s.rd TNS_STAT_STATE = 0 ∨ s.rd TNS_STAT_STATE = 3 ∨ s.rd TNS_STAT_STATE = 4)
        ∧ (s.src s.standby).measured = true ∧ (s.src s.standby).offset = 0
        ∧ incLow (s.eff TNS_INC_LIM_PPM) ≤ s.rd TNS_INC_ALT_HI_NS * 2 ^ 32 + s.rd TNS_INC_ALT_LO_FRAC
        ∧ s.rd TNS_INC_ALT_HI_NS * 2 ^ 32 + s.rd TNS_INC_ALT_LO_FRAC ≤ incHigh (s.eff TNS_INC_LIM_PPM)) ∧
    (∃ (m : Master) (s : State), Accepted s m TNS_XFER_GO.addr ∧ s.is TNS_STAT_XFER = false ∧ s.is TNS_STAT_ALT_OK = false ∧ Listens s) ∧
    (∃ (m : Master) (s : State), Accepted s m TNS_XFER_GO.addr ∧ s.is TNS_STAT_XFER = true) :=
  ⟨⟨.host, { (((svc.wr TNS_STAT_ALT_OK 1).wr TNS_INC_ALT_HI_NS (incHigh 100 / 2 ^ 32)).wr TNS_INC_ALT_LO_FRAC (incHigh 100 % 2 ^ 32)).wr TNS_STAT_STATE 2 with tns.domAct := 1, tns.srcs := [tSource0, { tSource0 with measured := true }, tSource0, tSource0] }, by decide +kernel⟩,
   ⟨.host, { (((svc.wr TNS_STAT_ALT_OK 1).wr TNS_INC_ALT_HI_NS (incHigh 100 / 2 ^ 32)).wr TNS_INC_ALT_LO_FRAC (incHigh 100 % 2 ^ 32)).wr TNS_STAT_STATE 3 with tns.domAct := 2, tns.srcs := [{ tSource0 with measured := true }, tSource0, tSource0, tSource0] }, by decide +kernel⟩,
   ⟨.mc, { svc with tns.domAct := 2 }, by decide +kernel⟩,
   ⟨.mc, svc.wr TNS_STAT_XFER 1, by decide +kernel⟩⟩

theorem witness_PulsesAndIrig :
    (∃ (ago : Nat) (width : Nat) (l : Nat) (s : State), s.up = true ∧ s.is TNS_PPSI_CFG_EN = true ∧ (width < 1000 ∨ 900000000 < width)
        ∧ s.tns.ppsLast = some l ∧ Listens s) ∧
    (∃ (ago : Nat) (width : Nat) (l : Nat) (s : State), s.up = true ∧ s.is TNS_PPSI_CFG_EN = true ∧ 1000 ≤ width ∧ width ≤ 900000000
        ∧ s.tns.ppsLast = some l ∧ 1600000 < (((stampOf s.mono - ago : Nat) : Int) - (l : Int) - 16000000000).natAbs ∧ Listens s) ∧
    (∃ (ago : Nat) (width : Nat) (s : State), s.up = true ∧ s.is TNS_PPSI_CFG_EN = true ∧ 1000 ≤ width ∧ width ≤ 900000000
        ∧ ((s.tns.ppsLast.all fun l => decide ((((stampOf s.mono - ago : Nat) : Int) - (l : Int) - 16000000000).natAbs ≤ 1600000)) = true)
        ∧ s.tns.srcs.length = 4) ∧
    (∃ (ago : Nat) (width : Nat) (s : State), s.up = true ∧ s.is TNS_PPSI_CFG_EN = true ∧ 1000 ≤ width ∧ width ≤ 900000000
        ∧ ((s.tns.ppsLast.all fun l => decide ((((stampOf s.mono - ago : Nat) : Int) - (l : Int) - 16000000000).natAbs ≤ 1600000)) = true)
        ∧ s.tns.srcs.length = 4) ∧
    (∃ (f : IrigFrame) (s : State), s.up = true ∧ s.is TNS_IRIG_CFG_EN = true ∧ s.is TNS_IRIG_CFG_REQ1344 = true ∧ f.ext = false ∧ Listens s) ∧
    (∃ (f : IrigFrame) (s : State), s.up = true ∧ s.is TNS_IRIG_CFG_EN = true ∧ f.ext = true ∧ f.parityOk = false ∧ Listens s) ∧
    (∃ (f : IrigFrame) (l : Nat) (s : State), s.up = true ∧ s.is TNS_IRIG_CFG_EN = true ∧ f.ext = true ∧ f.parityOk = true
        ∧ s.tns.irigLast = some l ∧ f.sec ≠ l + 1 ∧ Listens s) ∧
    (∃ (f : IrigFrame) (l : Nat) (s : State), s.up = true ∧ s.is TNS_IRIG_CFG_EN = true ∧ f.ext = true ∧ f.parityOk = true
        ∧ s.tns.irigLast = some l ∧ f.sec = l + 1 ∧ s.tns.srcs.length = 4 ∧ s.rd TNS_STAT_SRC ≠ 3) ∧
    (∃ (s : State), s.up = true ∧ s.ppsOn = true ∧ 0 < s.inc) ∧
    (∃ (s : State), s.up = true ∧ s.tns.ppsActive = true) :=
  ⟨⟨3, 999, 5, { svc.wr TNS_PPSI_CFG_EN 1 with tns.ppsLast := some 5 }, by decide +kernel⟩,
   ⟨3, 1000, 5, { svc.wr TNS_PPSI_CFG_EN 1 with tns.ppsLast := some 5 }, by decide +kernel⟩,
   ⟨3, 1000, { svc.wr TNS_PPSI_CFG_EN 1 with mono := secU + 1600003 * 2 ^ 28, tai := 5 * secU, tns.ppsLast := some 1600000, tns.srcs := [tSource0, tSource0, tSource0, { tSource0 with good := 3 }] }, by decide +kernel⟩,
   ⟨3, 900000000, { svc.wr TNS_PPSI_CFG_EN 1 with tns.srcs := [tSource0, tSource0, tSource0, tSource0] }, by decide +kernel⟩,
   ⟨⟨100, 5, false, false, 0, 0, 0, none⟩, (svc.wr TNS_IRIG_CFG_EN 1).wr TNS_IRIG_CFG_REQ1344 1, by decide +kernel⟩,
   ⟨⟨100, 5, true, false, 0, 0, 0, none⟩, svc.wr TNS_IRIG_CFG_EN 1, by decide +kernel⟩,
   ⟨⟨100, 5, true, true, 0, 0, 0, none⟩, 5, { svc.wr TNS_IRIG_CFG_EN 1 with tns.irigLast := some 5 }, by decide +kernel⟩,
   ⟨⟨100, 5, true, true, 0, 0, 0, none⟩, 4, { svc.wr TNS_IRIG_CFG_EN 1 with tns.irigLast := some 4, tns.srcs := [tSource0, tSource0, tSource0, tSource0] }, by decide +kernel⟩,
   ⟨(svc.wr TNS_PPSO_CFG_EN 1).wr TNS_STAT_STATE 2, by decide +kernel⟩,
   ⟨{ svc with tns.ppsActive := true, tns.ppsEnd := 100 }, by decide +kernel⟩⟩

theorem witness_StepsAndLeapSeconds :
    (∃ (m : Master) (s : State), Accepted s m TNS_STEP_CMD_GO.addr ∧ s.stepNsOf = 0) ∧
    (∃ (m : Master) (s : State), Accepted s m TNS_STEP_CMD_GO.addr ∧ 0 < s.stepNsOf ∧ s.on 4 = false ∧ s.on 5 = false ∧ s.acq.next = none) ∧
    (∃ (m : Master) (s : State), Accepted s m TNS_STEP_CMD_GO.addr ∧ s.stepNsOf < 0 ∧ s.on 4 = false ∧ s.on 5 = false ∧ s.acq.next = none) ∧
    (∃ (x : Nat) (s : State), s.up = true ∧ s.tns.leapAt = some x ∧ s.on 5 = false ∧ 0 < s.inc) ∧
    (∃ (x : Nat) (s : State), s.up = true ∧ s.tns.leapAt = some x ∧ s.on 5 = false ∧ 0 < s.inc) :=
  ⟨⟨.mc, svc, by decide +kernel⟩,
   ⟨.mc, (svc.wr TNS_STEP_NS_NS 1).wr PWR_STAT_ON 207, by decide +kernel⟩,
   ⟨.host, ((svc.wr TNS_STEP_NS_NS 0).wr TNS_STEP_SEC_SEC (2 ^ 32 - 1)).wr PWR_STAT_ON 207, by decide +kernel⟩,
   ⟨7, { svc.wr PWR_STAT_ON 223 with tns.leapAt := some 7 }, by decide +kernel⟩,
   ⟨7, { ((svc.wr PWR_STAT_ON 223).wr TNS_UTC_LSDIR 1).wr TNS_UTC_OFS 0 with tns.leapAt := some 7 }, by decide +kernel⟩⟩

theorem witness_LinksUpAndDown :
    (∃ (n : Nat) (v : Nat) (s : State), s.portUp n = true ∧ s.portMode n ≠ 0 ∧ s.is (NET_P_STAT_LINK n) = false ∧ s.srefOk n = true) ∧
    (∃ (n : Nat) (v : Nat) (s : State), s.portUp n = true ∧ s.portMode n ≠ 0 ∧ s.is (NET_P_STAT_LINK n) = false ∧ s.srefOk n = true) ∧
    (∃ (n : Nat) (r : Bool) (s : State), s.portUp n = true ∧ s.is (NET_P_STAT_LINK n) = true) ∧
    (∃ (k : Nat) (rx : Nat) (s : State), s.up = true ∧ s.on 2 = true ∧ k < 2
        ∧ s.rd (if k = 0 then NET_SREF_STAT_SREF0_OK else NET_SREF_STAT_SREF1_OK) = 0 ∧ Listens s) ∧
    (∃ (k : Nat) (rx : Nat) (s : State), s.up = true ∧ s.on 2 = true ∧ k < 2
        ∧ s.rd (if k = 0 then NET_SREF_STAT_SREF0_OK else NET_SREF_STAT_SREF1_OK) = 1) ∧
    (∃ (k : Nat) (rx : Nat) (s : State), s.up = true ∧ s.on 2 = true ∧ k < 2
        ∧ s.rd (if k = 0 then NET_SREF_STAT_SREF0_OK else NET_SREF_STAT_SREF1_OK) = 1) :=
  ⟨⟨5, 7, (svc.wr (NET_P_CFG_MODE 5) 9), by decide +kernel⟩,
   ⟨0, 2, ((svc.wr (NET_P_CFG_MODE 0) 5).wr NET_SREF_STAT_SREF0_OK 1), by decide +kernel⟩,
   ⟨3, true, { upPort 3 1 with ports := [port0, port0, port0, { port0 with tx := [txF 60], held := [txF 60] }, port0, port0] }, by decide +kernel⟩,
   ⟨1, 9, svc.wr NET_SREF_STAT_SREF1_OK 0, by decide +kernel⟩,
   ⟨0, 9, upPort 1 3, by decide +kernel⟩,
   ⟨1, 9, upPort 2 3, by decide +kernel⟩⟩

theorem witness_FrameAdmission :
    (∃ (n : Nat) (f : RxFrame) (c : Field) (s : State), s.portUp n = true ∧ s.is (NET_P_STAT_LINK n) = true
        ∧ s.is (NET_P_FSTAT_FLUSH_BUSY n) = false ∧ s.admission n f = .drop c) ∧
    (∃ (n : Nat) (f : RxFrame) (c : Field) (s : State), s.portUp n = true ∧ s.is (NET_P_STAT_LINK n) = true
        ∧ s.is (NET_P_FSTAT_FLUSH_BUSY n) = false ∧ s.admission n f = .drop c) ∧
    (∃ (n : Nat) (f : RxFrame) (c : Field) (s : State), s.portUp n = true ∧ s.is (NET_P_STAT_LINK n) = true
        ∧ s.is (NET_P_FSTAT_FLUSH_BUSY n) = false ∧ s.admission n f = .drop c) ∧
    (∃ (n : Nat) (f : RxFrame) (s : State), s.portUp n = true ∧ s.is (NET_P_STAT_LINK n) = true ∧ s.is (NET_P_FSTAT_FLUSH_BUSY n) = false
        ∧ s.admission n f = .stranger ∧ s.ports.length = 6 ∧ Listens s) ∧
    (∃ (n : Nat) (f : RxFrame) (u : Bool) (s : State), s.portUp n = true ∧ s.is (NET_P_STAT_LINK n) = true
        ∧ s.is (NET_P_FSTAT_FLUSH_BUSY n) = false ∧ s.admission n f = .pass u ∧ s.ports.length = 6
        ∧ (s.port n).fill + f.bytes.length + 4 + 512 ≤ fifoCap n ∧ isPtp f.bytes = false) ∧
    (∃ (n : Nat) (f : RxFrame) (u : Bool) (s : State), s.portUp n = true ∧ s.is (NET_P_STAT_LINK n) = true
        ∧ s.is (NET_P_FSTAT_FLUSH_BUSY n) = false ∧ s.admission n f = .pass u ∧ fifoCap n ≤ (s.port n).fill ∧ s.is (NET_P_FSTAT_OVF n) = false
        ∧ Listens s) :=
  ⟨⟨0, ⟨List.replicate 59 0, true, 5⟩, NET_P_RUNT_COUNT 0, upPort 0 3, by decide +kernel⟩,
   ⟨0, ⟨List.replicate 60 0, false, 5⟩, NET_P_FCSERR_COUNT 0, upPort 0 3, by decide +kernel⟩,
   ⟨4, ⟨List.replicate 60 0, false, 5⟩, NET_P_FCSERR_COUNT 4, upPort 4 8, by decide +kernel⟩,
   ⟨0, ⟨patch (frame 0x0806 60) 0 (beBytes 6 0x0200000000AA), true, 5⟩, upPort 0 3, by decide +kernel⟩,
   ⟨5, ⟨frame 0x0806 60, true, 5⟩, false, upPort 5 8, by decide +kernel⟩,
   ⟨5, ⟨frame 0x0806 60, true, 5⟩, false, { upPort 5 8 with ports := [port0, port0, port0, port0, port0, { port0 with fifo := List.replicate 2 { entry [] with len := 8192 } }] }, by decide +kernel⟩⟩

theorem witness_PauseIdleFlush :
    (∃ (n : Nat) (q : Nat) (s : State), s.portUp n = true ∧ s.is (NET_P_STAT_LINK n) = true ∧ n < 4 ∧ s.is (NET_P_CFG_PAUSE_HON n) = true
        ∧ (s.port n).pause = none ∧ 0 < q ∧ q < 65536 ∧ s.ports.length = 6 ∧ Listens s) ∧
    (∃ (n : Nat) (q : Nat) (s : State), s.portUp n = true ∧ s.is (NET_P_STAT_LINK n) = true ∧ (4 ≤ n ∨ s.is (NET_P_CFG_PAUSE_HON n) = false)
        ∧ (s.port n).pause = none ∧ q < 65536 ∧ Listens s) ∧
    (∃ (n : Nat) (f : Nat) (u : Nat) (s : State), s.portUp n = true ∧ (s.port n).pause = some (f, u)) ∧
    (∃ (n : Nat) (s : State), s.portUp n = true ∧ n < 4 ∧ s.is (NET_P_CFG_EEE_EN n) = true ∧ ((1 ≤ s.portMode n
        ∧ s.portMode n ≤ 3) ∨ (s.portMode n = 5 ∧ s.rd (NET_P_STAT_SPEED n) ≠ 0)) ∧ s.is (NET_P_STAT_LINK n) = true ∧ (s.port n).tx = []
        ∧ s.is (NET_P_STAT_LPI_TX n) = false) ∧
    (∃ (n : Nat) (s : State), s.portUp n = true ∧ n < 4 ∧ s.is (NET_P_CFG_EEE_EN n) = true ∧ ((1 ≤ s.portMode n
        ∧ s.portMode n ≤ 3) ∨ (s.portMode n = 5 ∧ s.rd (NET_P_STAT_SPEED n) ≠ 0)) ∧ s.is (NET_P_STAT_LINK n) = true ∧ (s.port n).tx = []
        ∧ s.is (NET_P_STAT_LPI_TX n) = false) ∧
    (∃ (m : Master) (n : Nat) (s : State), n < 6 ∧ Accepted s m (0x3101C + 0x200 * n) ∧ s.is (NET_P_FSTAT_FLUSH_BUSY n) = false) ∧
    (∃ (m : Master) (n : Nat) (s : State), n < 6 ∧ Accepted s m (0x3101C + 0x200 * n) ∧ s.is (NET_P_FSTAT_FLUSH_BUSY n) = false
        ∧ s.ports.length = 6) ∧
    (∃ (n : Nat) (w : Nat) (s : State), s.portUp n = true ∧ s.is (NET_P_FSTAT_FLUSH_BUSY n) = true ∧ Listens s) :=
  ⟨⟨3, 65535, (upPort 3 3).wr (NET_P_CFG_PAUSE_HON 3) 1, by decide +kernel⟩,
   ⟨5, 0, (upPort 5 8).wr (NET_P_CFG_PAUSE_HON 5) 0, by decide +kernel⟩,
   ⟨0, 5, 1000, { upPort 0 3 with ports := [{ port0 with pause := some (5, 1000) }, port0, port0, port0, port0, port0] }, by decide +kernel⟩,
   ⟨3, (upPort 3 1).wr (NET_P_CFG_EEE_EN 3) 1, by decide +kernel⟩,
   ⟨3, ((upPort 3 5).wr (NET_P_STAT_SPEED 3) 1).wr (NET_P_CFG_EEE_EN 3) 1, by decide +kernel⟩,
   ⟨.mc, 5, { svc with ports := [port0, port0, port0, port0, port0, { port0 with fifo := [entry (frame 0x0806 60)] }] }, by decide +kernel⟩,
   ⟨.host, 0, { svc with ports := [{ port0 with fifo := [entry (frame 0x0806 60)] }, port0, port0, port0, port0, port0] }, by decide +kernel⟩,
   ⟨4, 7, svc.wr (NET_P_FSTAT_FLUSH_BUSY 4) 1, by decide +kernel⟩⟩

theorem witness_TransmissionAndCollisions :
    (∃ (n : Nat) (o : Nat) (f : TxFrame) (r : List TxFrame) (bs : List Byte) (s : State), s.portUp n = true ∧ s.is (NET_P_STAT_LINK n) = true
        ∧ (s.port n).tx = f :: r ∧ s.stationOk n = true ∧ s.plcaWaits n = false ∧ (s.port n).pause = none ∧ (([1,
        2].all fun d => !(s.domEn d && s.domPort d == n && decide ((s.ptpTx d).due ≤ s.mono))) = true)
        ∧ bs = insertSums f.c37 (patch (f.bytes ++ zeros (60 - f.bytes.length)) 6 (beBytes 6 ((s.slotAddr n 0).getD 0))) ∧ isPtp bs = false
        ∧ f.oneStep = false) ∧
    (∃ (n : Nat) (o : Nat) (f : TxFrame) (r : List TxFrame) (s : State), s.portUp n = true ∧ s.is (NET_P_STAT_LINK n) = true
        ∧ (s.port n).tx = f :: r ∧ s.stationOk n = false ∧ Listens s) ∧
    (∃ (n : Nat) (b : Nat) (f : TxFrame) (r : List TxFrame) (s : State), s.portUp n = true ∧ s.csma n = true ∧ s.is (NET_P_STAT_LINK n) = true
        ∧ (s.port n).tx = f :: r) ∧
    (∃ (n : Nat) (b : Nat) (f : TxFrame) (r : List TxFrame) (s : State), s.portUp n = true ∧ s.csma n = true ∧ s.is (NET_P_STAT_LINK n) = true
        ∧ (s.port n).tx = f :: r) ∧
    (∃ (n : Nat) (b : Nat) (f : TxFrame) (r : List TxFrame) (s : State), s.portUp n = true ∧ s.csma n = true ∧ s.is (NET_P_STAT_LINK n) = true
        ∧ (s.port n).tx = f :: r) ∧
    (∃ (n : Nat) (s : State), s.portUp n = true ∧ (s.port n).backoffUntil ≠ 0) ∧
    (∃ (n : Nat) (s : State), s.portUp n = true ∧ s.portMode n = 9 ∧ s.is (NET_P_STAT_LINK n) = true ∧ s.rd (NET_P_PLCA_NODE_ID n) ≠ 0
        ∧ (s.port n).fell = false ∧ s.ports.length = 6 ∧ Listens s) ∧
    (∃ (n : Nat) (s : State), s.portUp n = true ∧ s.portMode n = 9 ∧ s.is (NET_P_STAT_LINK n) = true ∧ s.rd (NET_P_PLCA_NODE_ID n) ≠ 0
        ∧ (s.port n).fell = false ∧ s.ports.length = 6 ∧ Listens s) ∧
    (∃ (n : Nat) (s : State), s.portUp n = true ∧ s.portMode n = 9 ∧ s.is (NET_P_STAT_LINK n) = true ∧ s.rd (NET_P_PLCA_NODE_ID n) ≠ 0
        ∧ s.is (NET_P_STAT_PLCA_ACT n) = false ∧ Listens s) ∧
    (∃ (m : Master) (n : Nat) (s : State), n < 4 ∧ Accepted s m (0x20218 + 0x20 * n)) :=
  ⟨⟨1, 5, txF 40, [], insertSums (txF 40).c37 (patch ((txF 40).bytes ++ zeros (60 - (txF 40).bytes.length)) 6 (beBytes 6 5)), { ((upPort 1 3).wr (NET_P_ADDR_HI_EN 1 0) 1).wr (NET_P_ADDR_LO_MAC 1 0) 5 with ports := portsWith 1 { port0 with tx := [txF 40] } }, by decide +kernel⟩,
   ⟨0, 5, txF 40, [txF 60], { upPort 0 3 with ports := [{ port0 with tx := [txF 40, txF 60] }, port0, port0, port0, port0, port0] }, by decide +kernel⟩,
   ⟨4, 512, txF 60, [], { upPort 4 8 with ports := [port0, port0, port0, port0, { port0 with tx := [txF 60], cols := 14 }, port0] }, by decide +kernel⟩,
   ⟨4, 513, txF 60, [], { upPort 4 8 with ports := [port0, port0, port0, port0, { port0 with tx := [txF 60], cols := 14 }, port0] }, by decide +kernel⟩,
   ⟨5, 512, txF 60, [], { upPort 5 9 with ports := [port0, port0, port0, port0, port0, { port0 with tx := [txF 60], cols := 15, fell := true }] }, by decide +kernel⟩,
   ⟨4, { upPort 4 8 with ports := [port0, port0, port0, port0, { port0 with tx := [txF 60], backoffUntil := 1 }, port0] }, by decide +kernel⟩,
   ⟨4, ((upPort 4 9).wr (NET_P_PLCA_NODE_ID 4) 1).wr (NET_P_STAT_PLCA_ACT 4) 1, by decide +kernel⟩,
   ⟨4, (upPort 4 9).wr (NET_P_PLCA_NODE_ID 4) 1, by decide +kernel⟩,
   ⟨5, (upPort 5 9).wr (NET_P_PLCA_NODE_ID 5) 255, by decide +kernel⟩,
   ⟨.mc, 3, { svc with tns.tsq := List.replicate 4 ⟨[], 1, false⟩ }, by decide +kernel⟩⟩

theorem witness_ParseAndPairs :
    (∃ (n : Nat) (e : RxEntry) (r : List RxEntry) (s : State), s.turnPort = some n ∧ (s.port n).fifo = e :: r ∧ etherType e.bytes ≠ 0x0800
        ∧ isPtp e.bytes = false ∧ s.ccd.lateQ = [] ∧ s.ccd.discQ = []) ∧
    (∃ (n : Nat) (e : RxEntry) (r : List RxEntry) (ip : Ip) (u : Udp) (s : State), s.turnPort = some n ∧ (s.port n).fifo = e :: r
        ∧ etherType e.bytes = 0x0800 ∧ parseIp e.bytes = some ip ∧ ip.proto = 17 ∧ u = parseUdp e.bytes ip ∧ u.payload ≠ []
        ∧ byteAt u.payload 0 = 0xAA ∧ u.dport ≠ 0 ∧ s.rd NET_C37_UDP_PORT0 = u.dport ∧ 22 ≤ beAt u.payload 2 2
        ∧ beAt u.payload 2 2 ≤ u.payload.length ∧ beAt u.payload 2 2 ≤ 9216 ∧ e.unchecked = false ∧ byteAt u.payload 1 / 16 % 8 = 0 ∧ ((∀ c,
        s.is (CTX_EN c) = false)) ∧ s.ccd.lateQ = [] ∧ s.ccd.discQ = []) ∧
    (∃ (w : CodedIn) (r : List CodedIn) (inner : List Byte) (rest : List Byte) (s : State), s.up = true ∧ s.on 2 = true ∧ s.on 6 = true
        ∧ s.elsCurrent = some .decode ∧ s.ing.coded = w :: r ∧ elsDecode (slice w.block 16 (w.block.length - 20)) = .inl (inner, rest)
        ∧ inner.length = leAt inner 4 4 ∧ 52 ≤ inner.length ∧ inner.length ≤ 65536
        ∧ crc32c (inner.take (inner.length - 4)) = leAt inner (inner.length - 4) 4 ∧ byteAt inner 8 = 1 ∧ byteAt inner 9 = 2
        ∧ 48 + 4 * ((leAt inner 36 2 + 31) / 32) + 24 * leAt inner 40 2 + 4 = inner.length ∧ leAt inner 42 2 = 0
        ∧ (s.putEntry w.ctx w.cfg).pairOf w.ctx = none ∧ s.ccd.lateQ = [] ∧ s.ccd.discQ = []) ∧
    (∃ (w : CodedIn) (r : List CodedIn) (s : State), s.up = true ∧ s.on 2 = true ∧ s.on 6 = true ∧ s.elsCurrent = some .decode
        ∧ s.ing.coded = w :: r) ∧
    (∃ (c : Nat) (p : Nat) (x : Nat) (s : State), s.up = true ∧ s.on 2 = true ∧ s.rate ≠ 0 ∧ s.pairOf c = some p ∧ assoc s.ing.heardAt c = some x
        ∧ s.is RED_STAT_LINK = false) ∧
    (∃ (c : Nat) (p : Nat) (b : Bool) (s : State), s.zlOn = true ∧ s.is RED_STAT_LINK = true ∧ s.is RED_STAT_DRIVING = false ∧ s.pairOf c = some p) :=
  ⟨⟨0, entry (frame 0x0806 60), [], { svc with ports := [{ port0 with fifo := [entry (frame 0x0806 60)] }, port0, port0, port0, port0, port0] }, by decide +kernel⟩,
   ⟨0, entry c37Frame, [], ⟨14, 20, 82, 17, 0x0A000001, 0x0A000002, 0⟩, parseUdp c37Frame ⟨14, 20, 82, 17, 0x0A000001, 0x0A000002, 0⟩, { svc with ports := [{ port0 with fifo := [entry c37Frame] }, port0, port0, port0, port0, port0] }, by and_intros <;> first | exact ctx_off _ (by decide +kernel) | decide +kernel⟩,
   ⟨codedIn, [], codedInner, [], { svc with ing.coded := [codedIn], els := [⟨.decode, false⟩] }, by decide +kernel⟩,
   ⟨codedIn, [codedIn], { svc with ing.coded := [codedIn, codedIn], els := [⟨.decode, false⟩] }, by decide +kernel⟩,
   ⟨3, 4, 7, { (((((svc.wr CCD_STAT_RATE_ACT 50).wr (CTX_EN 3) 1).wr (CTX_PAIRED 3) 1).wr (CTX_PARTNER 3) 4).wr (CTX_EN 4) 1 |>.wr (CTX_PAIRED 4) 1 |>.wr (CTX_PARTNER 4) 3) with ing.heardAt := [(3, 7)] }, by decide +kernel⟩,
   ⟨4, 3, true, pairS |>.wr RED_STAT_LINK 1 |>.wr (CTX_EN 3) 1 |>.wr (CTX_PAIRED 3) 1 |>.wr (CTX_PARTNER 3) 4 |>.wr (CTX_EN 4) 1 |>.wr (CTX_PAIRED
       4) 1 |>.wr (CTX_PARTNER 4) 3, by decide +kernel⟩⟩

theorem witness_LaneLockLossAndFault :
    (∃ (k : Nat) (r : Nat) (s : State), s.laneClk k = true ∧ k < 24 ∧ s.is (ACQ_L_STAT_LOCK k) = false ∧ s.acq.lanes.length = 24 ∧ Listens s) ∧
    (∃ (k : Nat) (s : State), s.acqOn = true ∧ k < 24 ∧ s.is (ACQ_L_STAT_LOCK k) = true
        ∧ (s.laneEn k = false ∨ s.is ACQ_CFG_EN = false ∨ s.acq.lastValid = none) ∧ Listens s) ∧
    (∃ (k : Nat) (v : AcqInst) (s : State), s.acqOn = true ∧ k < 24 ∧ s.is (ACQ_L_STAT_LOCK k) = true ∧ s.laneEn k = true
        ∧ s.is ACQ_CFG_EN = true ∧ s.acq.lastValid = some v ∧ (s.acq.gaps.any (fun g => g.cause == 3 && g.lanes == 2 ^ k) = false)) ∧
    (∃ (k : Nat) (s : State), s.acqOn = true ∧ k < 24 ∧ s.eff ACQ_FAULT_PARMAX ≤ (s.lane k).perr ∧ s.is (ACQ_L_STAT_FAULT k) = false
        ∧ (s.laneEn k = false ∨ s.is ACQ_CFG_EN = false ∨ s.acq.lastValid = none) ∧ Listens s) ∧
    (∃ (k : Nat) (v : AcqInst) (s : State), s.acqOn = true ∧ k < 24 ∧ s.eff ACQ_FAULT_PARMAX ≤ (s.lane k).perr
        ∧ s.is (ACQ_L_STAT_FAULT k) = false ∧ s.laneEn k = true ∧ s.is ACQ_CFG_EN = true ∧ s.acq.lastValid = some v
        ∧ (s.acq.gaps.any (fun g => g.cause == 4 && g.lanes == 2 ^ k) = false)) ∧
    (∃ (k : Nat) (s : State), s.acqOn = true ∧ k < 24 ∧ s.eff ACQ_FAULT_PARMAX ≤ (s.lane k).perr ∧ s.is (ACQ_L_STAT_FAULT k) = true) ∧
    (∃ (k : Nat) (s : State), s.acqOn = true ∧ k < 24 ∧ (s.lane k).perr < s.eff ACQ_FAULT_PARMAX) ∧
    (∃ (k : Nat) (s : State), s.acqOn = true ∧ k < 24 ∧ (s.lane k).perr < s.eff ACQ_FAULT_PARMAX) ∧
    (∃ (k : Nat) (n : Nat) (s : State), s.acqOn = true ∧ k < 24 ∧ assoc s.acq.msDone k = some n ∧ 0 < s.inc) :=
  ⟨⟨23, 9, (acqS 0).wr ACQ_CFG_EN 0, by decide +kernel⟩,
   ⟨23, (acqS 1).wr (ACQ_L_STAT_LOCK 23) 1, by decide +kernel⟩,
   ⟨23, ⟨3, 5, 24000, 0⟩, { (acqS (2 ^ 23)).wr (ACQ_L_STAT_LOCK 23) 1 with acq.lastValid := some ⟨3, 5, 24000, 0⟩ }, by decide +kernel⟩,
   ⟨0, { acqS 0 with acq.lanes := List.replicate 24 { acqLane0 with perr := 255 } }, by decide +kernel⟩,
   ⟨23, ⟨3, 5, 24000, 0⟩, { acqS (2 ^ 23) with acq.lanes := List.replicate 24 { acqLane0 with perr := 255 }, acq.lastValid := some ⟨3, 5, 24000, 0⟩ }, by decide +kernel⟩,
   ⟨23, { (acqS 0).wr (ACQ_L_STAT_FAULT 23) 1 with acq.lanes := List.replicate 24 { acqLane0 with perr := 255 } }, by decide +kernel⟩,
   ⟨0, acqS 1, by decide +kernel⟩,
   ⟨23, (acqS 1).wr (ACQ_L_STAT_FAULT 23) 1, by decide +kernel⟩,
   ⟨23, 4, { acqS 1 with acq.msDone := [(23, 4)] }, by decide +kernel⟩⟩

theorem witness_SamplesBanksAndSyncs :
    (∃ (fs : List Nat) (p : Nat × Nat) (s : State), s.acqOn = true ∧ s.acq.next = some p ∧ 0 < s.inc) ∧
    (∃ (m : Master) (b : Nat) (s : State), Accepted s m ACQ_FIR_SEL_BANK.addr) ∧
    (∃ (m : Master) (s : State), Accepted s m ACQ_SYNC_GO.addr ∧ s.acqOn = true ∧ s.is ACQ_STAT_ARMED = false
        ∧ (s.rd ACQ_SYNC_CFG_SRC ≠ 2 ∨ s.mclkRuns = false)) ∧
    (∃ (m : Master) (s : State), Accepted s m ACQ_SYNC_GO.addr ∧ s.mclkRuns = true ∧ s.is ACQ_STAT_ARMED = false ∧ s.rd ACQ_SYNC_CFG_SRC = 2) ∧
    (∃ (m : Master) (s : State), Accepted s m ACQ_SYNC_GO.addr ∧ s.is ACQ_STAT_ARMED = true) ∧
    (∃ (s : State), s.mclkRuns = true ∧ s.is ACQ_STAT_ARMED = true ∧ s.rd ACQ_SYNC_CFG_SRC ≠ 1 ∧ 0 < s.inc) ∧
    (∃ (s : State), s.mclkRuns = true ∧ s.is ACQ_STAT_ARMED = true ∧ s.rd ACQ_SYNC_CFG_SRC = 1) ∧
    (∃ (s : State), s.mclkRuns = true ∧ s.is ACQ_STAT_ARMED = true ∧ s.rd ACQ_SYNC_CFG_SRC = 1) :=
  ⟨⟨[], (0, 11999), { acqS 1 with acq.next := some (0, 11999) }, by decide +kernel⟩,
   ⟨.host, 3, svc, by decide +kernel⟩,
   ⟨.mc, (acqS 1).wr ACQ_SYNC_CFG_SRC 1, by decide +kernel⟩,
   ⟨.mc, { (acqS 1).wr ACQ_SYNC_CFG_SRC 2 with acq.hold := true }, by decide +kernel⟩,
   ⟨.mc, (acqS 1).wr ACQ_STAT_ARMED 1, by decide +kernel⟩,
   ⟨{ (acqS 1).wr ACQ_STAT_ARMED 1 with acq.hold := true }, by decide +kernel⟩,
   ⟨{ ((acqS 1).wr ACQ_STAT_ARMED 1).wr ACQ_SYNC_CFG_SRC 1 with acq.hold := true }, by decide +kernel⟩,
   ⟨{ ((acqS 1).wr ACQ_STAT_ARMED 1).wr ACQ_SYNC_CFG_SRC 1 with acq.hold := true }, by decide +kernel⟩⟩

theorem witness_StatusInputs :
    (∃ (i : Nat) (s : State), s.acqOn = true ∧ i < 64 ∧ s.is (ACQ_STI_CFG_EN i) = true ∧ s.chattering i = false
        ∧ s.rd ACQ_STI_STATE_LO_STATE < 2 ^ 32 ∧ s.rd ACQ_STI_CHAT_LO_CHAT < 2 ^ 32) ∧
    (∃ (i : Nat) (s : State), s.acqOn = true ∧ i < 64 ∧ s.is (ACQ_STI_CFG_EN i) = true ∧ s.chattering i = false
        ∧ s.rd ACQ_STI_STATE_LO_STATE < 2 ^ 32 ∧ s.rd ACQ_STI_CHAT_LO_CHAT < 2 ^ 32) ∧
    (∃ (i : Nat) (s : State), s.acqOn = true ∧ i < 64 ∧ s.is (ACQ_STI_CFG_EN i) = true ∧ s.chattering i = false ∧ s.rd ACQ_STI_GCFG_CHAT_MAX = 0
        ∧ s.is CAP_CFG_STI_EN = false ∧ s.is (ACQ_STI_CFG_LOG i) = false ∧ ((∀ k, s.rd (CAP_TRIG_CFG_SRC k) ≠ 0x23)) ∧ s.on 4 = false
        ∧ s.ccd.lateQ = [] ∧ s.ccd.discQ = []) ∧
    (∃ (i : Nat) (raw : Bool) (s : State), s.acqOn = true ∧ i < 64 ∧ s.chattering i = true
        ∧ (s.is (ACQ_STI_CFG_EN i) = false ∨ s.stiIn i raw = s.stiLevel i) ∧ Listens s) ∧
    (∃ (i : Nat) (raw : Bool) (s : State), s.acqOn = true ∧ i < 64 ∧ s.chattering i = true ∧ s.is (ACQ_STI_CFG_EN i) = true
        ∧ s.stiIn i raw ≠ s.stiLevel i ∧ s.rd ACQ_STI_STATE_LO_STATE < 2 ^ 32 ∧ s.rd ACQ_STI_CHAT_LO_CHAT < 2 ^ 32) :=
  ⟨⟨63, svc.wr (ACQ_STI_CFG_EN 63) 1, by decide +kernel⟩,
   ⟨0, (svc.wr (ACQ_STI_CFG_EN 0) 1).wr (ACQ_STI_CFG_INV 0) 1, by decide +kernel⟩,
   ⟨63, (((svc.wr CAP_CFG_STI_EN 0).wr (ACQ_STI_CFG_EN 63) 1).wr PWR_STAT_ON 239).wr ACQ_STI_GCFG_CHAT_MAX 0,
       by and_intros <;> first | exact trig_ne _ _ (by decide) (by decide +kernel) | decide +kernel⟩,
   ⟨63, false, svc.wr ACQ_STI_CHAT_HI_CHAT 0x80000000, by decide +kernel⟩,
   ⟨31, true, (svc.wr ACQ_STI_CHAT_LO_CHAT 0x80000000).wr (ACQ_STI_CFG_EN 31) 1, by decide +kernel⟩⟩

theorem witness_PhasorsAndMonitors :
    (∃ (fs : List Nat) (s : State), s.phsRuns = true ∧ 0 < s.inc) ∧
    (∃ (fs : List Nat) (s : State), s.phsRuns = true ∧ ((∀ d < 8, s.lomGap d = true ∧ nth fs d 0 = 0))) ∧
    (∃ (h : Nat) (n : Nat) (p : Nat × Nat) (s : State), s.phsRuns = true ∧ s.rate ≠ 0 ∧ assoc s.phs.homeAt h = some p ∧ 2 ≤ n ∧ h < 32
        ∧ s.on 4 = false) ∧
    (∃ (h : Nat) (p : Nat × Nat) (g : RegFile) (u : State) (s : State), s.phsRuns = true ∧ s.rate ≠ 0 ∧ assoc s.phs.homeAt h = some p ∧ h < 32
        ∧ s.on 4 = false ∧ g = s.phsVals (gridNs s.rate p)
        ∧ u = s.advanceTo (tauU (slotTau s.rate p + ((s.classH (g.get (HSM_CLASS h) == 1) (s.rate / max 1 (gEff g (HSM_DIV h))) + s.classT (g.get
        (HSM_CLASS h) == 1) (s.rate / max 1 (gEff g (HSM_DIV h))) / 2 : Nat) : Int) + s.maxG (homeChans g h)) + 53000 * nsU)) ∧
    (∃ (d : Nat) (e : Nat) (s : State), s.phsRuns = true ∧ d < 8 ∧ s.is (PHS_LOM_STAT_VS d) = true ∧ s.lomGap d = false
        ∧ (s.lom d).holdEnd = some e ∧ 0 < s.inc) ∧
    (∃ (d : Nat) (s : State), s.phsRuns = true ∧ d < 8 ∧ s.lomGap d = true) ∧
    (∃ (m : Nat) (s : State), s.phsRuns = true ∧ m < 16 ∧ s.is (PHS_SSO_CFG_EN m) = true ∧ s.acq.smp = [] ∧ s.phs.sso.length = 16) ∧
    (∃ (m : Nat) (u : State) (s : State), s.phsRuns = true ∧ m < 16 ∧ s.is (PHS_SSO_CFG_EN m) = true ∧ 0 < (s.ssoOf m).due
        ∧ (s.ssoOf m).run + 1 < s.eff (PHS_SSO_THR_SSO_N m) ∧ u = s.advanceTo ((s.ssoOf m).due * tenthU)
        ∧ (s.ssoOf m).since ≤ (((s.ssoOf m).due * (secT / 10) : Nat) : Int) - s.maxG [s.rd (PHS_SSO_CFG_CH m)] - ((2 * secT : Nat) : Int)
        ∧ (u.chWin (s.rd (PHS_SSO_CFG_CH m)) ((((s.ssoOf m).due * (secT / 10) : Nat) : Int) - s.maxG [s.rd (PHS_SSO_CFG_CH m)] - ((2 * secT : Nat)
        : Int)) ((((s.ssoOf m).due * (secT / 10) : Nat) : Int) - s.maxG [s.rd (PHS_SSO_CFG_CH m)])).isSome = true) ∧
    (∃ (m : Nat) (n : Nat) (s : State), s.phsRuns = true ∧ m < 16 ∧ s.is (PHS_SSO_CFG_EN m) = true ∧ 2 ≤ n) :=
  ⟨⟨[], phsS, by decide +kernel⟩,
   ⟨[], phsS, by decide +kernel⟩,
   ⟨31, 2, (0, 1), { (phsS.wr CCD_STAT_RATE_ACT 50).wr PWR_STAT_ON 239 with phs.homeAt := [(31, (0, 1))] }, by decide +kernel⟩,
   ⟨31, (0, 1), ({ (phsS.wr CCD_STAT_RATE_ACT 50).wr PWR_STAT_ON 239 with phs.homeAt := [(31, (0, 1))] } : State).phsVals (gridNs 50 (0, 1)), ({ (phsS.wr CCD_STAT_RATE_ACT 50).wr PWR_STAT_ON 239 with phs.homeAt := [(31, (0, 1))] } : State).advanceTo (tauU (slotTau 50 (0, 1) + ((phsS.classH (((phsS.wr CCD_STAT_RATE_ACT 50).wr PWR_STAT_ON 239).regs.get (HSM_CLASS 31) == 1) (50 / max 1 (gEff phsS.regs (HSM_DIV 31))) + phsS.classT (phsS.regs.get (HSM_CLASS 31) == 1) (50 / max 1 (gEff phsS.regs (HSM_DIV 31))) / 2 : Nat) : Int) + phsS.maxG []) + 53000 * nsU), { (phsS.wr CCD_STAT_RATE_ACT 50).wr PWR_STAT_ON 239 with phs.homeAt := [(31, (0, 1))] }, by decide +kernel⟩,
   ⟨7, 5, { (phsS.wr (PHS_LOM_STAT_VS 7) 1).wr PWR_STAT_ON 239 with phs.lom := List.replicate 8 ⟨0, 0, 0, some 5⟩, acq.smp := [smpAt 3 0] }, by and_intros <;> first | decide +kernel⟩,
   ⟨7, phsS, by decide +kernel⟩,
   ⟨15, phsS.wr (PHS_SSO_CFG_EN 15) 1, by decide +kernel⟩,
   ⟨15, ({ (phsS.wr (PHS_SSO_CFG_EN 15) 1).wr (PHS_SSO_THR_SSO_N 15) 10 with acq.smp := [smpAt 3 0, smpAt 1 0], phs.sso := List.replicate 16 ⟨1, 0, 30⟩ } : State).advanceTo (30 * tenthU), { (phsS.wr (PHS_SSO_CFG_EN 15) 1).wr (PHS_SSO_THR_SSO_N 15) 10 with acq.smp := [smpAt 3 0, smpAt 1 0], phs.sso := List.replicate 16 ⟨1, 0, 30⟩ }, by decide +kernel⟩,
   ⟨15, 2, phsS.wr (PHS_SSO_CFG_EN 15) 1, by decide +kernel⟩⟩

theorem witness_SlotInstants :
    (∃ (s : State), s.slotsRun = true ∧ s.slotWaits = false ∧ s.pend = [] ∧ s.ccd.helds = [] ∧ s.ccd.paused = false ∧ s.posFree = true ∧ 0 < s.inc) ∧
    (∃ (s : State), s.slotsRun = true ∧ s.slotWaits = false ∧ s.pend = [] ∧ s.ccd.helds = [] ∧ s.ccd.paused = false ∧ s.posFree = false ∧ 0 < s.inc) ∧
    (∃ (x : Nat) (p : Nat) (sl : Slot) (s : State), s.slotsRun = true ∧ s.firstPoint = some (x, 1, p) ∧ x ≤ s.nextSlotNs ∧ s.slot p = some sl
        ∧ 0 < s.inc) ∧
    (∃ (x : Nat) (p : Nat) (sl : Slot) (s : State), s.slotsRun = true ∧ s.firstPoint = some (x, 0, p) ∧ x ≤ s.nextSlotNs ∧ s.slot p = some sl
        ∧ 0 < s.inc ∧ s.ccd.helds = [] ∧ s.ccd.lateQ = [] ∧ s.ccd.discQ = []) :=
  ⟨⟨ccdS, by decide +kernel⟩,
   ⟨{ ccdS with ccd.ring := [(0, slotOf 128 4)] }, by decide +kernel⟩,
   ⟨500, 5, { slotOf 5 2 with specAt := some 500, commitAt := 900 }, ccdWith { slotOf 5 2 with specAt := some 500, commitAt := 900 }, by decide +kernel⟩,
   ⟨900, 127, { slotOf 127 3 with commitAt := 900 }, ccdWith { slotOf 127 3 with commitAt := 900 }, by decide +kernel⟩⟩

theorem witness_FreezeAndRelease :
    (∃ (n : Nat) (p : Nat) (sl : Slot) (s : State), s.slotsRun = true ∧ (oldestSlot s.ccd.ring (fun x => x.st == 4) = some (p, sl))
        ∧ s.mayFreeze sl = true) ∧
    (∃ (it : Item) (s : State), s.up = true ∧ s.on 4 = true ∧ s.holdCause ≠ 1 ∧ s.outlet = none
        ∧ (s.readyItems.find? (fun x => x.typ == 3) = some it)) ∧
    (∃ (it : Item) (p : Nat) (sl : Slot) (s : State), s.up = true ∧ s.on 4 = true ∧ s.holdCause ≠ 1 ∧ s.outlet = none
        ∧ (s.readyItems.find? (fun x => x.typ == 3) = some it) ∧ s.bySerial it.serial = some (p, sl) ∧ s.arcOn = false ∧ s.cap.arcWait = none
        ∧ s.red.audSlots.contains sl.serial = false) ∧
    (∃ (it : Item) (p : Nat) (sl : Slot) (s : State), s.up = true ∧ s.on 4 = true ∧ s.holdCause ≠ 1 ∧ s.outlet = none
        ∧ (s.readyItems.find? (fun x => x.typ == 3) = some it) ∧ s.bySerial it.serial = some (p, sl) ∧ s.arcOn = false ∧ s.cap.arcWait = none
        ∧ s.red.audSlots.contains sl.serial = false) ∧
    (∃ (it : Item) (p : Nat) (sl : Slot) (s : State), s.up = true ∧ s.on 4 = true ∧ s.outlet = some it ∧ s.cap.arcWait ≠ some it.serial
        ∧ s.bySerial it.serial = some (p, sl) ∧ s.ccd.helds = [] ∧ s.ccd.lateQ = [] ∧ s.ccd.discQ = []) :=
  ⟨⟨0, 5, { slotOf 5 4 with cAt := some 0 }, { ccdWith { slotOf 5 4 with cAt := some 0 } with ccd.stamps := List.replicate 6 1 }, by decide +kernel⟩,
   ⟨itemOf 9 3 130, { ccdWith (slotOf 130 5) with sch.items := [itemOf 9 3 130] }, by decide +kernel⟩,
   ⟨itemOf 9 3 130, 2, slotOf 130 5, { (ccdWith (slotOf 130 5)).wr ARC_CFG_EN 0 with sch.items := [itemOf 9 3 130] }, by decide +kernel⟩,
   ⟨itemOf 9 3 130, 2, slotOf 130 5, { (ccdWith (slotOf 130 5)).wr CCD_LANES_COUNT 0 |>.wr ARC_CFG_EN 0 with sch.items := [itemOf 9 3 130] }, by decide +kernel⟩,
   ⟨{ itemOf 9 3 130 with began := some 4 }, 2, slotOf 130 5, { ccdWith (slotOf 130 5) with sch.items := [{ itemOf 9 3 130 with began := some 4 }] }, by decide +kernel⟩⟩

theorem witness_GridSettingAndSubjunctiveStart :
    (∃ (m : Master) (a : Access) (s : State), a.addr = 0x70000 ∧ Accepted s m a.addr ∧ rateOk (bit a.data 0 == 1) (bits a.data 8 8) = true) ∧
    (∃ (m : Master) (a : Access) (s : State), a.addr = 0x70000 ∧ Accepted s m a.addr ∧ rateOk (bit a.data 0 == 1) (bits a.data 8 8) = false
        ∧ Listens s) ∧
    (∃ (m : Master) (a : Access) (s : State), a.addr = 0x70004 ∧ Accepted s m a.addr ∧ a.data % 2 ^ 24 ≠ 0) ∧
    (∃ (m : Master) (a : Access) (s : State), a.addr = 0x70004 ∧ Accepted s m a.addr ∧ a.data % 2 ^ 24 = 0 ∧ Listens s) ∧
    (∃ (p : Nat) (sl : Slot) (s : State), s.up = true ∧ s.on 4 = true ∧ s.ccd.evS = none ∧ s.subChoice = some (p, sl) ∧ sl.credit = false
        ∧ (sl.new = true ∨ (sl.rev ≠ some 15 ∧ s.ccd.lost.contains ((sl.serial + 2 ^ 32 - 1) % 2 ^ 32) = false))) ∧
    (∃ (p : Nat) (sl : Slot) (s : State), s.up = true ∧ s.on 4 = true ∧ s.ccd.evS = none ∧ s.subChoice = some (p, sl) ∧ sl.credit = false
        ∧ (sl.new = true ∨ (sl.rev ≠ some 15 ∧ s.ccd.lost.contains ((sl.serial + 2 ^ 32 - 1) % 2 ^ 32) = false))) ∧
    (∃ (p : Nat) (sl : Slot) (s : State), s.up = true ∧ s.on 4 = true ∧ s.ccd.evS = none ∧ s.subChoice = some (p, sl) ∧ sl.credit = false
        ∧ sl.new = false ∧ sl.rev = some 15) ∧
    (∃ (p : Nat) (sl : Slot) (s : State), s.up = true ∧ s.on 4 = true ∧ s.ccd.evS = none ∧ s.subChoice = some (p, sl) ∧ sl.credit = false
        ∧ sl.new = false ∧ sl.rev ≠ some 15 ∧ s.ccd.lost.contains ((sl.serial + 2 ^ 32 - 1) % 2 ^ 32) = true ∧ Listens s) ∧
    (∃ (p : Nat) (sl : Slot) (s : State), s.subChoice = some (p, sl) ∧ sl.credit = true) :=
  ⟨⟨.mc, ⟨.mc, 0x70000, 4, 0x3200⟩, svc, by decide +kernel⟩,
   ⟨.host, ⟨.host, 0x70000, 4, 0x3300⟩, svc, by decide +kernel⟩,
   ⟨.mc, ⟨.mc, 0x70004, 4, 0xFF000001⟩, svc, by decide +kernel⟩,
   ⟨.mc, ⟨.mc, 0x70004, 4, 0xFF000000⟩, svc, by decide +kernel⟩,
   ⟨5, { slotOf 5 3 with new := true }, ccdWith { slotOf 5 3 with new := true }, by decide +kernel⟩,
   ⟨5, { slotOf 5 3 with dirty := true, rev := some 14 }, ccdWith { slotOf 5 3 with dirty := true, rev := some 14 }, by decide +kernel⟩,
   ⟨5, { slotOf 5 3 with dirty := true, rev := some 15 }, ccdWith { slotOf 5 3 with dirty := true, rev := some 15 }, by decide +kernel⟩,
   ⟨0, { slotOf 0 3 with dirty := true, rev := some 1 }, { ccdWith { slotOf 0 3 with dirty := true, rev := some 1 } with ccd.lost := [0xFFFFFFFF] }, by decide +kernel⟩,
   ⟨5, { slotOf 5 3 with new := true, credit := true }, ccdWith { slotOf 5 3 with new := true, credit := true }, by decide +kernel⟩⟩

theorem witness_Scheduler :
    (∃ (s : State), s.up = true ∧ s.on 4 = true ∧ s.holdCause = 0 ∧ s.choose = none) ∧
    (∃ (l : Nat) (g : Nat) (it : Item) (s : State), s.up = true ∧ s.on 4 = true ∧ s.holdCause = 0 ∧ s.choose = some (l, g, it)
        ∧ s.item it.handle = some it ∧ (s.isShed it.grp = false ∨ (it.typ ≠ 4 ∧ it.typ ≠ 5)) ∧ (it.began.isSome = true ∨ it.typ ≠ 2)
        ∧ s.sch.lanes.length = 16) ∧
    (∃ (l : Nat) (g : Nat) (p : Nat) (it : Item) (sl : Slot) (s : State), s.up = true ∧ s.on 4 = true ∧ s.holdCause = 0 ∧ s.choose = some (l, g,
        it) ∧ s.item it.handle = some it ∧ it.typ = 2 ∧ it.began = none ∧ it.next = 0 ∧ it.put = [] ∧ it.bars = []
        ∧ s.bySerial it.serial = some (p, sl) ∧ s.sch.lanes.length = 16) ∧
    (∃ (l : Nat) (g : Nat) (it : Item) (s : State), s.up = true ∧ s.on 4 = true ∧ s.holdCause = 0 ∧ s.choose = some (l, g, it)
        ∧ s.sch.items = [it] ∧ s.isShed it.grp = true ∧ it.typ = 5 ∧ Listens s) ∧
    (∃ (l : Nat) (b : Bool) (s : State), s.rd CLK_STAT_STATE = 1) ∧
    (∃ (l : Nat) (j : LaneJob) (it : Item) (s : State), s.up = true ∧ s.on 4 = true ∧ s.rd CLK_STAT_STATE ≠ 1 ∧ s.laneJob l = some j
        ∧ s.jobItem j = some it ∧ (it.put ≠ [] ∨ it.next < it.count ∨ 1 < it.out)) ∧
    (∃ (l : Nat) (j : LaneJob) (it : Item) (s : State), s.up = true ∧ s.on 4 = true ∧ s.rd CLK_STAT_STATE ≠ 1 ∧ s.laneJob l = some j
        ∧ s.jobItem j = some it ∧ it.typ = 7 ∧ it.stages = [1] ∧ it.stage = 0 ∧ it.next = 1 ∧ it.put = [] ∧ it.out = 1) ∧
    (∃ (l : Nat) (j : LaneJob) (it : Item) (s : State), s.up = true ∧ s.on 4 = true ∧ s.rd CLK_STAT_STATE ≠ 1 ∧ s.laneJob l = some j
        ∧ s.jobItem j = some it ∧ it.typ ≠ 5 ∧ assoc s.sch.mismatchAt l = none) ∧
    (∃ (h : Nat) (s : State), Accepted s .mc SCH_SUB_CMD_GO.addr ∧ s.rd SCH_SUB_W0_TYPE = 7 ∧ s.rd SCH_SUB_W0_KEY = 0
        ∧ s.freeHandle 320 704 = some h ∧ s.rd SCH_SUB_W2_DELAY = 0 ∧ s.is SCH_SUB_W1_AFTER_EN = false) ∧
    (∃ (s : State), Accepted s .mc SCH_SUB_CMD_GO.addr ∧ s.rd SCH_SUB_W0_TYPE ≠ 7 ∧ Listens s) ∧
    (∃ (s : State), s.up = true ∧ s.on 4 = true ∧ s.is SCH_STEST_MS = true) ∧
    (∃ (e : Dly) (it : Item) (s : State), s.up = true ∧ s.on 4 = true ∧ s.sch.dly = [e] ∧ e.what = .fw it ∧ 0 < s.inc) :=
  ⟨⟨svc.wr CCD_LANES_COUNT 16, by decide +kernel⟩,
   ⟨0, 0, { itemOf 9 7 0 with began := some 4 }, { svc.wr CCD_LANES_COUNT 16 with sch.items := [{ itemOf 9 7 0 with began := some 4 }] }, by decide +kernel⟩,
   ⟨0, 0, 5, itemOf 9 2 5, slotOf 5 5, { (ccdWith (slotOf 5 5)).wr CCD_LANES_COUNT 16 with sch.items := [itemOf 9 2 5] }, by decide +kernel⟩,
   ⟨0, 0, itemOf 9 5 0, { (svc.wr CCD_LANES_COUNT 16).wr SCH_STAT_SHED 1 with sch.items := [itemOf 9 5 0] }, by decide +kernel⟩,
   ⟨0, true, svc.wr CLK_STAT_STATE 1, by decide +kernel⟩,
   ⟨0, ⟨9, 0, 0, 0⟩, { itemOf 9 1 0 with next := 1, out := 1, stages := [2] }, { svc with sch.items := [{ itemOf 9 1 0 with next := 1, out := 1, stages := [2] }], sch.lanes := some ⟨9, 0, 0, 0⟩ :: List.replicate 15 none }, by decide +kernel⟩,
   ⟨15, ⟨9, 0, 0, 0⟩, { itemOf 9 7 0 with next := 1, out := 1 }, { svc with sch.items := [{ itemOf 9 7 0 with next := 1, out := 1 }], sch.lanes := List.replicate 15 none ++ [some ⟨9, 0, 0, 0⟩] }, by decide +kernel⟩,
   ⟨0, ⟨9, 0, 0, 0⟩, { itemOf 9 7 0 with next := 1, out := 1 }, { svc with sch.items := [{ itemOf 9 7 0 with next := 1, out := 1 }], sch.lanes := some ⟨9, 0, 0, 0⟩ :: List.replicate 15 none }, by decide +kernel⟩,
   ⟨320, ((((svc.wr SCH_SUB_W0_TYPE 7).wr SCH_SUB_W0_KEY 0).wr SCH_SUB_W2_DELAY 0).wr SCH_SUB_W1_AFTER_EN 0), by decide +kernel⟩,
   ⟨svc.wr SCH_SUB_W0_TYPE 6, by decide +kernel⟩,
   ⟨svc.wr SCH_STEST_MS 1, by decide +kernel⟩,
   ⟨⟨5, .fw (itemOf 9 7 0)⟩, itemOf 9 7 0, { svc with sch.dly := [⟨5, .fw (itemOf 9 7 0)⟩] }, by decide +kernel⟩⟩

theorem witness_AlarmTimersHoldsAcks :
    (∃ (d : Nat) (x : Nat) (e : Dly) (s : State), s.up = true ∧ d < 2048 ∧ (s.sch.dly.find? (fun y => y.what == .timer d) = some e)
        ∧ (s.dir d).since = some x ∧ ((∀ k, s.rd (ALM_SOURCE k) ≠ 0x25 ∧ s.rd (ALM_SOURCE k) ≠ 0x26)) ∧ 16 ≤ s.rd (ALM_CAP d)) ∧
    (∃ (p : Nat) (e : Dly) (s : State), s.up = true ∧ p < 16 ∧ (s.sch.dly.find? (fun y => y.what == .pin p) = some e)) ∧
    (∃ (p : Nat) (e : Dly) (s : State), s.up = true ∧ p < 16 ∧ (s.sch.dly.find? (fun y => y.what == .pin p) = some e)) ∧
    (∃ (m : Master) (d : Nat) (s : State), Accepted s m ANA_ALM_ACK_DEF.addr ∧ s.is (ALM_LATCHED (d % 2048)) = true) ∧
    (∃ (m : Master) (d : Nat) (s : State), Accepted s m ANA_ALM_ACK_DEF.addr ∧ s.is (ALM_LATCHED (d % 2048)) = false) :=
  ⟨⟨2047, 5, ⟨9, .timer 2047⟩, { svc with sch.dly := [⟨9, .timer 2047⟩], ana.dirs := [(2047, ⟨false, some 5, true⟩)] }, by and_intros <;> first | exact alm_ne _ _ _ (by decide) (by decide) (by decide +kernel) | decide +kernel⟩,
   ⟨15, ⟨9, .pin 15⟩, { svc.wr ANA_PIN_STATE_LOGIC 0x8000 with sch.dly := [⟨9, .pin 15⟩] }, by decide +kernel⟩,
   ⟨0, ⟨9, .pin 0⟩, { (svc.wr (ANA_PIN_CFG_FORCE 0) 1).wr (ANA_PIN_CFG_FVAL 0) 1 with sch.dly := [⟨9, .pin 0⟩] }, by decide +kernel⟩,
   ⟨.mc, 4095, svc.wr (ALM_LATCHED 2047) 1, by decide +kernel⟩,
   ⟨.host, 2048, svc, by decide +kernel⟩⟩

theorem witness_PublicationQueues :
    (∃ (n : Nat) (f : PubFrame) (r : List PubFrame) (s : State), s.portUp n = true ∧ s.pubQ n = f :: r
        ∧ (f.kind ≠ 0 ∨ s.mono ≤ f.formedAt + s.maxAge) ∧ s.is RED_STAT_DRIVING = true ∧ s.txOpen n = true ∧ s.txRoom n 2 f.bytes.length = true
        ∧ (s.port n).held = [] ∧ s.ports.length = 6) ∧
    (∃ (n : Nat) (f : PubFrame) (r : List PubFrame) (s : State), s.portUp n = true ∧ s.pubQ n = f :: r
        ∧ (f.kind ≠ 0 ∨ s.mono ≤ f.formedAt + s.maxAge) ∧ s.is RED_STAT_DRIVING = true ∧ s.txOpen n = true ∧ s.txRoom n 2 f.bytes.length = true
        ∧ (s.port n).held = [] ∧ s.ports.length = 6) ∧
    (∃ (n : Nat) (f : PubFrame) (r : List PubFrame) (s : State), s.portUp n = true ∧ s.pubQ n = f :: r
        ∧ (f.kind ≠ 0 ∨ s.mono ≤ f.formedAt + s.maxAge) ∧ s.is RED_STAT_DRIVING = true ∧ s.txOpen n = false ∧ Listens s) ∧
    (∃ (n : Nat) (f : PubFrame) (r : List PubFrame) (s : State), s.portUp n = true ∧ s.pubQ n = f :: r
        ∧ (f.kind ≠ 0 ∨ s.mono ≤ f.formedAt + s.maxAge) ∧ s.txOpen n = true ∧ s.txRoom n 2 f.bytes.length = false) ∧
    (∃ (n : Nat) (f : PubFrame) (r : List PubFrame) (s : State), s.portUp n = true ∧ s.pubQ n = f :: r
        ∧ (f.kind ≠ 0 ∨ s.mono ≤ f.formedAt + s.maxAge) ∧ s.is RED_STAT_DRIVING = false ∧ (s.txOpen n = false ∨ s.txRoom n 2 f.bytes.length = true)) ∧
    (∃ (n : Nat) (f : PubFrame) (s : State), s.portUp n = true ∧ ((s.pubQ n).find? (fun x => x.kind == 0) = some f)) ∧
    (∃ (k : Nat) (x : Session) (s : State), s.up = true ∧ s.on 2 = true ∧ s.rd PUB_TCP_IDLE ≠ 0 ∧ nth (s.pub.sessions.map some) k none = some x) :=
  ⟨⟨0, pubF 1, [pubF 1], { ((upPort 0 3).wr (NET_P_ADDR_HI_EN 0 0) 1).wr RED_STAT_DRIVING 1 with pub.queues := [[pubF 1, pubF 1], [], [], [], [], []] }, by decide +kernel⟩,
   ⟨0, pubF 0, [], { ((upPort 0 3).wr (NET_P_ADDR_HI_EN 0 0) 1).wr RED_STAT_DRIVING 1 with pub.queues := [[pubF 0], [], [], [], [], []] }, by decide +kernel⟩,
   ⟨5, pubF 2, [], { (svc.wr RED_STAT_DRIVING 1) with pub.queues := [[], [], [], [], [], [pubF 2]] }, by decide +kernel⟩,
   ⟨0, pubF 1, [], { ((upPort 0 3).wr (NET_P_ADDR_HI_EN 0 0) 1) with pub.queues := [[pubF 1], [], [], [], [], []], ports := portsWith 0 { port0 with held := [⟨2, [], false, false⟩] } }, by decide +kernel⟩,
   ⟨5, pubF 2, [], { (svc.wr RED_STAT_DRIVING 0) with pub.queues := [[], [], [], [], [], [pubF 2]] }, by decide +kernel⟩,
   ⟨4, pubF 0, { svc with pub.queues := [[], [], [], [], [pubF 1, pubF 0], []] }, by decide +kernel⟩,
   ⟨1, ⟨7, 8, 9, 10⟩, { svc.wr PUB_TCP_IDLE 1 with pub.sessions := [⟨5, 6, 7, 8⟩, ⟨7, 8, 9, 10⟩] }, by decide +kernel⟩⟩

theorem witness_CommandsOfClients :
    (∃ (c : CmdFrom) (o : Nat) (s : State), s.up = true ∧ s.on 2 = true ∧ c.tcp = false ∧ s.cmdStream c.idcode = some o ∧ s.aclOk o c.ip = true) ∧
    (∃ (c : CmdFrom) (o : Nat) (i : Nat) (s : State), s.up = true ∧ s.on 2 = true ∧ c.tcp = true ∧ s.cmdStream c.idcode = some o
        ∧ s.aclOk o c.ip = true ∧ (s.pub.sessions.findIdx? (fun x => x.ip == c.ip && x.sport == c.sport) = some i)
        ∧ s.boundElsewhere (some i) o = false) ∧
    (∃ (i : Instr) (pl : List Byte) (c : CmdFrom) (o : Nat) (s : State), (i, pl) ∈ [(.cmdSendHeader c, s.headerFrame o), (.cmdSendCfg1 c,
        s.cfgFrame o 1), (.cmdSendCfg2 c, s.cfgFrame o 2), (.cmdSendCfg3 c, s.cfgFrame o 3)] ∧ s.up = true ∧ s.on 2 = true ∧ c.tcp = false
        ∧ s.cmdStream c.idcode = some o ∧ s.aclOk o c.ip = true ∧ s.txOpen c.port = true ∧ (s.port c.port).held = [] ∧ s.ports.length = 6
        ∧ c.port < 6 ∧ s.txRoom c.port 3 (pl.length + 42) = true) ∧
    (∃ (i : Instr) (pl : List Byte) (c : CmdFrom) (o : Nat) (k : Nat) (s : State), (i, pl) ∈ [(.cmdSendHeader c, s.headerFrame o), (.cmdSendCfg1 c,
        s.cfgFrame o 1), (.cmdSendCfg2 c, s.cfgFrame o 2), (.cmdSendCfg3 c, s.cfgFrame o 3)] ∧ s.up = true ∧ s.on 2 = true ∧ c.tcp = true
        ∧ s.cmdStream c.idcode = some o ∧ s.aclOk o c.ip = true
        ∧ (s.pub.sessions.findIdx? (fun x => x.ip == c.ip && x.sport == c.sport) = some k) ∧ s.boundElsewhere (some k) o = false) ∧
    (∃ (i : Instr) (pl : List Byte) (c : CmdFrom) (o : Nat) (s : State), (i, pl) ∈ [(.cmdSendHeader c, s.headerFrame o), (.cmdSendCfg1 c,
        s.cfgFrame o 1), (.cmdSendCfg2 c, s.cfgFrame o 2), (.cmdSendCfg3 c, s.cfgFrame o 3)] ∧ s.up = true ∧ s.on 2 = true ∧ c.tcp = true
        ∧ s.cmdStream c.idcode = some o ∧ s.aclOk o c.ip = true ∧ (s.pub.sessions.findIdx? (fun x => x.ip == c.ip && x.sport == c.sport) = none)
        ∧ s.pub.sessions.length < s.eff PUB_TCP_MAXSESS) ∧
    (∃ (i : Instr) (k : Nat) (c : CmdFrom) (s : State), (i, k) ∈ [(.cmdTransmissionOff c, 1), (.cmdTransmissionOn c, 2), (.cmdSendHeader c, 3),
        (.cmdSendCfg1 c, 4), (.cmdSendCfg2 c, 5), (.cmdSendCfg3 c, 6), (.cmdExtendedFrame c, 8)] ∧ s.up = true ∧ s.on 2 = true ∧ c.tcp = false
        ∧ Listens s) ∧
    (∃ (x : Nat) (o : Nat) (g : Nat × Nat) (r : Bool × Nat) (s : State), s.up = true ∧ s.on 2 = true ∧ s.rate ≠ 0 ∧ s.nextPeriod = some (x, o, g)
        ∧ s.backlogClear (16 * x) = true ∧ (r = s.resolve o (s.pub.cmds.filter (fun c => c.o == o && s.periodOf c == g))) ∧ 0 < s.inc) :=
  ⟨⟨⟨7, 0x0A000001, 4712, false, 0, 0⟩, 63,
      ((((svc.wr (OST_EN 63) 1).wr (OST_FORMAT 63) 0).wr (OST_IDCODE 63) 7).wr (OST_ACL_LEN 63) 32).wr (OST_ACL_NET 63) 0x0A000001,
      by decide +kernel⟩,
   ⟨⟨7, 0x0A000001, 4712, true, 0, 0⟩, 0, 1, { ((svc.wr (OST_EN 0) 1).wr (OST_FORMAT 0) 0).wr (OST_IDCODE 0) 7 |>.wr (OST_ACL_LEN 0) 0 with pub.sessions := [⟨5, 6, 7, 8⟩, ⟨0x0A000001, 4712, 0, 0⟩] }, by decide +kernel⟩,
   ⟨.cmdSendHeader ⟨7, 0x0A000001, 4712, false, 0, 0⟩,
       ((((upPort 0 3).wr (NET_P_ADDR_HI_EN 0 0) 1).wr (OST_EN 0) 1).wr (OST_IDCODE 0) 7 |>.wr (OST_ACL_LEN 0) 0).headerFrame 0, ⟨7, 0x0A000001,
       4712, false, 0, 0⟩, 0, ((((upPort 0 3).wr (NET_P_ADDR_HI_EN 0 0) 1).wr (OST_EN 0) 1).wr (OST_IDCODE 0) 7 |>.wr (OST_ACL_LEN 0) 0),
       by and_intros <;> first | decide +kernel | (repeat first | exact List.mem_cons_self | apply List.mem_cons_of_mem)⟩,
   ⟨.cmdSendHeader ⟨7, 0x0A000001, 4712, true, 0, 0⟩, ({ ((svc.wr (OST_EN 0) 1).wr (OST_FORMAT 0) 0).wr (OST_IDCODE 0) 7 |>.wr (OST_ACL_LEN 0) 0 with pub.sessions := [⟨5, 6, 7, 8⟩, ⟨0x0A000001, 4712, 0, 0⟩] } : State).headerFrame 0, ⟨7, 0x0A000001, 4712, true, 0, 0⟩, 0, 1, { ((svc.wr (OST_EN 0) 1).wr (OST_FORMAT 0) 0).wr (OST_IDCODE 0) 7 |>.wr (OST_ACL_LEN 0) 0 with pub.sessions := [⟨5, 6, 7, 8⟩, ⟨0x0A000001, 4712, 0, 0⟩] }, by and_intros <;> first | decide +kernel | (repeat first | exact List.mem_cons_self | apply List.mem_cons_of_mem)⟩,
   ⟨.cmdSendCfg1 ⟨7, 0x0A000001, 4712, true, 0, 0⟩, ({ ((svc.wr (OST_EN 0) 1).wr (OST_FORMAT 0) 0).wr (OST_IDCODE 0) 7 |>.wr (OST_ACL_LEN 0) 0 with pub.sessions := [⟨5, 6, 7, 8⟩] } : State).cfgFrame 0 1, ⟨7, 0x0A000001, 4712, true, 0, 0⟩, 0, ({ ((svc.wr (OST_EN 0) 1).wr (OST_FORMAT 0) 0).wr (OST_IDCODE 0) 7 |>.wr (OST_ACL_LEN 0) 0 with pub.sessions := [⟨5, 6, 7, 8⟩] } : State), by and_intros <;> first | decide +kernel | (repeat first | exact List.mem_cons_self | apply List.mem_cons_of_mem)⟩,
   ⟨.cmdSendCfg2 ⟨7, 0x0A000001, 4712, false, 0, 0⟩, 5, ⟨7, 0x0A000001, 4712, false, 0, 0⟩, svc, by decide +kernel⟩,
   ⟨200000000, 3, (0, 10), (true, 0), { svc.wr CCD_STAT_RATE_ACT 50 |>.wr (OST_DIV 3) 10 with pub.cmds := [⟨3, 16, true, 5⟩], ccd.stamps := List.replicate 6 16000000001 }, by decide +kernel⟩⟩

theorem witness_MeteringSteps :
    (∃ (n : Nat) (p : Nat × Nat) (s : State), s.qtyRuns = true ∧ s.qty.paused = none ∧ s.qty.next = some p ∧ n < 4 ∧ 0 < s.inc) ∧
    (∃ (p : Nat × Nat) (s : State), s.qtyRuns = true ∧ s.qty.paused = none ∧ s.qty.next = some p ∧ ((∀ i, i < 48 → s.is (MPT_EN i) = false))
        ∧ s.qty.snaps = []) ∧
    (∃ (i : Nat) (p : Nat × Nat) (s : State), s.qtyRuns = true ∧ s.qty.paused = none ∧ s.qty.next = some p ∧ s.livePoints = [i] ∧ i < 48
        ∧ s.is (MPT_FALLBACK i) = false ∧ s.stepValid i p = false ∧ stepNs p < (s.pt i).due * 1000000000) ∧
    (∃ (p : Nat) (s : State), s.qtyRuns = true ∧ p < 48 ∧ s.is (MPT_EN p) = true ∧ 0 < s.inc) ∧
    (∃ (n : Nat) (k : Nat) (e : RxEntry) (ip : Ip) (b : List Byte) (r : List Byte) (g : MReg) (s : State), s.qtyRuns = true ∧ s.qty.paused = none
        ∧ s.ing.flow = [(n, e)] ∧ parseIp e.bytes = some ip ∧ b = (parseUdp e.bytes ip).payload ∧ beAt b 0 4 = 0x474B4652 ∧ byteAt b 6 = 1
        ∧ byteAt b 7 = 1 ∧ leAt b 4 2 = 44 ∧ b.length = 44 ∧ leAt b 40 4 = crc32c (b.take 40) ∧ r = slice b 8 32
        ∧ ((List.range 256).find? (fun t => s.is (TPT_EN t) && s.rd (TPT_FLOWID t) == leAt r 0 4) = some k) ∧ s.rd (TPT_PORT k) + 4 = n
        ∧ s.rd (TPT_SRCIP k) = ip.src ∧ (s.pt (256 + k)).seqKnown = false ∧ e.stamp / 16 ≤ (s.pt (256 + k)).due * 1000000000
        ∧ g = nth (s.pt (256 + k)).regs ((leAt r 28 2 + s.rd (TPT_DIRINV k)) % 2) ⟨0, 0, 0⟩) ∧
    (∃ (n : Nat) (e : RxEntry) (ip : Ip) (s : State), s.qtyRuns = true ∧ s.qty.paused = none ∧ s.ing.flow = [(n, e)] ∧ parseIp e.bytes = some ip
        ∧ beAt (parseUdp e.bytes ip).payload 0 4 ≠ 0x474B4652) ∧
    (∃ (k : Nat) (s : State), s.qtyRuns = true ∧ k < 256 ∧ s.is (TPT_EN k) = true ∧ s.is (TPT_STALE k) = false) ∧
    (∃ (m : Master) (p : Nat × Nat) (s : State), Accepted s m QTY_SNAP_GO.addr ∧ s.qtyRuns = true ∧ s.qty.paused = none ∧ s.qty.next = some p) ∧
    (∃ (m : Master) (s : State), Accepted s m QTY_SNAP_GO.addr ∧ (s.qtyRuns = false ∨ s.qty.paused.isSome = true ∨ s.qty.next = none)) :=
  ⟨⟨3, (0, 11999), { qtyS with qty.next := some (0, 11999) }, by decide +kernel⟩,
   ⟨(5, 0), { qtyS with qty.next := some (5, 0) }, by decide +kernel⟩,
   ⟨47, (5, 0), { qtyS.wr (MPT_EN 47) 1 with qty.next := some (5, 0), qty.points := [(47, { mPoint0 with due := 60 })] }, by decide +kernel⟩,
   ⟨47, qtyS.wr (MPT_EN 47) 1, by decide +kernel⟩,
   ⟨4, 255, entry (udpFrame flowPay), ⟨14, 20, 72, 17, 0x0A000001, 0x0A000002, 0⟩, flowPay, slice flowPay 8 32, ⟨0, 0, 0⟩, { ((qtyS.wr (TPT_EN 255) 1).wr (TPT_SRCIP 255) 0x0A000001) with ing.flow := [(4, entry (udpFrame flowPay))] }, by decide +kernel⟩,
   ⟨5, entry c37Frame, ⟨14, 20, 82, 17, 0x0A000001, 0x0A000002, 0⟩, { qtyS with ing.flow := [(5, entry c37Frame)] }, by decide +kernel⟩,
   ⟨255, qtyS.wr (TPT_EN 255) 1, by decide +kernel⟩,
   ⟨.host, (3, 4), { qtyS with qty.next := some (3, 4) }, by decide +kernel⟩,
   ⟨.mc, svc, by decide +kernel⟩⟩

theorem witness_IntervalsPulsesRetentionSeal :
    (∃ (i : Nat) (s : State), s.qtyRuns = true ∧ s.qty.paused = none ∧ s.livePoints = [i] ∧ s.mayClose i = true ∧ s.qty.ring.length < 576
        ∧ 0 < s.inc) ∧
    (∃ (m : Master) (s : State), Accepted s m QTY_REC_POP_POP.addr) ∧
    (∃ (m : Master) (v : Nat) (i : Nat) (s : State), Accepted s m QTY_MD_RST_POINT.addr ∧ i = v % 512 ∧ (i < 48 ∨ 256 ≤ i) ∧ Listens s) ∧
    (∃ (m : Master) (v : Nat) (i : Nat) (s : State), Accepted s m QTY_MD_RST_POINT.addr ∧ i = v % 512 ∧ (i < 48 ∨ 256 ≤ i) ∧ Listens s) ∧
    (∃ (m : Master) (v : Nat) (s : State), Accepted s m QTY_MD_RST_POINT.addr ∧ 48 ≤ v % 512 ∧ v % 512 < 256) ∧
    (∃ (j : Nat) (s : State), s.qtyRuns = true ∧ j < 16 ∧ s.is (QTY_PLS_CFG_EN j) = true ∧ (s.pulse j).backlog ≠ 0 ∧ (s.pulse j).active = false
        ∧ s.pulsesOut = true) ∧
    (∃ (j : Nat) (s : State), s.qtyRuns = true ∧ j < 16 ∧ s.is (QTY_PLS_CFG_EN j) = true ∧ (s.pulse j).backlog ≠ 0 ∧ (s.pulse j).active = false
        ∧ s.pulsesOut = false) ∧
    (∃ (j : Nat) (s : State), s.up = true ∧ s.on 5 = true ∧ j < 16 ∧ (s.pulse j).active = true) ∧
    (∃ (s : State), s.qtyRuns = true ∧ s.qty.copies.length = 2) ∧
    (∃ (m : Master) (v : Nat) (s : State), Accepted s m QTY_SEAL_SEALED.addr ∧ s.qtySealed = false ∧ v % 2 = 1) ∧
    (∃ (m : Master) (v : Nat) (s : State), Accepted s m QTY_SEAL_SEALED.addr ∧ s.qtySealed = false ∧ v % 2 = 0) ∧
    (∃ (m : Master) (v : Nat) (s : State), Accepted s m QTY_SEAL_SEALED.addr ∧ s.qtySealed = true ∧ Listens s) :=
  ⟨⟨511, { qtyS.wr (TPT_EN 255) 1 with ing.flow := [] }, by decide +kernel⟩,
   ⟨.host, { svc with qty.ring := [[1, 2], [3]] }, by decide +kernel⟩,
   ⟨.mc, 559, 47, svc, by decide +kernel⟩,
   ⟨.host, 256, 256, svc, by decide +kernel⟩,
   ⟨.mc, 255, svc, by decide +kernel⟩,
   ⟨15, { (qtyS.wr (QTY_PLS_CFG_EN 15) 1).wr RED_STAT_DRIVING 1 with qty.pulses := List.replicate 16 { pulse0 with backlog := 1 } }, by decide +kernel⟩,
   ⟨0, { (qtyS.wr (QTY_PLS_CFG_EN 0) 1).wr RED_STAT_DRIVING 0 with qty.pulses := List.replicate 16 { pulse0 with backlog := 65535 } }, by decide +kernel⟩,
   ⟨15, { svc with qty.pulses := List.replicate 16 { pulse0 with active := true } }, by decide +kernel⟩,
   ⟨qtyS, by decide +kernel⟩,
   ⟨.host, 3, svc, by decide +kernel⟩,
   ⟨.mc, 2, svc, by decide +kernel⟩,
   ⟨.mc, 0, svc.wrV QTY_SEAL_SEALED 1, by decide +kernel⟩⟩

theorem witness_CaptureCommands :
    (∃ (m : Master) (t : Nat) (s : State), Accepted s m CAP_TRIG_MAN_FIRE.addr ∧ t < 16 ∧ s.capMode = 1 ∧ s.is (CAP_TRIG_CFG_EN t) = true ∧ ((∀ i,
        i < 64 → (s.capt i).state = 0)) ∧ s.cap.capts.length = 64 ∧ s.cap.deadFrom = none ∧ s.cap.lostN = 0 ∧ s.rd CLK_STAT_STATE ≠ 1
        ∧ ((∀ r ∈ s.cap.recs, r.typ ≠ 1)) ∧ (s.cap.recs.foldl (fun a r => a + r.len) 0 + 40 ≤ s.partSize 0)) ∧
    (∃ (m : Master) (t : Nat) (s : State), Accepted s m CAP_TRIG_MAN_FIRE.addr ∧ t < 16 ∧ s.capMode = 1 ∧ s.is (CAP_TRIG_CFG_EN t) = true ∧ ((∀ i,
        i < 64 → (s.capt i).state = 0)) ∧ s.cap.capts.length = 64 ∧ s.cap.deadFrom = none ∧ s.rd CLK_STAT_STATE = 1 ∧ s.cap.staged = []
        ∧ ((∀ r ∈ s.cap.recs, r.typ ≠ 1))) ∧
    (∃ (m : Master) (mask : Nat) (s : State), Accepted s m CAP_TRIG_MAN_FIRE.addr ∧ (s.capMode = 0 ∨ (∀ t < 16, bit mask t = 1
        → s.is (CAP_TRIG_CFG_EN t) = false))) ∧
    (∃ (m : Master) (mask : Nat) (s : State), Accepted s m CAP_TRIG_MAN_FIRE.addr ∧ (s.capMode = 0 ∨ (∀ t < 16, bit mask t = 1
        → s.is (CAP_TRIG_CFG_EN t) = false))) ∧
    (∃ (m : Master) (v : Nat) (c : Nat) (s : State), Accepted s m CAP_REL_CAPT.addr ∧ c = v % 128 ∧ c < 64 ∧ s.cap.capts.length = 64
        ∧ (s.cap.deadFrom = none ∨ s.cap.deadCause ≠ 1) ∧ (s.capt c).state = 2 ∧ Listens s) ∧
    (∃ (m : Master) (v : Nat) (c : Nat) (s : State), Accepted s m CAP_REL_CAPT.addr ∧ c = v % 128 ∧ c < 64 ∧ s.cap.capts.length = 64
        ∧ (s.cap.deadFrom = none ∨ s.cap.deadCause ≠ 1) ∧ (s.capt c).state = 1) ∧
    (∃ (m : Master) (v : Nat) (s : State), Accepted s m CAP_REL_CAPT.addr ∧ (s.cap.deadFrom = none ∨ s.cap.deadCause ≠ 1) ∧ ((v % 128 < 64
        ∧ (s.capt (v % 128)).state = 0) ∨ (64 ≤ v % 128 ∧ v % 128 ≠ 127))) ∧
    (∃ (m : Master) (v : Nat) (s : State), Accepted s m CAP_REL_CAPT.addr ∧ (s.cap.deadFrom = none ∨ s.cap.deadCause ≠ 1) ∧ ((v % 128 < 64
        ∧ (s.capt (v % 128)).state = 0) ∨ (64 ≤ v % 128 ∧ v % 128 ≠ 127))) ∧
    (∃ (m : Master) (v : Nat) (s : State), Accepted s m CAP_REL_CAPT.addr ∧ v % 128 = 127 ∧ s.cap.capts.length = 64
        ∧ (s.cap.deadFrom = none ∨ s.cap.deadCause ≠ 1)) ∧
    (∃ (m : Master) (v : Nat) (s : State), Accepted s m CAP_POST_POST.addr ∧ v < 2 ^ 32 ∧ min (s.rdBuf CAP_PRE_PRE) s.capacity + v ≤ s.capacity) ∧
    (∃ (m : Master) (v : Nat) (s : State), Accepted s m CAP_POST_POST.addr ∧ v < 2 ^ 32 ∧ s.capacity < min (s.rdBuf CAP_PRE_PRE) s.capacity + v
        ∧ Listens s) ∧
    (∃ (m : Master) (lo : Option Nat) (hi : Option Nat) (a : Nat) (x : Nat) (v : Nat) (s : State), Accepted s m a ∧ x < 2 ^ 32 ∧ ((lo = some x
        ∧ hi = none ∧ a = CAP_RDPTR_LO_OFS.addr ∧ v = x + s.rd CAP_RDPTR_HI_OFS * 2 ^ 32) ∨ (lo = none ∧ hi = some x ∧ a = CAP_RDPTR_HI_OFS.addr
        ∧ v = s.rd CAP_RDPTR_LO_OFS + x * 2 ^ 32)) ∧ (v * 8 = s.cap.wp ∨ s.cap.recs.any (fun r => r.off == v * 8) = true)) ∧
    (∃ (m : Master) (lo : Option Nat) (hi : Option Nat) (a : Nat) (x : Nat) (v : Nat) (s : State), Accepted s m a ∧ x < 2 ^ 32 ∧ ((lo = some x
        ∧ hi = none ∧ a = CAP_RDPTR_LO_OFS.addr ∧ v = x + s.rd CAP_RDPTR_HI_OFS * 2 ^ 32) ∨ (lo = none ∧ hi = some x ∧ a = CAP_RDPTR_HI_OFS.addr
        ∧ v = s.rd CAP_RDPTR_LO_OFS + x * 2 ^ 32)) ∧ (v * 8 = s.cap.wp ∨ s.cap.recs.any (fun r => r.off == v * 8) = true)) ∧
    (∃ (m : Master) (lo : Option Nat) (hi : Option Nat) (a : Nat) (x : Nat) (v : Nat) (s : State), Accepted s m a ∧ x < 2 ^ 32 ∧ ((lo = some x
        ∧ hi = none ∧ a = CAP_RDPTR_LO_OFS.addr ∧ v = x + s.rd CAP_RDPTR_HI_OFS * 2 ^ 32) ∨ (lo = none ∧ hi = some x ∧ a = CAP_RDPTR_HI_OFS.addr
        ∧ v = s.rd CAP_RDPTR_LO_OFS + x * 2 ^ 32)) ∧ v * 8 ≠ s.cap.wp ∧ (s.cap.recs.any (fun r => r.off == v * 8) = false)) ∧
    (∃ (m : Master) (lo : Option Nat) (hi : Option Nat) (a : Nat) (x : Nat) (v : Nat) (s : State), Accepted s m a ∧ x < 2 ^ 32 ∧ ((lo = some x
        ∧ hi = none ∧ a = CAP_RDPTR_LO_OFS.addr ∧ v = x + s.rd CAP_RDPTR_HI_OFS * 2 ^ 32) ∨ (lo = none ∧ hi = some x ∧ a = CAP_RDPTR_HI_OFS.addr
        ∧ v = s.rd CAP_RDPTR_LO_OFS + x * 2 ^ 32)) ∧ v * 8 ≠ s.cap.wp ∧ (s.cap.recs.any (fun r => r.off == v * 8) = false)) ∧
    (∃ (m : Master) (f : Field) (v : Nat) (s : State), f ∈ partFields ∧ Accepted s m f.addr
        ∧ ((partFields.map (fun g => (s.wr f v).rd g)).foldl (fun a b => a + b) 0 ≤ 7680)) ∧
    (∃ (m : Master) (f : Field) (v : Nat) (s : State), f ∈ partFields ∧ Accepted s m f.addr ∧ Listens s
        ∧ (7680 < (partFields.map (fun g => (s.wr f v).rd g)).foldl (fun a b => a + b) 0)) :=
  ⟨⟨.mc, 15, (svcP.wr CAP_CFG_MODE 1).wr (CAP_TRIG_CFG_EN 15) 1, by decide +kernel⟩,
   ⟨.mc, 15, ((svcP.wr CAP_CFG_MODE 1).wr (CAP_TRIG_CFG_EN 15) 1).wr CLK_STAT_STATE 1, by decide +kernel⟩,
   ⟨.host, 0xFFFF, svcP.wr CAP_CFG_MODE 0, by decide +kernel⟩,
   ⟨.host, 0x8000, svcP.wr CAP_CFG_MODE 1, by decide +kernel⟩,
   ⟨.mc, 63, 63, { svcP with cap.capts := List.replicate 64 { captureDesc0 with state := 2 } }, by decide +kernel⟩,
   ⟨.host, 128, 0, { svcP with cap.capts := List.replicate 64 { captureDesc0 with state := 1 } }, by decide +kernel⟩,
   ⟨.mc, 63, svcP, by decide +kernel⟩,
   ⟨.mc, 126, svcP, by decide +kernel⟩,
   ⟨.mc, 127, { svcP with cap.capts := List.replicate 64 { captureDesc0 with state := 2 } }, by decide +kernel⟩,
   ⟨.mc, 24000, svcP, by decide +kernel⟩,
   ⟨.host, 0xFFFFFFFF, svcP, by decide +kernel⟩,
   ⟨.mc, some 5, none, CAP_RDPTR_LO_OFS.addr, 5, 5, { svcP with cap.recs := [⟨40, 40, 0, 3, 0, 0, 0⟩] }, by decide +kernel⟩,
   ⟨.host, none, some 0, CAP_RDPTR_HI_OFS.addr, 0, 0, svcP, by decide +kernel⟩,
   ⟨.mc, some 4, none, CAP_RDPTR_LO_OFS.addr, 4, 4, { svcP with cap.recs := [⟨40, 40, 0, 3, 0, 0, 0⟩] }, by decide +kernel⟩,
   ⟨.host, none, some 1, CAP_RDPTR_HI_OFS.addr, 1, 2 ^ 32, svcP, by decide +kernel⟩,
   ⟨.mc, CAP_PART_CAP_MIB, 1536, svcP, by decide +kernel⟩,
   ⟨.mc, CAP_PART_WA_MIB 7, 65, svcP, by decide +kernel⟩⟩

theorem witness_ArchiveSearchAndJobs :
    (∃ (m : Master) (n : Nat) (s : State), Accepted s m ARC_FIND_SERIAL.addr) ∧
    (∃ (n : Nat) (due : Nat) (e : ArcEnt) (s : State), s.on 6 = true ∧ s.cap.find = some (n, due)
        ∧ (s.cap.ents.find? (fun x => x.typ == 1 && x.serial == n) = some e)) ∧
    (∃ (n : Nat) (due : Nat) (s : State), s.on 6 = true ∧ s.cap.find = some (n, due)
        ∧ (s.cap.ents.find? (fun x => x.typ == 1 && x.serial == n) = none)) ∧
    (∃ (m : Master) (s : State), Accepted s m (jobAddr m) ∧ s.is (ELS_J_STAT_BUSY (mNum m)) = false ∧ s.is (ELS_J_STAT_PAUSED (mNum m)) = false
        ∧ (s.rd (ELS_J_OP_OP (mNum m)) = 1 ∨ s.rd (ELS_J_OP_OP (mNum m)) = 2) ∧ 2 ≤ s.rd (ELS_J_OP_DST_PART (mNum m))
        ∧ s.rd (ELS_J_LEN_LEN (mNum m)) ≠ 0 ∧ s.elsRoom 5 = true) ∧
    (∃ (m : Master) (s : State), Accepted s m (jobAddr m) ∧ s.is (ELS_J_STAT_BUSY (mNum m)) = false ∧ s.is (ELS_J_STAT_PAUSED (mNum m)) = false
        ∧ (s.rd (ELS_J_OP_OP (mNum m)) = 1 ∨ s.rd (ELS_J_OP_OP (mNum m)) = 2) ∧ 2 ≤ s.rd (ELS_J_OP_DST_PART (mNum m))
        ∧ s.rd (ELS_J_LEN_LEN (mNum m)) = 0) ∧
    (∃ (m : Master) (e : Nat) (s : State), Accepted s m (jobAddr m) ∧ s.is (ELS_J_STAT_BUSY (mNum m)) = false
        ∧ s.is (ELS_J_STAT_PAUSED (mNum m)) = false ∧ ((s.rd (ELS_J_OP_OP (mNum m)) ≠ 1 ∧ s.rd (ELS_J_OP_OP (mNum m)) ≠ 2
        ∧ e = 8) ∨ ((s.rd (ELS_J_OP_OP (mNum m)) = 1 ∨ s.rd (ELS_J_OP_OP (mNum m)) = 2) ∧ s.rd (ELS_J_OP_DST_PART (mNum m)) < 2
        ∧ e = 2) ∨ ((s.rd (ELS_J_OP_OP (mNum m)) = 1 ∨ s.rd (ELS_J_OP_OP (mNum m)) = 2) ∧ 2 ≤ s.rd (ELS_J_OP_DST_PART (mNum m))
        ∧ s.rd (ELS_J_LEN_LEN (mNum m)) ≠ 0 ∧ s.elsRoom 5 = false ∧ e = 9))) ∧
    (∃ (m : Master) (e : Nat) (s : State), Accepted s m (jobAddr m) ∧ s.is (ELS_J_STAT_BUSY (mNum m)) = false
        ∧ s.is (ELS_J_STAT_PAUSED (mNum m)) = false ∧ ((s.rd (ELS_J_OP_OP (mNum m)) ≠ 1 ∧ s.rd (ELS_J_OP_OP (mNum m)) ≠ 2
        ∧ e = 8) ∨ ((s.rd (ELS_J_OP_OP (mNum m)) = 1 ∨ s.rd (ELS_J_OP_OP (mNum m)) = 2) ∧ s.rd (ELS_J_OP_DST_PART (mNum m)) < 2
        ∧ e = 2) ∨ ((s.rd (ELS_J_OP_OP (mNum m)) = 1 ∨ s.rd (ELS_J_OP_OP (mNum m)) = 2) ∧ 2 ≤ s.rd (ELS_J_OP_DST_PART (mNum m))
        ∧ s.rd (ELS_J_LEN_LEN (mNum m)) ≠ 0 ∧ s.elsRoom 5 = false ∧ e = 9))) ∧
    (∃ (m : Master) (e : Nat) (s : State), Accepted s m (jobAddr m) ∧ s.is (ELS_J_STAT_BUSY (mNum m)) = false
        ∧ s.is (ELS_J_STAT_PAUSED (mNum m)) = false ∧ ((s.rd (ELS_J_OP_OP (mNum m)) ≠ 1 ∧ s.rd (ELS_J_OP_OP (mNum m)) ≠ 2
        ∧ e = 8) ∨ ((s.rd (ELS_J_OP_OP (mNum m)) = 1 ∨ s.rd (ELS_J_OP_OP (mNum m)) = 2) ∧ s.rd (ELS_J_OP_DST_PART (mNum m)) < 2
        ∧ e = 2) ∨ ((s.rd (ELS_J_OP_OP (mNum m)) = 1 ∨ s.rd (ELS_J_OP_OP (mNum m)) = 2) ∧ 2 ≤ s.rd (ELS_J_OP_DST_PART (mNum m))
        ∧ s.rd (ELS_J_LEN_LEN (mNum m)) ≠ 0 ∧ s.elsRoom 5 = false ∧ e = 9))) ∧
    (∃ (m : Master) (s : State), Accepted s m (jobAddr m) ∧ (s.is (ELS_J_STAT_BUSY (mNum m)) = true ∨ s.is (ELS_J_STAT_PAUSED (mNum m)) = true)) ∧
    (∃ (m : Master) (s : State), Accepted s m (jobAddr m) ∧ (s.is (ELS_J_STAT_BUSY (mNum m)) = true ∨ s.is (ELS_J_STAT_PAUSED (mNum m)) = true)) ∧
    (∃ (m : Master) (s : State), Accepted s m (jobAddr m) ∧ s.is (ELS_J_STAT_PAUSED (mNum m)) = false) ∧
    (∃ (m : Master) (s : State), Accepted s m (jobAddr m) ∧ s.is (ELS_J_STAT_PAUSED (mNum m)) = true ∧ s.elsRoom 5 = false) ∧
    (∃ (m : Master) (s : State), Accepted s m (jobAddr m) ∧ s.is (ELS_J_STAT_PAUSED (mNum m)) = true ∧ s.elsRoom 5 = true) ∧
    (∃ (k : Nat) (ue : Bool) (s : State), s.elsCurrent = some (.soft k) ∧ s.rd CLK_STAT_STATE = 1) ∧
    (∃ (k : Nat) (len : Nat) (out : List Byte) (s : State), k < 2 ∧ s.on 6 = true ∧ s.rd CLK_STAT_STATE ≠ 1 ∧ s.elsCurrent = some (.soft k)
        ∧ s.rd (ELS_J_OP_OP k) = 1 ∧ s.rd (ELS_J_LEN_LEN k) = len ∧ 0 < len ∧ len ≤ 1048576 ∧ s.rd (ELS_J_INDONE k) = 0
        ∧ s.rd (ELS_J_OUTLEN k) = 0 ∧ s.jobSrc k + len ≤ s.partSize (s.rd (ELS_J_OP_SRC_PART k))
        ∧ out = elsBlock (s.rd (ELS_J_OP_LEVEL k)) false (s.dramRead (s.partBase (s.rd (ELS_J_OP_SRC_PART k)) + s.jobSrc k) len)
        ∧ out.length ≤ s.rd (ELS_J_DSTCAP_CAP k) ∧ out.length < 2 ^ 32 ∧ s.jobDst k + out.length ≤ s.partSize (s.rd (ELS_J_OP_DST_PART k))) ∧
    (∃ (k : Nat) (ue : Bool) (s : State), k < 2 ∧ s.on 6 = true ∧ s.rd CLK_STAT_STATE ≠ 1 ∧ s.elsCurrent = some (.soft k)
        ∧ (ue = true ∨ s.partSize (s.rd (ELS_J_OP_SRC_PART k)) < s.jobSrc k + s.rd (ELS_J_LEN_LEN k))) ∧
    (∃ (k : Nat) (ue : Bool) (s : State), k < 2 ∧ s.on 6 = true ∧ s.rd CLK_STAT_STATE ≠ 1 ∧ s.elsCurrent = some (.soft k)
        ∧ (ue = true ∨ s.partSize (s.rd (ELS_J_OP_SRC_PART k)) < s.jobSrc k + s.rd (ELS_J_LEN_LEN k))) :=
  ⟨⟨.mc, 2 ^ 32, svc, by decide +kernel⟩,
   ⟨7, 100, ⟨80, 16, 0, 1, 7⟩, { svc with cap.find := some (7, 100), cap.ents := [⟨80, 16, 0, 1, 7⟩] }, by decide +kernel⟩,
   ⟨7, 100, { svc with cap.find := some (7, 100), cap.ents := [⟨80, 16, 0, 2, 7⟩] }, by decide +kernel⟩,
   ⟨.host, ((svc.wr (ELS_J_OP_OP 1) 2).wr (ELS_J_OP_DST_PART 1) 2).wr (ELS_J_LEN_LEN 1) 1, by decide +kernel⟩,
   ⟨.mc, (svc.wr (ELS_J_OP_OP 0) 1).wr (ELS_J_OP_DST_PART 0) 2, by decide +kernel⟩,
   ⟨.mc, 8, svc.wr (ELS_J_OP_OP 0) 3, by decide +kernel⟩,
   ⟨.mc, 2, (svc.wr (ELS_J_OP_OP 0) 1).wr (ELS_J_OP_DST_PART 0) 1, by decide +kernel⟩,
   ⟨.mc, 9, { ((svc.wr (ELS_J_OP_OP 0) 1).wr (ELS_J_OP_DST_PART 0) 2).wr (ELS_J_LEN_LEN 0) 1 with els := List.replicate 16 ⟨.soft 1, false⟩ }, by decide +kernel⟩,
   ⟨.mc, { svc.wr (ELS_J_STAT_BUSY 0) 1 with els := [⟨.soft 0, true⟩] }, by decide +kernel⟩,
   ⟨.host, svc.wr (ELS_J_STAT_PAUSED 1) 1, by decide +kernel⟩,
   ⟨.host, svc, by decide +kernel⟩,
   ⟨.host, { svc.wr (ELS_J_STAT_PAUSED 1) 1 with els := List.replicate 16 ⟨.soft 1, false⟩ }, by decide +kernel⟩,
   ⟨.host, svc.wr (ELS_J_STAT_PAUSED 1) 1, by decide +kernel⟩,
   ⟨0, false, { svcP.wr CLK_STAT_STATE 1 with els := [⟨.soft 0, true⟩] }, by decide +kernel⟩,
   job_fits,
   ⟨0, true, { svcP with els := [⟨.soft 0, true⟩] }, by decide +kernel⟩,
   ⟨0, false, ({ svcP with els := [⟨.soft 0, true⟩] } : State).wr (ELS_J_LEN_LEN 0) 0xFFFFFFFF |>.wr (ELS_J_OP_SRC_PART 0) 2, by decide +kernel⟩⟩

theorem witness_RecorderTakesAndReads :
    (∃ (e : Ev) (s : State), s.log.running = true ∧ s.log.inq = [e] ∧ s.log.waiting = [] ∧ s.log.lost = 0 ∧ s.rd LOG_CFG_RATE_MAX = 0
        ∧ s.is LOG_STAT_MEMFAIL = false ∧ s.log.ring.length < 65536) ∧
    (∃ (e : Ev) (r : RateCode) (s : State), s.log.running = true ∧ s.log.inq = [e] ∧ s.log.waiting = [] ∧ s.log.lost = 0
        ∧ s.rd LOG_CFG_RATE_MAX ≠ 0 ∧ s.isCrit e.code = false ∧ e.code / 4096 ≠ 0xA ∧ (s.log.rates.find? (fun x => x.code == e.code) = some r)
        ∧ s.rd LOG_CFG_RATE_MAX ≤ r.written) ∧
    (∃ (s : State), s.log.running = true ∧ ((∀ r, r ∈ s.log.rates → r.supp = 0)) ∧ 0 < s.inc) ∧
    (∃ (r : RateCode) (s : State), s.log.running = true ∧ s.log.rates = [r] ∧ r.supp ≠ 0 ∧ s.is LOG_STAT_MEMFAIL = false
        ∧ s.log.ring.length < 65536 ∧ 0 < s.inc) ∧
    (∃ (m : Master) (q : Nat) (i : Nat) (x : Rec) (s : State), Accepted s m 0xD0020 ∧ q < 2 ^ 32 ∧ ringIndex s.log q = some i
        ∧ s.log.bad.contains (ringSlot s.log i) = false ∧ s.log.ring[i]? = some x) ∧
    (∃ (m : Master) (q : Nat) (s : State), Accepted s m 0xD0020 ∧ q < 2 ^ 32 ∧ ringIndex s.log q = none) ∧
    (∃ (m : Master) (q : Nat) (s : State), Accepted s m 0xD0020 ∧ q < 2 ^ 32 ∧ ringIndex s.log q = none) ∧
    (∃ (m : Master) (q : Nat) (i : Nat) (s : State), Accepted s m 0xD0020 ∧ q < 2 ^ 32 ∧ ringIndex s.log q = some i
        ∧ s.log.bad.contains (ringSlot s.log i) = true) ∧
    (∃ (m : Master) (q : Nat) (i : Nat) (x : Rec) (s : State), Accepted s m 0xD0028 ∧ q = (s.rd (forM m LOG_RD_SEQ_SEQ) + 1) % 2 ^ 32
        ∧ ringIndex s.log q = some i ∧ s.log.bad.contains (ringSlot s.log i) = false ∧ s.log.ring[i]? = some x) ∧
    (∃ (m : Master) (q : Nat) (s : State), Accepted s m 0xD0028 ∧ q = (s.rd (forM m LOG_RD_SEQ_SEQ) + 1) % 2 ^ 32 ∧ ringIndex s.log q = none) :=
  ⟨⟨evOf 0x7020, { svc.wr LOG_CFG_RATE_MAX 0 with log.inq := [evOf 0x7020], log.nextSeq := 0xFFFFFFFF }, by decide +kernel⟩,
   ⟨evOf 0x7020, ⟨0x7020, 5, 0, 0⟩, { svc.wr LOG_CFG_RATE_MAX 5 with log.inq := [evOf 0x7020], log.rates := [⟨0x7020, 5, 0, 0⟩] }, by decide +kernel⟩,
   ⟨{ svc with log.rates := [⟨0x7020, 5, 0, 0⟩] }, by decide +kernel⟩,
   ⟨⟨0x7020, 5, 1, 0⟩, { svc with log.rates := [⟨0x7020, 5, 1, 0⟩] }, by decide +kernel⟩,
   ⟨.mc, 7, 1, recOf 7, { svc with log.ring := [recOf 6, recOf 7], log.nextSeq := 8, log.wp := 2 }, by decide +kernel⟩,
   ⟨.host, 8, { svc with log.ring := [recOf 6, recOf 7], log.nextSeq := 8, log.wp := 2 }, by decide +kernel⟩,
   ⟨.host, 0xFFFFFFFF, { svc with log.ring := [recOf 6, recOf 7], log.nextSeq := 8, log.wp := 2 }, by decide +kernel⟩,
   ⟨.mc, 7, 1, { svc with log.ring := [recOf 6, recOf 7], log.nextSeq := 8, log.wp := 2, log.bad := [1] }, by decide +kernel⟩,
   ⟨.host, 0, 0, recOf 0, { svc.wr (forM .host LOG_RD_SEQ_SEQ) 0xFFFFFFFF with log.ring := [recOf 0], log.nextSeq := 1, log.wp := 1 }, by decide +kernel⟩,
   ⟨.mc, 8, { svc.wr (forM .mc LOG_RD_SEQ_SEQ) 7 with log.ring := [recOf 6, recOf 7], log.nextSeq := 8, log.wp := 2 }, by decide +kernel⟩⟩

theorem witness_ObjectsClearsMirrorDegraded :
    (∃ (m : Master) (i : Nat) (s : State), Accepted s m 0xD0300) ∧
    (∃ (m : Master) (v : Nat) (i : Nat) (s : State), Accepted s m 0xD0304 ∧ s.rd LOG_OBJ_SEL_OBJ = i) ∧
    (∃ (m : Master) (v : Nat) (i : Nat) (s : State), Accepted s m 0xD0304 ∧ s.rd LOG_OBJ_SEL_OBJ = i) ∧
    (∃ (m : Master) (a : Nat) (v : Nat) (i : Nat) (o : StatObj) (s : State), Accepted s m a ∧ (a = 0xD0308 ∨ a = 0xD030C)
        ∧ s.rd LOG_OBJ_SEL_OBJ = i ∧ o = s.obj i) ∧
    (∃ (m : Master) (a : Nat) (v : Nat) (i : Nat) (o : StatObj) (s : State), Accepted s m a ∧ (a = 0xD0308 ∨ a = 0xD030C)
        ∧ s.rd LOG_OBJ_SEL_OBJ = i ∧ o = s.obj i) ∧
    (∃ (m : Master) (sc : Nat) (s : State), Accepted s m 0xD0120 ∧ s.is LOG_CLR_STAT_BUSY = false ∧ s.rd LOG_CLR_KEY_SCOPE = sc
        ∧ s.is LOG_STAT_MEMFAIL = false ∧ s.log.ring.length < 65536 ∧ s.keyUse (s.rd LOG_CLR_KEY_KEYSLOT) 5 [2] (some m) = none
        ∧ ((s.verifyKeys (s.rd LOG_CLR_KEY_KEYSLOT)).any (fun k => beBytes 16 (Config.hmacSha256 k (s.authMsg LOG_CLR_CHAL_LO_CHAL
        LOG_CLR_CHAL_HI_CHAL (s.rd LOG_CLR_KEY_KEYSLOT + sc * 256)) / 2 ^ 128) == (List.range 4).flatMap (fun i => leBytes 4 (s.rd
        (LOG_CLR_RESP_RESP i)))) = true)) ∧
    (∃ (m : Master) (s : State), Accepted s m 0xD0120 ∧ s.is LOG_CLR_STAT_BUSY = false
        ∧ s.keyUse (s.rd LOG_CLR_KEY_KEYSLOT) 5 [2] (some m) = none
        ∧ ((s.verifyKeys (s.rd LOG_CLR_KEY_KEYSLOT)).any (fun k => beBytes 16 (Config.hmacSha256 k (s.authMsg LOG_CLR_CHAL_LO_CHAL
        LOG_CLR_CHAL_HI_CHAL (s.rd LOG_CLR_KEY_KEYSLOT + s.rd LOG_CLR_KEY_SCOPE * 256)) / 2 ^ 128) == (List.range 4).flatMap (fun i => leBytes 4
        (s.rd (LOG_CLR_RESP_RESP i)))) = false) ∧ Listens s) ∧
    (∃ (m : Master) (r : Nat) (s : State), Accepted s m 0xD0120 ∧ s.is LOG_CLR_STAT_BUSY = false
        ∧ s.keyUse (s.rd LOG_CLR_KEY_KEYSLOT) 5 [2] (some m) = some r) ∧
    (∃ (m : Master) (s : State), Accepted s m 0xD0120 ∧ s.is LOG_CLR_STAT_BUSY = true ∧ Listens s) ∧
    (∃ (r : Rec) (q : List Rec) (w : Memory) (s : State), s.log.running = true ∧ s.is FWU_STG_STAT_BUSY = false ∧ s.log.mirq = r :: q
        ∧ s.log.mirOpen = true ∧ s.log.mirIndex < 2047 ∧ s.log.mirLost = 0
        ∧ w = Memory.writeN norErased s.nor (mirBase + s.log.mirSector * 65536 + 32 + 32 * s.log.mirIndex) ((recWords r).flatMap (leBytes 4))) ∧
    (∃ (r : Rec) (q : List Rec) (w : Memory) (s : State), s.log.running = true ∧ s.is FWU_STG_STAT_BUSY = false ∧ s.log.mirq = r :: q
        ∧ s.log.mirOpen = true ∧ s.log.mirIndex < 2047 ∧ s.log.mirLost = 0
        ∧ w = Memory.writeN norErased s.nor (mirBase + s.log.mirSector * 65536 + 32 + 32 * s.log.mirIndex) ((recWords r).flatMap (leBytes 4))) ∧
    (∃ (r : Rec) (q : List Rec) (k : Nat) (s : State), s.log.running = true ∧ s.is FWU_STG_STAT_BUSY = false ∧ s.log.mirq = r :: q
        ∧ (s.log.mirOpen = false ∨ 2047 ≤ s.log.mirIndex) ∧ s.log.mirLost = 0 ∧ k = (s.log.mirSector + 1) % 32) ∧
    (∃ (r : Rec) (q : List Rec) (k : Nat) (s : State), s.log.running = true ∧ s.is FWU_STG_STAT_BUSY = false ∧ s.log.mirq = r :: q
        ∧ (s.log.mirOpen = false ∨ 2047 ≤ s.log.mirIndex) ∧ s.log.mirLost = 0 ∧ k = (s.log.mirSector + 1) % 32) ∧
    (∃ (r : Rec) (q : List Rec) (s : State), s.log.running = true ∧ s.is FWU_STG_STAT_BUSY = false ∧ s.log.mirq = r :: q ∧ Listens s) ∧
    (∃ (p : Bool) (s : State), s.log.running = true ∧ s.is LOG_STAT_MEMFAIL = true ∧ (p = false ∨ s.log.passes < 2)) ∧
    (∃ (p : Bool) (s : State), s.log.running = true ∧ s.is LOG_STAT_MEMFAIL = true ∧ (p = false ∨ s.log.passes < 2)) ∧
    (∃ (s : State), s.log.running = true ∧ s.is LOG_STAT_MEMFAIL = true ∧ 2 ≤ s.log.passes) :=
  ⟨⟨.mc, 1023, svc, by decide +kernel⟩,
   ⟨.host, 0x184, 511, svc.wr LOG_OBJ_SEL_OBJ 511, by decide +kernel⟩,
   ⟨.host, 0x1A5, 511, svc.wr LOG_OBJ_SEL_OBJ 511, by decide +kernel⟩,
   ⟨.host, 0xD0308, 7, 3, { objBlank with kind := 1, qty := 9, idx := 5 }, { svc.wr LOG_OBJ_SEL_OBJ 3 with log.objs := [(3, { objBlank with kind := 1, qty := 9, idx := 5 })] }, by decide +kernel⟩,
   ⟨.mc, 0xD030C, 7, 3, { objBlank with kind := 1, qty := 9, idx := 6 }, { svc.wr LOG_OBJ_SEL_OBJ 3 with log.objs := [(3, { objBlank with kind := 1, qty := 9, idx := 6 })] }, by decide +kernel⟩,
   clear_right,
   clear_wrong,
   ⟨.mc, 1, svc, by decide +kernel⟩,
   ⟨.mc, svc.wr LOG_CLR_STAT_BUSY 1, by decide +kernel⟩,
   ⟨recOf 3, [], Memory.writeN norErased svc.nor (mirBase + 32 + 32 * 1023) ((recWords (recOf 3)).flatMap (leBytes 4)), { svc with log.mirq := [recOf 3], log.mirOpen := true, log.mirSector := 0, log.mirIndex := 1023 }, by decide +kernel⟩,
   ⟨recOf 3, [], Memory.writeN norErased svc.nor (mirBase + 32 + 32 * 2046) ((recWords (recOf 3)).flatMap (leBytes 4)), { svc with log.mirq := [recOf 3], log.mirOpen := true, log.mirSector := 0, log.mirIndex := 2046 }, by decide +kernel⟩,
   ⟨recOf 3, [recOf 4], 0, { svc with log.mirq := [recOf 3, recOf 4], log.mirOpen := false, log.mirSector := 31 }, by decide +kernel⟩,
   ⟨recOf 3, [recOf 4], 1, { svc with log.mirq := [recOf 3, recOf 4], log.mirOpen := true, log.mirIndex := 2047, log.mirSector := 0 }, by decide +kernel⟩,
   ⟨recOf 3, [], { svc with log.mirq := [recOf 3] }, by decide +kernel⟩,
   ⟨true, { svc.wr LOG_STAT_MEMFAIL 1 with log.passes := 1 }, by decide +kernel⟩,
   ⟨false, { svc.wr LOG_STAT_MEMFAIL 1 with log.passes := 2 }, by decide +kernel⟩,
   ⟨{ svc.wr LOG_STAT_MEMFAIL 1 with log.passes := 2 }, by decide +kernel⟩⟩

theorem witness_MemoryErrorsAndLaneReturn :
    (∃ (m : Nat) (a : Nat) (e : Nat) (s : State), (e = 0 ∨ s.memOn m = false ∨ memSize m ≤ a)) ∧
    (∃ (m : Nat) (a : Nat) (e : Nat) (s : State), (e = 0 ∨ s.memOn m = false ∨ memSize m ≤ a)) ∧
    (∃ (m : Nat) (a : Nat) (s : State), s.memOn m = true ∧ a < memSize m ∧ Listens s) ∧
    (∃ (a : Nat) (s : State), s.memOn 6 = true ∧ a < memSize 6 ∧ s.cap.block = none ∧ Listens s) ∧
    (∃ (a : Nat) (sl : Slot) (s : State), s.memOn 0 = true ∧ a < memSize 0 ∧ s.slot (a / 0x50000) = some sl) ∧
    (∃ (m : Master) (v : Nat) (s : State), Accepted s m 0xE0034 ∧ s.on 4 = true ∧ bit v 8 = 1 ∧ s.laneIn (v % 16) = false) ∧
    (∃ (m : Master) (v : Nat) (n : Nat) (s : State), Accepted s m 0xE0034 ∧ s.on 4 = true ∧ bit v 8 = 1 ∧ s.laneIn (v % 16) = false ∧ n ≠ 0
        ∧ Listens s) ∧
    (∃ (m : Master) (v : Nat) (n : Nat) (s : State), Accepted s m 0xE0034 ∧ (bit v 8 = 0 ∨ s.laneIn (v % 16) = true ∨ s.on 4 = false)) ∧
    (∃ (m : Master) (v : Nat) (n : Nat) (s : State), Accepted s m 0xE0034 ∧ (bit v 8 = 0 ∨ s.laneIn (v % 16) = true ∨ s.on 4 = false)) ∧
    (∃ (m : Master) (v : Nat) (n : Nat) (s : State), Accepted s m 0xE0034 ∧ (bit v 8 = 0 ∨ s.laneIn (v % 16) = true ∨ s.on 4 = false)) :=
  ⟨⟨0, 0x2800000, 2, svc, by decide +kernel⟩,
   ⟨12, 0, 1, svc, by decide +kernel⟩,
   ⟨10, 0x3FFFF, svc, by decide +kernel⟩,
   ⟨0x7FFFF, svc, by decide +kernel⟩,
   ⟨0x27FFFFF, slotOf 127 3, ccdWith (slotOf 127 3), by decide +kernel⟩,
   ⟨.mc, 0x10F, (svc.wr CCD_LANES_FENCED 0x8000), by decide +kernel⟩,
   ⟨.host, 0x100, 1, (svc.wr CCD_LANES_FENCED 1), by decide +kernel⟩,
   ⟨.mc, 0xFF, 0, svc, by decide +kernel⟩,
   ⟨.mc, 0x100, 0, svc, by decide +kernel⟩,
   ⟨.mc, 0x100, 0, (svc.wr CCD_LANES_FENCED 1).wr PWR_STAT_ON 0xEF, by decide +kernel⟩⟩

theorem witness_ZorperLink :
    (∃ (c : ZlCell) (s : State), s.zlOn = true ∧ s.is RED_STAT_LINK = true ∧ c.crcOk = false) ∧
    (∃ (c : ZlCell) (s : State), s.zlOn = true ∧ s.is RED_STAT_LINK = false ∧ c.crcOk = false) ∧
    (∃ (c : ZlCell) (s : State), s.zlOn = true ∧ s.is RED_STAT_LINK = false ∧ c.crcOk = true ∧ c.serial % 2 ^ 64 ≠ s.serialNo
        ∧ s.red.goodCells < 63) ∧
    (∃ (c : ZlCell) (s : State), s.zlOn = true ∧ s.is RED_STAT_LINK = false ∧ c.crcOk = true ∧ c.serial % 2 ^ 64 ≠ s.serialNo
        ∧ s.red.goodCells = 63) ∧
    (∃ (c : ZlCell) (s : State), s.zlOn = true ∧ s.is RED_STAT_LINK = false ∧ c.crcOk = true ∧ c.serial % 2 ^ 64 = s.serialNo) ∧
    (∃ (c : ZlCell) (s : State), s.zlOn = true ∧ s.is RED_STAT_LINK = true ∧ c.crcOk = true) ∧
    (∃ (c : ZlCell) (s : State), s.zlOn = false) ∧
    (∃ (s : State), s.zlOn = true ∧ s.red.decOut = []) ∧
    (∃ (d : Nat × Nat) (l : List (Nat × Nat)) (s : State), s.zlOn = true ∧ s.red.decOut = d :: l) ∧
    (∃ (s : State), s.up = true ∧ s.is RED_STAT_LINK = true) ∧
    (∃ (k : Nat) (s : State), k < 2 ∧ s.up = true ∧ s.is RED_STAT_LINK = true ∧ s.red.laneBad = 0 ∧ Listens s) ∧
    (∃ (k : Nat) (s : State), k < 2 ∧ s.up = true ∧ s.is RED_STAT_LINK = true ∧ s.red.laneBad = 2 ^ (1 - k)) :=
  ⟨⟨⟨false, 5, 6, none, 7⟩, pairS.wr RED_STAT_LINK 1, by decide +kernel⟩,
   ⟨⟨false, 5, 6, none, 7⟩, { pairS with red.goodCells := 62 }, by decide +kernel⟩,
   ⟨⟨true, 5, 6, none, 7⟩, { pairS with red.goodCells := 62 }, by decide +kernel⟩,
   ⟨⟨true, 2 ^ 64 - 1, 65535, none, 7⟩, { pairS with red.goodCells := 63 }, by decide +kernel⟩,
   ⟨⟨true, 2 ^ 64, 6, none, 7⟩, { pairS with red.goodCells := 63 }, by decide +kernel⟩,
   ⟨⟨true, 5, 6, some 9, 7⟩, ((pairS.wr RED_STAT_LINK 1).wr RED_STAT_ACKWAIT 1).wr RED_CLAIM_ANNOUNCED 9, by decide +kernel⟩,
   ⟨⟨true, 5, 6, some 9, 7⟩, svc, by decide +kernel⟩,
   ⟨pairS, by decide +kernel⟩,
   ⟨(3, 4), [(5, 6)], { pairS with red.decOut := [(3, 4), (5, 6)] }, by decide +kernel⟩,
   ⟨pairS.wr RED_STAT_LINK 1, by decide +kernel⟩,
   ⟨1, pairS.wr RED_STAT_LINK 1, by decide +kernel⟩,
   ⟨0, { pairS.wr RED_STAT_LINK 1 with red.laneBad := 2 }, by decide +kernel⟩⟩

theorem witness_HealthTimersAndAudits :
    (∃ (x : Nat) (s : State), s.up = true ∧ s.red.holdAt = some x) ∧
    (∃ (x : Nat) (s : State), s.up = true ∧ s.red.ackAt = some x ∧ s.rd RED_CLAIM_ANNOUNCED < 65536) ∧
    (∃ (x : Nat) (s : State), s.up = true) ∧
    (∃ (bs : List Byte) (s : State), s.zlOn = true ∧ s.is RED_STAT_LINK = true ∧ s.on 4 = true ∧ 48 ≤ s.red.audBufs.length + s.red.audits.length
        ∧ Listens s) ∧
    (∃ (bs : List Byte) (s : State), s.zlOn = true ∧ s.is RED_STAT_LINK = true ∧ s.on 4 = true ∧ s.red.audBufs.length + s.red.audits.length < 48
        ∧ leAt bs 12 4 ≠ crc32c (bs.drop 16) ∧ Listens s) ∧
    (∃ (bs : List Byte) (s : State), s.zlOn = true ∧ s.is RED_STAT_LINK = true ∧ s.on 4 = true ∧ s.red.audBufs.length + s.red.audits.length < 48
        ∧ leAt bs 12 4 = crc32c (bs.drop 16) ∧ 8336 + 327680 + 32 ≤ bs.length ∧ leAt bs 4 4 = s.setCrc
        ∧ ((beBytes 32 (Config.sha256 (leBytes 4 (leAt bs 68 4) ++ slice bs 72 2 ++ leBytes 4 (leAt bs 76 4) ++ (List.range 4096).map (fun c =>
        toByte (leAt bs (144 + 2 * c) 2 % 8)) ++ slice bs 8336 327680))).take 16 = slice bs 128 16)) ∧
    (∃ (bs : List Byte) (s : State), s.zlOn = true ∧ s.is RED_STAT_LINK = true ∧ s.on 4 = true ∧ s.red.audBufs.length + s.red.audits.length < 48
        ∧ leAt bs 12 4 = crc32c (bs.drop 16) ∧ 8336 + 327680 + 32 ≤ bs.length ∧ leAt bs 4 4 ≠ s.setCrc
        ∧ ((beBytes 32 (Config.sha256 (leBytes 4 (leAt bs 68 4) ++ slice bs 72 2 ++ leBytes 4 (leAt bs 76 4) ++ (List.range 4096).map (fun c =>
        toByte (leAt bs (144 + 2 * c) 2 % 8)) ++ slice bs 8336 327680))).take 16 = slice bs 128 16) ∧ Listens s) ∧
    (∃ (bs : List Byte) (s : State), (s.zlOn = false ∨ s.is RED_STAT_LINK = false ∨ s.on 4 = false)) ∧
    (∃ (r : AuditReport) (s : State), (s.zlOn = false ∨ s.is RED_STAT_LINK = false)) ∧
    (∃ (r : AuditReport) (c : Field) (s : State), s.zlOn = true ∧ s.is RED_STAT_LINK = true ∧ r.result % 8 ≠ 4
        ∧ c = (if r.result % 8 = 0 then RED_AUD_OK_COUNT else if 6 ≤ r.result % 8 then RED_AUD_SKIP_COUNT else RED_AUD_MIS_COUNT) ∧ Listens s) ∧
    (∃ (r : AuditReport) (c : Field) (s : State), s.zlOn = true ∧ s.is RED_STAT_LINK = true ∧ r.result % 8 ≠ 4
        ∧ c = (if r.result % 8 = 0 then RED_AUD_OK_COUNT else if 6 ≤ r.result % 8 then RED_AUD_SKIP_COUNT else RED_AUD_MIS_COUNT) ∧ Listens s) ∧
    (∃ (r : AuditReport) (c : Field) (s : State), s.zlOn = true ∧ s.is RED_STAT_LINK = true ∧ r.result % 8 ≠ 4
        ∧ c = (if r.result % 8 = 0 then RED_AUD_OK_COUNT else if 6 ≤ r.result % 8 then RED_AUD_SKIP_COUNT else RED_AUD_MIS_COUNT) ∧ Listens s) ∧
    (∃ (r : AuditReport) (s : State), s.zlOn = true ∧ s.is RED_STAT_LINK = true ∧ r.result % 8 = 4) :=
  ⟨⟨7, { svc with red.holdAt := some 7 }, by decide +kernel⟩,
   ⟨7, { pairS.wr RED_CLAIM_ANNOUNCED 65535 with red.ackAt := some 7 }, by decide +kernel⟩,
   ⟨7, { pairS with red.suspSbyAt := some 7 }, by decide +kernel⟩,
   ⟨[], { pairS.wr RED_STAT_LINK 1 with red.audBufs := List.replicate 48 0 }, by decide +kernel⟩,
   ⟨zeros 12 ++ [1], { pairS.wr RED_STAT_LINK 1 with red.audBufs := List.replicate 47 0 }, by decide +kernel⟩,
   audit_digest,
   audit_other,
   ⟨[], pairS, by decide +kernel⟩,
   ⟨⟨5, 6, 7, 8, 9, false, 0, 0, 0, 16, 3, 4⟩, pairS, by decide +kernel⟩,
   ⟨⟨5, 6, 7, 8, 9, false, 0, 0, 0, 16, 3, 4⟩, RED_AUD_OK_COUNT, pairS.wr RED_STAT_LINK 1, by decide +kernel⟩,
   ⟨⟨5, 6, 7, 15, 9, false, 0, 0, 0, 16, 3, 4⟩, RED_AUD_SKIP_COUNT, pairS.wr RED_STAT_LINK 1, by decide +kernel⟩,
   ⟨⟨5, 6, 7, 5, 9, true, 0, 0, 0, 16, 3, 4⟩, RED_AUD_MIS_COUNT, pairS.wr RED_STAT_LINK 1, by decide +kernel⟩,
   ⟨⟨5, 6, 7, 4, 9, false, 0, 0, 0, 16, 3, 4⟩, pairS.wr RED_STAT_LINK 1, by decide +kernel⟩⟩

theorem witness_LifeCycleAndRevocation :
    (∃ (m : Master) (s : State), Accepted s m 0xF0004 ∧ s.lc = 0 ∧ (assoc s.key.otp 0).isSome = true) ∧
    (∃ (m : Master) (s : State), Accepted s m 0xF0004 ∧ (s.lc = 0 ∨ s.lc = 1)
        ∧ ((assoc s.key.otp 2).isSome = true ∨ (assoc s.key.otp 3).isSome = true)) ∧
    (∃ (m : Master) (s : State), Accepted s m 0xF0004 ∧ (s.lc = 0 ∨ s.lc = 1)
        ∧ ((assoc s.key.otp 2).isSome = true ∨ (assoc s.key.otp 3).isSome = true)) ∧
    (∃ (m : Master) (s : State), Accepted s m 0xF0004 ∧ Listens s) ∧
    (∃ (m : Master) (s : State), Accepted s m 0xF0004 ∧ (s.lc = 1 ∨ (s.lc = 2 ∧ s.keyUse (s.rd KEY_LC_AUTH_KEYSLOT) 6 [2] (some m) = none
        ∧ (s.verifyKeys (s.rd KEY_LC_AUTH_KEYSLOT)).any (fun k => beBytes 16 (Config.hmacSha256 k (s.authMsg KEY_LC_CHAL_LO_CHAL
        KEY_LC_CHAL_HI_CHAL 0x4C430003) / 2 ^ 128) == (List.range 4).flatMap (fun i => leBytes 4 (s.rd (KEY_LC_RESP_RESP i)))) = true))) ∧
    (∃ (m : Master) (s : State), Accepted s m 0xF0004 ∧ s.lc = 2 ∧ s.keyUse (s.rd KEY_LC_AUTH_KEYSLOT) 6 [2] (some m) = none
        ∧ ((s.verifyKeys (s.rd KEY_LC_AUTH_KEYSLOT)).any (fun k => beBytes 16 (Config.hmacSha256 k (s.authMsg KEY_LC_CHAL_LO_CHAL
        KEY_LC_CHAL_HI_CHAL 0x4C430003) / 2 ^ 128) == (List.range 4).flatMap (fun i => leBytes 4 (s.rd (KEY_LC_RESP_RESP i)))) = false) ∧ Listens s) ∧
    (∃ (m : Master) (r : Nat) (s : State), Accepted s m 0xF0004 ∧ s.lc = 2 ∧ s.keyUse (s.rd KEY_LC_AUTH_KEYSLOT) 6 [2] (some m) = some r
        ∧ s.log.running = true ∧ s.log.inq.length < 239 ∧ s.log.waiting = []) ∧
    (∃ (m : Master) (k : Nat) (s : State), Accepted s m 0xF0024 ∧ k < 4 ∧ bit (s.rd (KSL_MASTERS k)) (mNum m) = 1 ∧ bit s.key.otpRev k = 0
        ∧ (2 ≤ k ∨ bit s.key.otpRev (1 - k) = 0) ∧ Listens s) ∧
    (∃ (m : Master) (k : Nat) (s : State), Accepted s m 0xF0024 ∧ k < 4 ∧ bit (s.rd (KSL_MASTERS k)) (mNum m) = 1 ∧ bit s.key.otpRev k = 0
        ∧ (2 ≤ k ∨ bit s.key.otpRev (1 - k) = 0) ∧ Listens s) ∧
    (∃ (m : Master) (k : Nat) (s : State), Accepted s m 0xF0024 ∧ k < 4 ∧ (bit (s.rd (KSL_MASTERS k)) (mNum m) = 0 ∨ bit s.key.otpRev k = 1)) ∧
    (∃ (m : Master) (k : Nat) (s : State), Accepted s m 0xF0024 ∧ k < 4 ∧ (bit (s.rd (KSL_MASTERS k)) (mNum m) = 0 ∨ bit s.key.otpRev k = 1)) ∧
    (∃ (m : Master) (k : Nat) (s : State), Accepted s m 0xF0024 ∧ k < 2 ∧ bit (s.rd (KSL_MASTERS k)) (mNum m) = 1 ∧ bit s.key.otpRev k = 0
        ∧ bit s.key.otpRev (1 - k) = 1 ∧ Listens s) :=
  ⟨⟨.mc, { svc with key.otp := [(0, ⟨[1], 3⟩)] }, by decide +kernel⟩,
   ⟨.mc, { svc with key.otp := [(3, ⟨[1], 3⟩)] }, by decide +kernel⟩,
   ⟨.host, { svc with key.otp := [(2, ⟨[1], 3⟩)], key.lc := [1, 1, 1] }, by decide +kernel⟩,
   ⟨.mc, { svc with key.lc := [3, 3, 3] }, by decide +kernel⟩,
   ⟨.mc, { svc with key.lc := [1, 1, 1] }, by decide +kernel⟩,
   lc_wrong,
   ⟨.mc, 1, { svc with key.lc := [2, 2, 2] }, by decide +kernel⟩,
   ⟨.host, 2, svc.wr (KSL_MASTERS 2) 2, by decide +kernel⟩,
   ⟨.mc, 1, svc.wr (KSL_MASTERS 1) 1, by decide +kernel⟩,
   ⟨.host, 3, svc.wr (KSL_MASTERS 3) 1, by decide +kernel⟩,
   ⟨.host, 3, { svc.wr (KSL_MASTERS 3) 3 with key.otpRev := 8 }, by decide +kernel⟩,
   ⟨.mc, 1, { svc.wr (KSL_MASTERS 1) 1 with key.otpRev := 1 }, by decide +kernel⟩⟩

theorem witness_KeyLoads :
    (∃ (m : Master) (k : KeyIn) (s : State), Accepted s m 0xF0100 ∧ s.key.job = none ∧ s.ldKey m = k ∧ s.loadErr m none k = none) ∧
    (∃ (m : Master) (e : Nat) (s : State), Accepted s m 0xF0100 ∧ s.key.job = none ∧ s.loadErr m none (s.ldKey m) = some e ∧ Listens s) ∧
    (∃ (m : Master) (s : State), Accepted s m 0xF0100 ∧ s.key.job = none ∧ s.key.devKey = true) ∧
    (∃ (m : Master) (s : State), Accepted s m 0xF0100 ∧ s.key.job = none ∧ (s.key.devKey = false ∨ unwrapBlob (s.ldMat m 28) = none) ∧ Listens s) ∧
    (∃ (m : Master) (c : Instr) (n : Nat) (s : State), Accepted s m 0xF0100 ∧ s.key.job.isSome = true ∧ (c, n) ∈ [(.keyLoad m, 1),
        (.keyLoadWrapped m, 2), (.keyEndOverlap m, 3), (.keyDestroy m, 4), (.keyWrapOut m, 5), (.keyProgramOtp m, 6)] ∧ Listens s) ∧
    (∃ (m : Master) (j : KeyJob) (s : State), s.key.job = some j ∧ j.master = m) :=
  ⟨load_right,
   ⟨.mc, 6, svc, by decide +kernel⟩,
   ⟨.host, { svc with key.devKey := true }, by decide +kernel⟩,
   ⟨.host, svc, by decide +kernel⟩,
   ⟨.mc, .keyProgramOtp .mc, 6, { svc with key.job := some ⟨.host, 1, 5, true, 0⟩ }, by decide +kernel⟩,
   ⟨.host, ⟨.host, 1, 5, true, 0⟩, { svc with key.job := some ⟨.host, 1, 5, true, 0⟩ }, by decide +kernel⟩⟩

theorem witness_KeyCommandsAndMasks :
    (∃ (m : Master) (k : Nat) (s : State), Accepted s m 0xF0100 ∧ s.key.job = none ∧ s.rd (forM m KEY_LD_SLOT_SLOT) = k
        ∧ s.occupiedErr m k = none ∧ s.rd (KSL_STATE k) = 2) ∧
    (∃ (k : Nat) (x : Nat) (s : State), s.up = true ∧ assoc s.key.ovl k = some (some x)) ∧
    (∃ (m : Master) (k : Nat) (s : State), Accepted s m 0xF0100 ∧ s.key.job = none ∧ s.rd (forM m KEY_LD_SLOT_SLOT) = k
        ∧ s.occupiedErr m k = none ∧ (s.sealedNow = false ∨ s.rd (KSL_WORLD k) ≠ 2)) ∧
    (∃ (m : Master) (k : Nat) (s : State), Accepted s m 0xF0100 ∧ s.key.job = none ∧ s.rd (forM m KEY_LD_SLOT_SLOT) = k
        ∧ s.occupiedErr m k = none ∧ (s.sealedNow = false ∨ s.rd (KSL_WORLD k) ≠ 2)) ∧
    (∃ (m : Master) (k : Nat) (s : State), Accepted s m 0xF0100 ∧ s.key.job = none ∧ s.rd (forM m KEY_LD_SLOT_SLOT) = k
        ∧ s.occupiedErr m k = none ∧ s.sealedNow = true ∧ s.rd (KSL_WORLD k) = 2) ∧
    (∃ (m : Master) (k : Nat) (s : State), Accepted s m 0xF0100 ∧ s.key.job = none ∧ s.rd (forM m KEY_LD_SLOT_SLOT) = k ∧ s.key.devKey = true
        ∧ s.occupiedErr m k = none) ∧
    (∃ (m : Master) (c : Instr) (n : Nat) (k : Nat) (e : Nat) (s : State), Accepted s m 0xF0100 ∧ s.key.job = none
        ∧ s.rd (forM m KEY_LD_SLOT_SLOT) = k ∧ (c, n) ∈ [(.keyEndOverlap m, 3), (.keyDestroy m, 4), (.keyWrapOut m, 5)]
        ∧ (n ≠ 5 ∨ s.key.devKey = true) ∧ s.occupiedErr m k = some e ∧ Listens s) ∧
    (∃ (m : Master) (c : Instr) (n : Nat) (k : Nat) (e : Nat) (s : State), Accepted s m 0xF0100 ∧ s.key.job = none
        ∧ s.rd (forM m KEY_LD_SLOT_SLOT) = k ∧ (c, n) ∈ [(.keyEndOverlap m, 3), (.keyDestroy m, 4), (.keyWrapOut m, 5)]
        ∧ (n ≠ 5 ∨ s.key.devKey = true) ∧ s.occupiedErr m k = some e ∧ Listens s) ∧
    (∃ (m : Master) (k : KeyIn) (s : State), Accepted s m 0xF0100 ∧ s.key.job = none ∧ s.ldKey m = k ∧ k.slot < 4 ∧ assoc s.key.otp k.slot = none
        ∧ bit s.key.otpRev k.slot = 0 ∧ ((s.lc = 0 ∧ k.slot < 2) ∨ (s.lc = 1 ∧ 2 ≤ k.slot)) ∧ attrOk k.slot k.world k.typ = true) ∧
    (∃ (m : Master) (k : KeyIn) (s : State), Accepted s m 0xF0100 ∧ s.key.job = none ∧ s.ldKey m = k ∧ k.slot < 4 ∧ assoc s.key.otp k.slot = none
        ∧ bit s.key.otpRev k.slot = 0 ∧ ((s.lc = 0 ∧ k.slot < 2) ∨ (s.lc = 1 ∧ 2 ≤ k.slot)) ∧ attrOk k.slot k.world k.typ = true) ∧
    (∃ (s : State), s.up = true) ∧
    (∃ (k : Nat) (s : State), s.up = true ∧ 4 ≤ k ∧ (assoc s.key.cur k).isSome = true) :=
  ⟨⟨.mc, 63, ((keyS 63 5 2).wr (KSL_STATE 63) 2).wr (forM .mc KEY_LD_SLOT_SLOT) 63, by decide +kernel⟩,
   ⟨4, 9, { keyS 4 5 2 with key.ovl := [(4, some 9)] }, by decide +kernel⟩,
   ⟨.host, 4, (keyS 4 5 2).wr (forM .host KEY_LD_SLOT_SLOT) 4, by decide +kernel⟩,
   ⟨.host, 4, ((keyS 4 5 2).wr (forM .host KEY_LD_SLOT_SLOT) 4).wrV QTY_SEAL_SEALED 1, by decide +kernel⟩,
   ⟨.host, 4, ((keyS 4 2 3).wr (forM .host KEY_LD_SLOT_SLOT) 4).wrV QTY_SEAL_SEALED 1, by decide +kernel⟩,
   ⟨.host, 4, ({ keyS 4 2 3 with key.devKey := true } : State).wr (forM .host KEY_LD_SLOT_SLOT) 4, by decide +kernel⟩,
   ⟨.mc, .keyEndOverlap .mc, 3, 4, 6, svc.wr (forM .mc KEY_LD_SLOT_SLOT) 4, by decide +kernel⟩,
   ⟨.host, .keyWrapOut .host, 5, 4, 2, ({ (keyS 4 5 2).wr (KSL_MASTERS 4) 1 with key.devKey := true } : State).wr (forM .host KEY_LD_SLOT_SLOT) 4, by decide +kernel⟩,
   ⟨.mc, ({ svc with key.lc := [1, 1, 1] } : State).wr (forM .mc KEY_LD_SLOT_SLOT) 3 |>.wr (forM .mc KEY_LD_ATTR_TYPE) 4 |>.wr (forM .mc KEY_LD_ATTR_WORLD) 4 |>.ldKey .mc, ({ svc with key.lc := [1, 1, 1] } : State).wr (forM .mc KEY_LD_SLOT_SLOT) 3 |>.wr (forM .mc KEY_LD_ATTR_TYPE) 4 |>.wr (forM .mc KEY_LD_ATTR_WORLD) 4, by decide +kernel⟩,
   ⟨.host, (svc.wr (forM .host KEY_LD_SLOT_SLOT) 0 |>.wr (forM .host KEY_LD_ATTR_TYPE) 4 |>.wr (forM .host KEY_LD_ATTR_WORLD) 3).ldKey .host,
       svc.wr (forM .host KEY_LD_SLOT_SLOT) 0 |>.wr (forM .host KEY_LD_ATTR_TYPE) 4 |>.wr (forM .host KEY_LD_ATTR_WORLD) 3, by decide +kernel⟩,
   ⟨svc, by decide +kernel⟩,
   ⟨4, keyS 4 5 2, by decide +kernel⟩⟩

theorem witness_Staging :
    (∃ (m : Master) (s : State), Accepted s m FWU_STG_CMD_CMD.addr ∧ s.is FWU_STG_STAT_BUSY = false
        ∧ (s.rd FWU_STG_STAT_OWNER = 0 ∨ s.rd FWU_STG_STAT_OWNER = ownerOf m)) ∧
    (∃ (m : Master) (s : State), Accepted s m FWU_STG_CMD_CMD.addr ∧ s.is FWU_STG_STAT_BUSY = false
        ∧ (s.rd FWU_STG_STAT_OWNER = 0 ∨ s.rd FWU_STG_STAT_OWNER = ownerOf m)) ∧
    (∃ (m : Master) (o : Nat) (s : State), Accepted s m FWU_STG_CMD_CMD.addr ∧ s.is FWU_STG_STAT_BUSY = false
        ∧ s.rd FWU_STG_STAT_OWNER = ownerOf m ∧ s.rd FWU_STG_OFS_OFS = o ∧ o % 256 = 0) ∧
    (∃ (m : Master) (s : State), Accepted s m FWU_STG_CMD_CMD.addr ∧ s.is FWU_STG_STAT_BUSY = false ∧ s.rd FWU_STG_STAT_OWNER = ownerOf m
        ∧ s.rd FWU_STG_OFS_OFS % 256 ≠ 0) ∧
    (∃ (m : Master) (s : State), Accepted s m FWU_STG_CMD_CMD.addr ∧ s.is FWU_STG_STAT_BUSY = false ∧ s.rd FWU_STG_STAT_OWNER = ownerOf m) ∧
    (∃ (m : Master) (s : State), Accepted s m FWU_STG_CMD_CMD.addr ∧ s.is FWU_STG_STAT_BUSY = false ∧ s.rd FWU_STG_STAT_OWNER = ownerOf m
        ∧ (s.is FWU_STG_STAT_VERIFIED = false ∨ s.is FWU_STAT_TRIAL = true)) ∧
    (∃ (m : Master) (s : State), Accepted s m FWU_STG_CMD_CMD.addr ∧ s.is FWU_STG_STAT_BUSY = false ∧ s.rd FWU_STG_STAT_OWNER = ownerOf m
        ∧ (s.is FWU_STG_STAT_VERIFIED = false ∨ s.is FWU_STAT_TRIAL = true)) ∧
    (∃ (m : Master) (s : State) (u : State), Accepted s m FWU_STG_CMD_CMD.addr ∧ s.is FWU_STG_STAT_BUSY = false
        ∧ s.rd FWU_STG_STAT_OWNER = ownerOf m ∧ s.is FWU_STG_STAT_VERIFIED = true ∧ s.is FWU_STAT_TRIAL = false
        ∧ u = (s.norErase (bankBase s.spare) 0x800000).norWrite (bankBase s.spare) (s.norRead stagingBase 0x800000)) ∧
    (∃ (m : Master) (s : State), Accepted s m FWU_STG_CMD_CMD.addr ∧ s.is FWU_STG_STAT_BUSY = false ∧ s.rd FWU_STG_STAT_OWNER = ownerOf m) ∧
    (∃ (m : Master) (c : Instr) (n : Nat) (s : State), Accepted s m FWU_STG_CMD_CMD.addr ∧ s.is FWU_STG_STAT_BUSY = false
        ∧ s.rd FWU_STG_STAT_OWNER ≠ ownerOf m ∧ (c, n) ∈ [(.stagingErase m, 1), (.stagingWrite m, 2), (.stagingVerify m, 3), (.stagingCommit m, 4),
        (.stagingAbort m, 5)] ∧ (n ≠ 1 ∨ s.rd FWU_STG_STAT_OWNER ≠ 0) ∧ Listens s) ∧
    (∃ (m : Master) (c : Instr) (n : Nat) (s : State), Accepted s m FWU_STG_CMD_CMD.addr ∧ s.is FWU_STG_STAT_BUSY = false
        ∧ s.rd FWU_STG_STAT_OWNER ≠ ownerOf m ∧ (c, n) ∈ [(.stagingErase m, 1), (.stagingWrite m, 2), (.stagingVerify m, 3), (.stagingCommit m, 4),
        (.stagingAbort m, 5)] ∧ (n ≠ 1 ∨ s.rd FWU_STG_STAT_OWNER ≠ 0) ∧ Listens s) ∧
    (∃ (m : Master) (c : Instr) (n : Nat) (s : State), Accepted s m FWU_STG_CMD_CMD.addr ∧ s.is FWU_STG_STAT_BUSY = false
        ∧ s.rd FWU_STG_STAT_OWNER ≠ ownerOf m ∧ (c, n) ∈ [(.stagingErase m, 1), (.stagingWrite m, 2), (.stagingVerify m, 3), (.stagingCommit m, 4),
        (.stagingAbort m, 5)] ∧ (n ≠ 1 ∨ s.rd FWU_STG_STAT_OWNER ≠ 0) ∧ Listens s) ∧
    (∃ (m : Master) (c : Instr) (n : Nat) (s : State), Accepted s m FWU_STG_CMD_CMD.addr ∧ s.is FWU_STG_STAT_BUSY = true ∧ (c,
        n) ∈ [(.stagingErase m, 1), (.stagingWrite m, 2), (.stagingVerify m, 3), (.stagingCommit m, 4), (.stagingAbort m, 5)] ∧ Listens s) ∧
    (∃ (m : Master) (c : Instr) (n : Nat) (s : State), Accepted s m FWU_STG_CMD_CMD.addr ∧ s.is FWU_STG_STAT_BUSY = true ∧ (c,
        n) ∈ [(.stagingErase m, 1), (.stagingWrite m, 2), (.stagingVerify m, 3), (.stagingCommit m, 4), (.stagingAbort m, 5)] ∧ Listens s) ∧
    (∃ (s : State), s.up = true ∧ s.is FWU_STG_STAT_BUSY = true ∧ s.fwu.stgErr < 16) ∧
    (∃ (s : State), s.up = true ∧ s.is FWU_STG_STAT_BUSY = true ∧ s.fwu.stgCmd = 5) ∧
    (∃ (s : State), s.up = true ∧ s.is FWU_STG_STAT_BUSY = true ∧ s.fwu.stgCmd = 4 ∧ s.fwu.stgErr = 0) :=
  ⟨⟨.mc, svc, by decide +kernel⟩,
   ⟨.host, stgS .host, by decide +kernel⟩,
   ⟨.mc, 0x7FFF00, (stgS .mc).wr FWU_STG_OFS_OFS 0x7FFF00, by decide +kernel⟩,
   ⟨.host, (stgS .host).wr FWU_STG_OFS_OFS 255, by decide +kernel⟩,
   ⟨.mc, stgS .mc, by decide +kernel⟩,
   ⟨.mc, stgS .mc, by decide +kernel⟩,
   ⟨.mc, ((stgS .mc).wr FWU_STG_STAT_VERIFIED 1).wr FWU_STAT_TRIAL 1, by decide +kernel⟩,
   ⟨.mc, (stgS .mc).wr FWU_STG_STAT_VERIFIED 1,
       (((stgS .mc).wr FWU_STG_STAT_VERIFIED 1).norErase (bankBase 1) 0x800000).norWrite (bankBase 1) (((stgS .mc).wr FWU_STG_STAT_VERIFIED
       1).norRead stagingBase 0x800000), by exact ⟨by decide +kernel, by decide +kernel, by decide +kernel, by decide +kernel, by decide +kernel,
       rfl⟩⟩,
   ⟨.host, stgS .host, by decide +kernel⟩,
   ⟨.host, .stagingWrite .host, 2, stgS .mc, by decide +kernel⟩,
   ⟨.mc, .stagingAbort .mc, 5, svc, by decide +kernel⟩,
   ⟨.mc, .stagingErase .mc, 1, stgS .host, by decide +kernel⟩,
   ⟨.mc, .stagingErase .mc, 1, svc.wr FWU_STG_STAT_BUSY 1, by decide +kernel⟩,
   ⟨.host, .stagingWrite .host, 2, svc.wr FWU_STG_STAT_BUSY 1, by decide +kernel⟩,
   ⟨{ (stgS .mc).wr FWU_STG_STAT_BUSY 1 with fwu.stgCmd := 2, fwu.stgErr := 9 }, by decide +kernel⟩,
   ⟨{ (stgS .mc).wr FWU_STG_STAT_BUSY 1 with fwu.stgCmd := 5 }, by decide +kernel⟩,
   ⟨{ (stgS .mc).wr FWU_STG_STAT_BUSY 1 with fwu.stgCmd := 4 }, by decide +kernel⟩⟩

theorem witness_ActivationAndTrials :
    (∃ (m : Master) (v : Nat) (s : State), Accepted s m FWU_ACT_CODE.addr ∧ v % 2 ^ 32 = 0x4143 ∧ s.is FWU_STAT_STAGED = true
        ∧ s.activating = false ∧ (s.rd SYS_BOOT_STAT_PHASE = 9 ∨ s.rd SYS_BOOT_STAT_PHASE = 8)) ∧
    (∃ (m : Master) (v : Nat) (s : State), Accepted s m FWU_ACT_CODE.addr ∧ v % 2 ^ 32 = 0x4143 ∧ s.is FWU_STAT_STAGED = true
        ∧ s.activating = false ∧ (s.rd SYS_BOOT_STAT_PHASE = 9 ∨ s.rd SYS_BOOT_STAT_PHASE = 8)) ∧
    (∃ (m : Master) (v : Nat) (s : State), Accepted s m FWU_ACT_CODE.addr
        ∧ (v % 2 ^ 32 ≠ 0x4143 ∨ s.is FWU_STAT_STAGED = false ∨ s.activating = true)) ∧
    (∃ (m : Master) (v : Nat) (s : State), Accepted s m FWU_ACT_CODE.addr
        ∧ (v % 2 ^ 32 ≠ 0x4143 ∨ s.is FWU_STAT_STAGED = false ∨ s.activating = true)) ∧
    (∃ (m : Master) (v : Nat) (s : State), Accepted s m FWU_ACT_CODE.addr
        ∧ (v % 2 ^ 32 ≠ 0x4143 ∨ s.is FWU_STAT_STAGED = false ∨ s.activating = true)) ∧
    (∃ (m : Master) (v : Nat) (s : State), Accepted s m FWU_ACT_CODE.addr ∧ v % 2 ^ 32 = 0x4143 ∧ s.is FWU_STAT_STAGED = true
        ∧ s.activating = false ∧ s.rd SYS_BOOT_STAT_PHASE ≠ 9 ∧ s.rd SYS_BOOT_STAT_PHASE ≠ 8) ∧
    (∃ (m : Master) (ms : Nat) (u : State) (r : Option Load × State) (s : State), s.up = true ∧ s.fwu.actBy = some m
        ∧ s.is RED_STAT_ACKWAIT = false ∧ u = s.activateAbort m ∧ r = ((if u.on 5 then u.retCopy else u).activateHold).activateBoot 2) ∧
    (∃ (ms : Nat) (s : State), (s.up = false ∨ s.fwu.actBy = none ∨ s.is RED_STAT_ACKWAIT = true)) ∧
    (∃ (ms : Nat) (s : State), (s.up = false ∨ s.fwu.actBy = none ∨ s.is RED_STAT_ACKWAIT = true)) ∧
    (∃ (m : Master) (s : State), Accepted s m FWU_CONFIRM_GO.addr ∧ s.is FWU_STAT_TRIAL = true) ∧
    (∃ (m : Master) (s : State), Accepted s m FWU_CONFIRM_GO.addr ∧ s.is FWU_STAT_TRIAL = false) ∧
    (∃ (x : Nat) (s : State), s.up = true ∧ s.inService = true ∧ s.is FWU_STAT_TRIAL = true ∧ s.is FWU_CFG_AUTOCONF = true ∧ s.fwu.trialAt = some x) ∧
    (∃ (f : Nat) (s : State), s.up = true ∧ s.inService = true ∧ s.is SYS_BOOT_STAT_FALLBACK = true ∧ s.is FWU_STAT_TRIAL = false
        ∧ s.headerUsed.trial = 1 ∧ (s.fwu.trialCnt ≠ 0 ∨ s.fwu.reject ≠ 0)
        ∧ f = (if s.fwu.reject = s.spare + 1 then 3 else setBits (s.headerUsed.flags s.spare) 0 1 0)) ∧
    (∃ (f : Nat) (s : State), s.up = true ∧ s.inService = true ∧ s.is SYS_BOOT_STAT_FALLBACK = true ∧ s.is FWU_STAT_TRIAL = false
        ∧ s.headerUsed.trial = 1 ∧ (s.fwu.trialCnt ≠ 0 ∨ s.fwu.reject ≠ 0)
        ∧ f = (if s.fwu.reject = s.spare + 1 then 3 else setBits (s.headerUsed.flags s.spare) 0 1 0)) ∧
    (∃ (ok : Bool) (s : State), (ok = false ∨ s.is SYS_BOOT_STAT_FALLBACK = false ∨ s.is FWU_STAT_TRIAL = true)) ∧
    (∃ (ok : Bool) (s : State), (ok = false ∨ s.is SYS_BOOT_STAT_FALLBACK = false ∨ s.is FWU_STAT_TRIAL = true)) :=
  ⟨⟨.mc, 0x4143, svc.wr FWU_STAT_STAGED 1, by decide +kernel⟩,
   ⟨.host, 0x4143, (svc.wr FWU_STAT_STAGED 1).wr SYS_BOOT_STAT_PHASE 8, by decide +kernel⟩,
   ⟨.host, 0x4142, svc.wr FWU_STAT_STAGED 1, by decide +kernel⟩,
   ⟨.host, 0x4143, svc, by decide +kernel⟩,
   ⟨.host, 0x4143, { svc.wr FWU_STAT_STAGED 1 with fwu.actAt := some 0 }, by decide +kernel⟩,
   ⟨.mc, 0x4143, (svc.wr FWU_STAT_STAGED 1).wr SYS_BOOT_STAT_PHASE 11, by decide +kernel⟩,
   ⟨.mc, 4, ({ svc with fwu.actBy := some .mc, fwu.actAt := some 0 } : State).activateAbort .mc, ((if (({ svc with fwu.actBy := some .mc, fwu.actAt := some 0 } : State).activateAbort .mc).on 5 then (({ svc with fwu.actBy := some .mc, fwu.actAt := some 0 } : State).activateAbort .mc).retCopy else ({ svc with fwu.actBy := some .mc, fwu.actAt := some 0 } : State).activateAbort .mc).activateHold).activateBoot 2, { svc with fwu.actBy := some .mc, fwu.actAt := some 0 }, by exact ⟨by decide +kernel, by decide +kernel, by decide +kernel, rfl, rfl⟩⟩,
   ⟨0, svc, by decide +kernel⟩,
   ⟨0, { svc.wr RED_STAT_ACKWAIT 1 with fwu.actBy := some .mc, fwu.actAt := some 0 }, by decide +kernel⟩,
   ⟨.mc, svc.wr FWU_STAT_TRIAL 1, by decide +kernel⟩,
   ⟨.host, svc, by decide +kernel⟩,
   ⟨7, { (svc.wr FWU_STAT_TRIAL 1).wr FWU_CFG_AUTOCONF 1 with fwu.trialAt := some 7 }, by decide +kernel⟩,
   ⟨0, { (svc.headerWrite ⟨1, 0, 1, 1, 1, 0, 0⟩).wr SYS_BOOT_STAT_FALLBACK 1 with boot.headerCopy := some svc.headerOther, fwu.trialCnt := 1 }, by decide +kernel⟩,
   ⟨3, { (svc.headerWrite ⟨1, 0, 1, 1, 1, 0, 0⟩).wr SYS_BOOT_STAT_FALLBACK 1 with boot.headerCopy := some svc.headerOther, fwu.reject := 2 }, by decide +kernel⟩,
   ⟨false, svc.wr SYS_BOOT_STAT_FALLBACK 1, by decide +kernel⟩,
   ⟨true, svc, by decide +kernel⟩⟩

theorem witness_ClearThenCountAndSaturation :
    (∃ (m : Master) (b : Nat) (f : Field) (s : State), b < 20 ∧ Accepted s m (BLK_CLR_CLRCNT b).addr ∧ f.acc = .roc ∧ blkOfAddr f.addr = b
        ∧ rocKey (fieldKey f) = true ∧ f.dflt = 0 ∧ 0 < f.width ∧ f.lo < 32
        ∧ fieldKey f ≠ fieldKey (match m with | .mc => SYS_FAB_WR_MC_COUNT | .host => SYS_FAB_WR_HC_COUNT)) ∧
    (∃ (m : Master) (s : State), Accepted s m (BLK_CLR_CLRCNT 0).addr) ∧
    (∃ (f : Field) (n : Nat) (s : State), f.sat = true ∧ s.rd f < 2 ^ f.width) ∧
    (∃ (f : Field) (s : State), f.sat = true ∧ s.rd f = 2 ^ f.width - 1) :=
  ⟨⟨.mc, 4, NET_P_OVF_COUNT 5, svc.wr (NET_P_OVF_COUNT 5) 9, by decide +kernel⟩,
   ⟨.host, svc, by decide +kernel⟩,
   ⟨TNS_STEP_CNT_BACK, 3, svc.wr TNS_STEP_CNT_BACK (2 ^ 16 - 2), by decide +kernel⟩,
   ⟨TNS_STEP_CNT_BACK, svc.wr TNS_STEP_CNT_BACK (2 ^ 16 - 1), by decide +kernel⟩⟩

theorem witness_FullRingOverwritesOldest :
    ∃ (e : Ev) (x : Rec) (y : Rec) (l : List Rec) (s : State), s.log.running = true ∧ s.log.inq = [e] ∧ s.log.waiting = [] ∧ s.log.lost = 0
        ∧ s.rd LOG_CFG_RATE_MAX = 0 ∧ s.is LOG_STAT_MEMFAIL = false ∧ s.log.ring = x :: y :: l ∧ s.log.ring.length = 65536 :=
  full_ring

end Sys2Proof.Tests
end

section
/-! PROOF. Frames compose: what the small operations of an access may change, as `Frame`s. -/

namespace Sys2Proof.Machine

/-! ### Composing frames -/

theorem Part.same_refl (p : Part) (s : State) : p.same s s := by
  cases p <;> simp [Part.same]

theorem Part.same_trans {p : Part} {s t u : State} (h : p.same s t) (h2 : p.same t u) : p.same s u := by
  cases p <;> simp_all [Part.same]

theorem KeepsRest.refl (ps : List Part) (s : State) : KeepsRest ps s s := ⟨rfl, fun p _ => p.same_refl s⟩

theorem KeepsRest.trans {ps : List Part} {s t u : State} (h : KeepsRest ps s t) (h2 : KeepsRest ps t u) : KeepsRest ps s u :=
  ⟨h2.1.trans h.1, fun p hp => Part.same_trans (h.2 p hp) (h2.2 p hp)⟩

theorem KeepsRest.mono {ps qs : List Part} {s t : State} (hs : ∀ p ∈ ps, p ∈ qs) (h : KeepsRest ps s t) : KeepsRest qs s t :=
  ⟨h.1, fun p hp => h.2 p (fun hm => hp (hs p hm))⟩

/-- A change of register fields alone keeps every part. -/
theorem KeepsRest.of_regs (ps : List Part) (s : State) (r : RegFile) : KeepsRest ps s { s with regs := r } :=
  ⟨rfl, fun p _ => by cases p <;> simp [Part.same]⟩

theorem KeepsRegs.refl (fs : List Field) (s : State) : KeepsRegs fs s s := fun _ _ => rfl

theorem Frame.refl (fs : List Field) (ps : List Part) (s : State) : Frame fs ps s s := ⟨.refl fs s, .refl ps s⟩

theorem Frame.trans {fs : List Field} {ps : List Part} {s t u : State} (h : Frame fs ps s t) (h2 : Frame fs ps t u) : Frame fs ps s u :=
  ⟨h.1.trans h2.1, h.2.trans h2.2⟩

theorem Frame.mono {fs gs : List Field} {ps qs : List Part} {s t : State} (hf : ∀ f ∈ fs, f ∈ gs) (hp : ∀ p ∈ ps, p ∈ qs)
    (h : Frame fs ps s t) : Frame gs qs s t := ⟨h.1.mono hf, h.2.mono hp⟩

/-! ### The frame of each small operation -/

section
variable {fs : List Field} {ps : List Part} {s t : State}

theorem Frame.wr {f : Field} {v : Nat} (hf : f ∈ fs) (h : Frame fs ps s t) : Frame fs ps s (t.wr f v) :=
  ⟨h.1.wr hf, h.2.trans (.of_regs ps t _)⟩

/-- An operation that changes no field, and of the parts no more than one, is within every frame that lists the part. -/
theorem Frame.part {u : State} {q : Part} (hq : q ∈ ps) (h : Frame fs ps s t) (hr : u.regs = t.regs) (hp : u.pending = t.pending)
    (hk : ∀ p, p ≠ q → p.same t u) : Frame fs ps s u :=
  h.trans ⟨.of_regs hr, hp, fun p hm => hk p (fun e => hm (e ▸ hq))⟩

theorem Frame.wrBuf {f : Field} {v : Nat} (hb : .bufs ∈ ps) (h : Frame fs ps s t) : Frame fs ps s (t.wrBuf f v) :=
  h.part hb (by simp) (by simp) (fun p hp => by cases p <;> simp_all [Part.same])

theorem Frame.wrBufV {f : Field} {v : Nat} (hb : .bufs ∈ ps) (h : Frame fs ps s t) : Frame fs ps s (t.wrBufV f v) :=
  ((h.wrBuf hb).wrBuf hb).wrBuf hb

theorem Frame.ev {c p q r u : Nat} (hl : .log ∈ ps) (h : Frame fs ps s t) : Frame fs ps s (t.ev c p q r u) :=
  h.part hl (by simp) (by simp) (fun p hp => by cases p <;> simp_all [Part.same])

theorem Frame.ticks {n : Nat} (ht : .time ∈ ps) (h : Frame fs ps s t) : Frame fs ps s (t.ticks n) :=
  h.part ht (by simp) (by simp) (fun p hp => by cases p <;> simp_all [Part.same])

theorem Frame.setPend {l : List (Nat × RegFile)} (hp : .pend ∈ ps) (h : Frame fs ps s t) : Frame fs ps s { t with pend := l } :=
  h.part hp rfl rfl (fun p hne => by cases p <;> simp_all [Part.same])

theorem Frame.hostGate {m : Master} (hg : .gate ∈ ps) (h : Frame fs ps s t) : Frame fs ps s (t.hostGate m) :=
  h.part hg (by simp) (by simp) (fun p hp => by cases p <;> simp_all [Part.same])

theorem Frame.respond {m : Master} {r : Resp} (hf : .fab ∈ ps) (h : Frame fs ps s t) : Frame fs ps s (t.respond m r) :=
  h.part hf (by simp) (by simp) (fun p hp => by cases p <;> simp_all [Part.same])

theorem Frame.countWrite {m : Master} (hw : ∀ f ∈ writeCounters, f ∈ fs) (h : Frame fs ps s t) : Frame fs ps s (t.countWrite m) := by
  cases m
  · exact h.wr (hw _ (by simp [writeCounters]))
  · exact h.wr (hw _ (by simp [writeCounters]))

/-- The lines that follow a command are part of no frame. -/
theorem Frame.finish (h : Frame fs ps s t) : Frame fs ps s (finish s t) :=
  ⟨h.1, rfl, fun p hp => by
    have := h.2.2 p hp
    cases p <;> simpa [Part.same] using this⟩

end

end Sys2Proof.Machine
end

section
/-! PROOF. An accepted write (R22, R23, R399): what the checks, the count of the write and the answer leave, and which writes are
plain words. -/

namespace Sys2Proof.Machine

/-- The state in which an accepted write of a master takes its effect: the gate opened, the write counted, the access served. -/
def State.served (s : State) (m : Master) : State := ((s.hostGate m).countWrite m).respond m .served

/-- An accepted access has its command's effect on the state that serves it. -/
theorem State.accessW_served {s : State} {m : Master} {a v : Nat} {eff : State → State} (h : Accepted s m a) :
    s.accessW m a v eff = eff (s.served m) := s.accessW_ok v m a eff h.1 h.2

section
variable (s : State) (m : Master)

theorem State.served_frame : Frame writeCounters [.fab, .gate] s (s.served m) :=
  (((Frame.refl _ _ s).hostGate (by simp)).countWrite (fun _ h => h)).respond (by simp)

theorem State.served_rd {g : Field} (h : fieldKey g ∉ writeCounters.map fieldKey) : (s.served m).rd g = s.rd g :=
  (s.served_frame m).1 g h

theorem State.served_bufs : (s.served m).bufs = s.bufs := by simp [State.served]
theorem State.served_log : (s.served m).log = s.log := by simp [State.served]

/-- Serving a write changes no power domain. -/
theorem State.served_on (k : Nat) : (s.served m).on k = s.on k := by
  simp only [State.on]
  rw [s.served_rd m (by decide), s.served_rd m (by decide)]

end

end Sys2Proof.Machine
end

section
/-! PROOF. Lists keyed by a number and masks of bits: what insertions, a filter by key and a mask leave to be read. -/

namespace Sys2Proof.Machine

/-- Insertions of a value for each key of a list: a key of the list finds its value, any other what it found before. -/
theorem assoc_foldl_assocSet {α : Type} (g : Nat → α) (ks : List Nat) (l : List (Nat × α)) (j : Nat) :
    assoc (ks.foldl (fun l k => assocSet l k (g k)) l) j = if j ∈ ks then some (g j) else assoc l j := by
  induction ks generalizing l with
  | nil => simp
  | cons k ks ih =>
    rw [List.foldl_cons, ih, assoc_assocSet]
    by_cases hk : k = j
    · subst hk; simp
    · have hne : j ≠ k := Ne.symm hk
      simp [hk, hne]

/-- What a filter by key leaves to be found. -/
theorem assoc_filter {α : Type} (q : Nat → Bool) (l : List (Nat × α)) (k : Nat) :
    assoc (l.filter (fun e => q e.1)) k = if q k then assoc l k else none := by
  induction l with
  | nil => simp [assoc]
  | cons e l ih => by_cases hk : e.1 = k <;> by_cases hq : q e.1 <;> simp_all [assoc]

theorem RegFile.get_filter (q : Nat → Bool) (r : RegFile) (f : Field) :
    RegFile.get (r.filter (fun e => q e.1)) f = if q (fieldKey f) then r.get f else f.dflt := by
  unfold RegFile.get
  rw [assoc_filter]
  split <;> rfl

/-- The word address of a field, from its key. -/
theorem fieldKey_div {f : Field} (h : f.lo < 32) : fieldKey f / 32 = f.addr := by
  unfold fieldKey; omega

/-! ### Bits and masks -/

theorem bit_eq_testBit (v i : Nat) : bit v i = (v.testBit i).toNat := (Nat.toNat_testBit v i).symm

theorem bits_mod (v lo w : Nat) : bits v lo w % 2 ^ w = bits v lo w := Nat.mod_mod _ _

theorem maskOf_succ (n : Nat) (p : Nat → Bool) : maskOf (n + 1) p = if p n then maskOf n p + 2 ^ n else maskOf n p := by
  simp [maskOf, List.range_succ, List.foldl_append]

theorem maskOf_lt (n : Nat) (p : Nat → Bool) : maskOf n p < 2 ^ n := by
  induction n with
  | zero => simp [maskOf]
  | succ n ih => rw [maskOf_succ, Nat.pow_succ]; split <;> omega

theorem testBit_maskOf (n : Nat) (p : Nat → Bool) (i : Nat) : (maskOf n p).testBit i = (decide (i < n) && p i) := by
  induction n with
  | zero => simp [maskOf]
  | succ n ih =>
    have top : (maskOf n p).testBit n = false := Nat.testBit_lt_two_pow (maskOf_lt n p)
    rw [maskOf_succ]
    rcases Nat.lt_trichotomy i n with hi | rfl | hi
    · have : i < n + 1 := by omega
      split <;> simp [Nat.add_comm (maskOf n p), Nat.testBit_two_pow_add_gt, ih, hi, this]
    · split <;> simp_all [Nat.add_comm (maskOf i p), Nat.testBit_two_pow_add_eq]
    · have hlt : (if p n then maskOf n p + 2 ^ n else maskOf n p) < 2 ^ i :=
        Nat.lt_of_lt_of_le (maskOf_succ n p ▸ maskOf_lt (n + 1) p) (Nat.pow_le_pow_right (by decide) hi)
      have : ¬ i < n + 1 := by omega
      simp [Nat.testBit_lt_two_pow hlt, this]

theorem bit_maskOf (n : Nat) (p : Nat → Bool) (i : Nat) : bit (maskOf n p) i = (decide (i < n) && p i).toNat := by
  rw [bit_eq_testBit, testBit_maskOf]

/-- A field of `w` bits holds every lower bit of what is written to it. -/
theorem bit_mod_two_pow {i w : Nat} (v : Nat) (h : i < w) : bit (v % 2 ^ w) i = bit v i := by
  simp [bit_eq_testBit, Nat.testBit_mod_two_pow, h]

theorem bit_setBits_zero (v i : Nat) : bit (setBits v i 1 0) i = 0 := by
  have : bits v i 1 = v / 2 ^ i % 2 := rfl
  simp only [bit, setBits, this, Nat.zero_mod, Nat.zero_mul, Nat.add_zero]
  rw [Nat.mul_comm, Nat.sub_mul_div]
  omega

end Sys2Proof.Machine
end

section
/-! PROOF. The apply strobe and the taking effect on the clock block (R35, R36). -/

namespace Sys2Proof.Machine

/-! ### The strobe -/

section
variable (s : State) (mask b : Nat)

theorem State.strobe_frame : Frame [SYS_APPLY_STAT_PEND] [.pend, .log] s (s.strobe mask) := by
  have h := fun l n => ((Frame.refl [SYS_APPLY_STAT_PEND] [.pend, .log] s).setPend (l := l) (by simp)).wr (v := n)
    (List.mem_singleton_self SYS_APPLY_STAT_PEND)
  simp only [State.strobe]
  split
  · exact h _ _
  · exact (h _ _).ev (by simp)

variable {b}

/-- A strobed block that is powered has its buffer in its pending copy. -/
theorem State.strobe_pend (hb : b < 20) (hm : bit mask b = 1) (hbuf : blkBuffered b = true) (hon : s.on (blkDom b) = true) :
    assoc (s.strobe mask).pend b = some (s.blockBufs b) := by
  simp only [State.strobe]
  split <;> simp [assoc_foldl_assocSet, hb, hm, hbuf, hon]

/-- SYS_APPLY_STAT shows the blocks that waited already and those now strobed. -/
theorem State.strobe_rd : (s.strobe mask).rd SYS_APPLY_STAT_PEND = maskOf 20 (fun b => bit (s.rd SYS_APPLY_STAT_PEND) b == 1
    || ((List.range 20).filter (fun b => bit mask b == 1 && blkBuffered b && s.on (blkDom b))).contains b) := by
  have hw : ∀ p, maskOf 20 p % 2 ^ SYS_APPLY_STAT_PEND.width = maskOf 20 p := fun p => Nat.mod_eq_of_lt (maskOf_lt 20 p)
  simp only [State.strobe]
  split
  · rw [State.rd_wr_self, hw]; rfl
  · rw [State.ev_rd, State.rd_wr_self, hw]; rfl

theorem State.strobe_stat (hb : b < 20) (hm : bit mask b = 1) (hbuf : blkBuffered b = true) (hon : s.on (blkDom b) = true) :
    bit ((s.strobe mask).rd SYS_APPLY_STAT_PEND) b = 1 := by
  rw [State.strobe_rd, bit_maskOf]
  simp [hb, hm, hbuf, hon]

end

/-! ### The taking effect -/

/-- The IRC follows CLK_CTRL.IRC_EN: of all fields it may clear IRC_STABLE. -/
theorem State.ircFollow_frame (s : State) : Frame [CLK_STAT_IRC_STABLE] [] s s.ircFollow := by
  unfold State.ircFollow
  split
  · exact (Frame.refl _ _ s).wr (by simp)
  · exact .refl _ _ s

section
variable {s : State} {v : Nat}

/-- Reading after a value has been taken into force whole. -/
theorem State.rd_take (s : State) (f g : Field) (v : Nat) :
    ({ s with regs := assocSet s.regs (fieldKey f) v } : State).rd g = if fieldKey f = fieldKey g then v else s.rd g := by
  unfold State.rd RegFile.get
  rw [assoc_assocSet]
  split <;> rfl

/-- With the clock block alone waiting, it is the block that applies. -/
theorem State.pendBlks_clk {l : RegFile} (h : s.pend = [(1, l)]) (p : Nat → Bool) : s.pendBlks p = if p 1 then [1] else [] := by
  simp [State.pendBlks, h, assoc, List.range, List.range.loop, List.filter_cons]

/-- The clock block takes the one field it holds: the field, the block's bit of SYS_APPLY_STAT, and the IRC after them. -/
theorem State.applyBlock_clk {f : Field} (h : s.pend = [(1, [(fieldKey f, v)])]) (t : Nat) :
    s.applyBlock 1 t = (({ s with regs := assocSet s.regs (fieldKey f) v, pend := [] } : State).wr SYS_APPLY_STAT_PEND
      (setBits (({ s with regs := assocSet s.regs (fieldKey f) v } : State).rd SYS_APPLY_STAT_PEND) 1 1 0)).ircFollow := by
  simp [State.applyBlock, h, assoc, overlay, assocDel]
  rfl

theorem State.applyBlock_clk_frame {f : Field} (h : s.pend = [(1, [(fieldKey f, v)])]) (t : Nat) :
    Frame [f, SYS_APPLY_STAT_PEND, CLK_STAT_IRC_STABLE] [.pend] s (s.applyBlock 1 t) := by
  have taken : Frame [f, SYS_APPLY_STAT_PEND, CLK_STAT_IRC_STABLE] [.pend] s { s with regs := assocSet s.regs (fieldKey f) v, pend := [] } :=
    .trans ⟨fun g hg => ?_, .of_regs _ s _⟩ (Frame.setPend (t := { s with regs := assocSet s.regs (fieldKey f) v }) (by simp) (.refl _ _ _))
  · rw [s.applyBlock_clk h]
    exact (taken.wr (by simp)).trans ((State.ircFollow_frame _).mono (by simp) (by simp))
  · rw [s.rd_take]
    exact if_neg (fun e => hg (by simp [e]))

theorem State.applyBlock_clk_pend {l : RegFile} (h : s.pend = [(1, l)]) (t : Nat) : (s.applyBlock 1 t).pend = [] := by
  simp only [State.applyBlock, h, assoc, if_true]
  exact ((State.ircFollow_frame _).2.2 .pend (by simp)).trans (by simp [assocDel, h])

/-- With the clock block alone waiting, APPLY_TAKE_EFFECT of it applies that block within 4 fabric cycles. -/
theorem exec_applyTakeEffect_clk {l : RegFile} (hu : s.up = true) (h : s.pend = [(1, l)]) :
    exec (.applyTakeEffect 2) s = done s (((s.ticks 8).applyBlock 1 0).ev 0xD021 2 0 0 0) := by
  have hnow : s.nowApply (fun b => bit 2 b == 1) = ((s.ticks 8).applyBlock 1 0).ev 0xD021 2 0 0 0 := by
    simp only [State.nowApply, State.pendBlks_clk h]
    rfl
  have hslot : (((s.ticks 8).applyBlock 1 0).ev 0xD021 2 0 0 0).pendBlks (fun b => bit 2 b == 1 && slotBlks.contains b) = [] := by
    have hp : (s.ticks 8).pend = [(1, l)] := by simp [h]
    simp [State.pendBlks, State.applyBlock_clk_pend hp, assoc]
  show done s _ = _
  simp only [hu, hnow, hslot]
  rfl

end

/-! ### SYS_APPLY -/

/-- The strobe of an accepted write to SYS_APPLY. -/
theorem runs_applyStrobe {m : Master} {mask b : Nat} {s : State} (ha : Accepted s m SYS_APPLY_MASK.addr) (hb : b < 20)
    (hm : bit mask b = 1) (hbuf : blkBuffered b = true) (hon : s.on (blkDom b) = true) :
    Runs (.applyStrobe m mask) s (fun t => assoc t.pend b = some (s.blockBufs b) ∧ bit (t.rd SYS_APPLY_STAT_PEND) b = 1
      ∧ Frame (SYS_APPLY_STAT_PEND :: writeCounters) [.pend, .fab, .gate, .log] s t) := by
  have hon' : (s.served m).on (blkDom b) = true := by rw [s.served_on, hon]
  have hbufs : (s.served m).blockBufs b = s.blockBufs b := by simp only [State.blockBufs, s.served_bufs]
  have frame : Frame (SYS_APPLY_STAT_PEND :: writeCounters) [.pend, .fab, .gate, .log] s ((s.served m).strobe mask) :=
    ((s.served_frame m).mono (by simp +contextual) (by simp +contextual)).trans (((s.served m).strobe_frame mask).mono (by simp) (by simp +contextual))
  refine runs_done (t := (s.served m).strobe mask) (congrArg (done s) (State.accessW_served ha)) ⟨?_, ?_, frame.finish⟩
  · exact ((s.served m).strobe_pend mask hb hm hbuf hon').trans (congrArg some hbufs)
  · exact (s.served m).strobe_stat mask hb hm hbuf hon'

/-- The clock block's taking effect. -/
theorem runs_applyTakeEffect_clk {v : Nat} {s : State} (hu : s.up = true)
    (h : s.pend = [(1, [(fieldKey CLK_CTRL_FO_RELOCK, v)])]) :
    Runs (.applyTakeEffect 2) s (fun t => t.pend = [] ∧ t.rd CLK_CTRL_FO_RELOCK = v ∧ bit (t.rd SYS_APPLY_STAT_PEND) 1 = 0
      ∧ Frame [CLK_CTRL_FO_RELOCK, SYS_APPLY_STAT_PEND, CLK_STAT_IRC_STABLE] [.pend, .time, .log] s t) := by
  have hp : (s.ticks 8).pend = [(1, [(fieldKey CLK_CTRL_FO_RELOCK, v)])] := by simp [h]
  have follow : ∀ (t : State) (g : Field), fieldKey g ≠ fieldKey CLK_STAT_IRC_STABLE → t.ircFollow.rd g = t.rd g :=
    fun t g hg => t.ircFollow_frame.1 g (by simpa using hg)
  refine runs_done (exec_applyTakeEffect_clk hu h) ⟨?_, ?_, ?_, Frame.finish ?_⟩
  · simp [State.applyBlock_clk_pend hp]
  · rw [finish_rd, State.ev_rd, State.applyBlock_clk hp, follow _ _ (by decide), State.rd_wr_ne _ _ _ _ (by decide)]
    exact (State.rd_take (s.ticks 8) CLK_CTRL_FO_RELOCK CLK_CTRL_FO_RELOCK v).trans (if_pos rfl)
  · rw [finish_rd, State.ev_rd, State.applyBlock_clk hp, follow _ _ (by decide), State.rd_wr_self, bit_mod_two_pow _ (by decide),
      bit_setBits_zero]
  · have taken := (State.applyBlock_clk_frame hp 0).mono (qs := [.pend, .time, .log]) (fun _ h => h) (by simp)
    exact (((Frame.refl _ _ s).ticks (by simp)).trans taken).ev (by simp)

/-- Settles O19: the strobe is a fold of insertions into the pending copies, and the clock block's pending copy is laid over the values
in force. -/
theorem applyStrobeAndTakeEffect : Obligations.ApplyStrobeAndTakeEffect :=
  ⟨fun _ _ _ _ ha hb hm hbuf hon => runs_applyStrobe ha hb hm hbuf hon, fun _ _ hu h => runs_applyTakeEffect_clk hu h⟩

end Sys2Proof.Machine
end

section
/-! PROOF. Resets (R11, R49, R74, R83, R390): what a reset of the domains and of the key store leaves, and the state after reset. -/

namespace Sys2Proof.Machine

/-- Settles O6: the files and the memories are empty, and what an empty one does not list reads as its default. -/
theorem resetLeavesDefaults : Obligations.ResetLeavesDefaults := by
  have regs : ∀ f : Field, State.reset.rd f = f.dflt := fun _ => rfl
  have mems : ∀ a, Memory.read norErased State.reset.nor a = 0xFF ∧ Memory.read dramBlank State.reset.dram a = 0 := fun _ => ⟨rfl, rfl⟩
  exact ⟨regs, rfl, rfl, rfl, rfl, mems⟩

/-! ### A domain cleared -/

/-- A reset of its domain leaves the field: PD0 holds it, or it is a lock bit and those are kept (R25). -/
def keptOver (locks : Bool) (f : Field) : Bool := pd0Held f.addr || (!locks && isLock f.addr)

section
variable (s : State) (locks : Bool) (k : Nat)

theorem State.clearDom_regs : (s.clearDom locks k).regs = dropDomain locks k s.regs := by
  unfold State.clearDom; split <;> rfl

theorem State.clearDom_mono : (s.clearDom locks k).mono = s.mono := by unfold State.clearDom; split <;> rfl
theorem State.clearDom_rtc : (s.clearDom locks k).rtc = s.rtc := by unfold State.clearDom; split <;> rfl
theorem State.clearDom_nor : (s.clearDom locks k).nor = s.nor := by unfold State.clearDom; split <;> rfl

/-- A cleared domain's fields read their defaults, but for those kept over the reset. -/
theorem State.clearDom_rd {f : Field} (hf : f.lo < 32) : (s.clearDom locks k).rd f =
    if blkDom (blkOfAddr f.addr) ≠ k ∨ keptOver locks f = true then s.rd f else f.dflt := by
  have hq : (s.clearDom locks k).rd f = _ := congrArg (fun r => RegFile.get r f) (s.clearDom_regs locks k)
  rw [hq, dropDomain, RegFile.get_filter (fun j => blkDom (blkOfAddr (j / 32)) != k || pd0Held (j / 32) || (!locks && isLock (j / 32))),
    fieldKey_div hf]
  simp only [keptOver, Bool.or_assoc, Bool.or_eq_true, bne_iff_ne, State.rd]

end

/-! ### Several domains cleared -/

/-- The domains of a list are cleared one after another. -/
def State.clearDoms (s : State) (locks : Bool) (l : List Nat) : State := s.each l (fun s k => s.clearDom locks k)

section
variable (s : State) (locks : Bool) (l : List Nat)

theorem State.clearDoms_mono : (s.clearDoms locks l).mono = s.mono :=
  s.each_keep (fun t => t.mono) l _ (fun t k => t.clearDom_mono locks k)
theorem State.clearDoms_rtc : (s.clearDoms locks l).rtc = s.rtc :=
  s.each_keep (fun t => t.rtc) l _ (fun t k => t.clearDom_rtc locks k)
theorem State.clearDoms_nor : (s.clearDoms locks l).nor = s.nor :=
  s.each_keep (fun t => t.nor) l _ (fun t k => t.clearDom_nor locks k)

theorem State.clearDoms_rd {f : Field} (hf : f.lo < 32) : (s.clearDoms locks l).rd f =
    if blkDom (blkOfAddr f.addr) ∉ l ∨ keptOver locks f = true then s.rd f else f.dflt := by
  induction l generalizing s with
  | nil => simp [State.clearDoms, State.each]
  | cons k l ih =>
    have step : s.clearDoms locks (k :: l) = (s.clearDom locks k).clearDoms locks l := rfl
    rw [step, ih, s.clearDom_rd locks k hf]
    by_cases hkept : keptOver locks f = true
    · simp [hkept]
    · by_cases hk : blkDom (blkOfAddr f.addr) = k <;> simp [hkept, hk]

end

/-- Every block lies in one of PD1 to PD7 (R13). -/
theorem blkDom_mem (b : Nat) : blkDom b ∈ [7, 6, 5, 4, 3, 2, 1] := by
  unfold blkDom
  repeat' split
  all_goals decide

/-! ### The key store's reset -/

/-- The fields that a reset of the key store loads from its fuses (R365, R370), with its challenge. -/
def keyResetFields : List Field :=
  [KEY_STAT_LC, KEY_STAT_DEVKEY, KEY_STAT_OTP_PROG, KEY_STAT_OTP_REV, KEY_STAT_READY, FWU_ROLLBACK_COUNT, KEY_LC_CHAL_LO_CHAL,
    KEY_LC_CHAL_HI_CHAL] ++
  [0, 1, 2, 3].flatMap (fun k => [KSL_OTP k, KSL_REVOKED k, KSL_STATE k, KSL_TYPE k, KSL_WORLD k, KSL_MASTERS k, KSL_KCV k])

theorem State.otpEntry_frame (s : State) {k : Nat} (hk : k ∈ [0, 1, 2, 3]) : Frame keyResetFields [.free, .key] s (s.otpEntry k) := by
  have mem : ∀ f ∈ [KSL_OTP k, KSL_REVOKED k, KSL_STATE k, KSL_TYPE k, KSL_WORLD k, KSL_MASTERS k, KSL_KCV k], f ∈ keyResetFields :=
    fun f hf => List.mem_append_right _ (List.mem_flatMap.mpr ⟨k, hk, hf⟩)
  have head := ((Frame.refl keyResetFields [.free, .key] s).wr (v := 1) (mem (KSL_OTP k) (by simp))).wr (v := bit s.key.otpRev k)
    (mem (KSL_REVOKED k) (by simp))
  cases ho : assoc s.key.otp k with
  | none => simpa only [State.otpEntry, State.wr_key, ho] using head
  | some o =>
    simp only [State.otpEntry, State.wr_key, ho]
    exact ((((head.wr (mem _ (by simp))).wr (mem _ (by simp))).wr (mem _ (by simp))).wr (mem _ (by simp))).wr (mem _ (by simp))

theorem State.keyReset_frame (s : State) (porst : Bool) : Frame keyResetFields [.free, .key] s (s.keyReset porst) := by
  have mem : ∀ f ∈ [KEY_STAT_LC, KEY_STAT_DEVKEY, KEY_STAT_OTP_PROG, KEY_STAT_OTP_REV, KEY_STAT_READY, FWU_ROLLBACK_COUNT,
      KEY_LC_CHAL_LO_CHAL, KEY_LC_CHAL_HI_CHAL], f ∈ keyResetFields := fun f hf => List.mem_append_left _ hf
  have drawn : ∀ (n : Nat) (x : KeyStore) (t : State), Frame keyResetFields [.free, .key] t { t with free := n, key := x } := fun n x t =>
    ⟨.of_regs rfl, rfl, fun p hp => by cases p <;> simp_all [Part.same]⟩
  have entries : ∀ t : State, Frame keyResetFields [.free, .key] t (t.each [0, 1, 2, 3] (fun s k => s.otpEntry k)) := fun t =>
    (((t.otpEntry_frame (k := 0) (by simp)).trans (State.otpEntry_frame _ (by simp))).trans (State.otpEntry_frame _ (by simp))).trans
      (State.otpEntry_frame _ (by simp))
  have stat : ∀ t : State, Frame keyResetFields [.free, .key] t t.keyStat := fun t =>
    (((((Frame.refl _ _ t).wr (mem _ (by simp))).wr (mem _ (by simp))).wr (mem _ (by simp))).wr (mem _ (by simp))).wr (mem _ (by simp))
  have challenge : ∀ t : State, Frame keyResetFields [.free, .key] t (t.newChallenge KEY_LC_CHAL_LO_CHAL KEY_LC_CHAL_HI_CHAL) := fun t =>
    ((drawn (t.free + 1) t.key t).wr (mem _ (by simp))).wr (mem _ (by simp))
  exact ((((drawn _ _ s).trans (entries _)).trans (stat _)).wr (mem _ (by simp))).trans (challenge _)

end Sys2Proof.Machine
end

section
/-! PROOF. The resets settled (R49, R74, R83, R390): what PORST_N, RST_N, the watchdog and a fail-over without an IRC leave. -/

namespace Sys2Proof.Machine

/-! ### SYS_RST_CAUSE -/

/-- Zero written to each field of a list: each of them reads 0, and so does a field that did before. -/
theorem State.rd_foldl_wr_zero (l : List Field) (s : State) (g : Field) (h : g ∈ l ∨ s.rd g = 0) :
    (l.foldl (fun s f => s.wr f 0) s).rd g = 0 := by
  induction l generalizing s with
  | nil => simpa using h
  | cons f l ih =>
    refine ih _ ?_
    rw [State.rd_wr]
    by_cases hk : fieldKey f = fieldKey g
    · simp [hk]
    · rcases h with h | h
      · rcases List.mem_cons.mp h with rfl | h
        · exact absurd rfl hk
        · exact .inl h
      · exact .inr (by rw [if_neg hk, h])

section
variable (s : State) {f : Field} (hf : f ∈ resetCauses)
include hf

theorem State.setCause_frame : Frame resetCauses [] s (s.setCause f) := by
  have zeros : Frame resetCauses [] s (resetCauses.foldl (fun s g => s.wr g 0) s) :=
    ((((((Frame.refl _ _ s).wr (by simp [resetCauses])).wr (by simp [resetCauses])).wr (by simp [resetCauses])).wr
      (by simp [resetCauses])).wr (by simp [resetCauses]))
  exact zeros.wr hf

theorem State.setCause_alone : CauseAlone (s.setCause f) f := by
  intro g hg
  have one : ∀ f ∈ resetCauses, 1 % 2 ^ f.width = 1 := by decide
  show ((resetCauses.foldl (fun s g => s.wr g 0) s).wr f 1).rd g = _
  rw [State.rd_wr, one f hf, State.rd_foldl_wr_zero _ _ _ (.inl hg)]
  simp only [eq_comm]

end

theorem CauseAlone.of_regs {t u : State} {f : Field} (h : CauseAlone t f) (hr : u.regs = t.regs) : CauseAlone u f := fun g hg =>
  (congrArg (fun r => RegFile.get r g) hr).trans (h g hg)

theorem State.begin_regs (s : State) : s.begin.regs = s.regs := rfl
theorem State.begin_stage (s : State) : s.begin.boot.stage = .ircStart := rfl

theorem NorKept.of_nor {s u t : State} (h : NorKept u t) (e : u.nor = s.nor) : NorKept s t := fun a =>
  (h a).trans (congrArg (fun m => Memory.read norErased m a) e)

/-! ### What a reset of PD1 to PD7 leaves -/

/-- What is fresh stays fresh where only the key store's fields and fields that PD0 holds are written. -/
theorem Fresh.of_frame {fs : List Field} {ps : List Part} {s t : State} (h : Fresh s) (hF : Frame fs ps s t)
    (hfs : ∀ k ∈ fs.map fieldKey, blkOfAddr (k / 32) = 17 ∨ k = fieldKey FWU_ROLLBACK_COUNT ∨ pd0Held (k / 32) = true) : Fresh t := by
  intro f hlo hblk hroll hheld
  refine (hF.1 f (fun hm => ?_)).trans (h f hlo hblk hroll hheld)
  have := hfs _ hm
  rw [fieldKey_div hlo] at this
  simp_all

theorem Fresh.finish {s t : State} (h : Fresh t) : Fresh (finish s t) := fun f hlo hblk hroll hheld =>
  (finish_rd s t f).trans (h f hlo hblk hroll hheld)

theorem keyResetFields_apart : ∀ k ∈ keyResetFields.map fieldKey, blkOfAddr (k / 32) = 17 ∨ k = fieldKey FWU_ROLLBACK_COUNT := by decide

theorem resetCauses_held : ∀ k ∈ resetCauses.map fieldKey, pd0Held (k / 32) = true := by decide

/-- A change of the boot state alone. -/
theorem Frame.boot (s : State) (b : Boot) : Frame [] [.boot] s { s with boot := b } :=
  (Frame.refl _ _ s).part (q := .boot) (by simp) rfl rfl (fun p hp => by cases p <;> simp_all [Part.same])

/-- The domains that a reset of PD1 to PD7 clears, in its order. -/
def resetDoms : List Nat := [7, 6, 5, 4, 3, 2, 1]

section
variable (s : State) (porst locks : Bool)

theorem State.pd1Reset_frame : Frame keyResetFields [.free, .key, .boot] (s.clearDoms locks resetDoms) (s.pd1Reset porst locks) :=
  ((State.keyReset_frame _ porst).mono (fun _ h => h) (by simp +contextual)).trans ((Frame.boot _ _).mono (by simp) (by simp))

/-- With the lock bits, a reset of PD1 to PD7 leaves every field that PD0 does not hold at its default. -/
theorem State.pd1Reset_fresh : Fresh (s.pd1Reset porst true) := by
  have cleared : Fresh (s.clearDoms true resetDoms) := fun f hlo _ _ hheld => by
    have hk : keptOver true f = false := by simp [keptOver, hheld]
    have hd : blkDom (blkOfAddr f.addr) ∈ resetDoms := blkDom_mem _
    rw [s.clearDoms_rd true resetDoms hlo, hk, if_neg (by simp [hd])]
  exact cleared.of_frame (s.pd1Reset_frame porst true) (fun k hk => (keyResetFields_apart k hk).imp_right .inl)

/-- What every reset of PD1 to PD7 leaves, whatever cause is then written and wherever the sequence then stands short of service. -/
theorem held_of_pd1Reset {s₀ t : State} (h : Frame resetCauses [.boot] (s.pd1Reset porst true) t) (hst : t.boot.stage ≠ .run) :
    OutputsHeld (finish s₀ t) ∧ (finish s₀ t).rtc = s.rtc ∧ (finish s₀ t).mono = s.mono ∧ Fresh (finish s₀ t)
      ∧ NorKept s (finish s₀ t) := by
  have all : Frame (keyResetFields ++ resetCauses) [.free, .key, .boot] (s.clearDoms true resetDoms) t :=
    ((s.pd1Reset_frame porst true).mono (by simp +contextual) (fun _ h => h)).trans (h.mono (by simp +contextual) (by simp))
  have rest := all.2.2
  have live : t.red.live = false := congrArg Redund.live ((rest .red (by simp)).trans rfl)
  have down : (finish s₀ t).up = false := by
    rw [State.up, finish_boot]; simpa using hst
  obtain ⟨-, hmono, hrtc⟩ := rest .time (by simp)
  refine ⟨⟨live, ?_, ?_⟩, hrtc.trans (s.clearDoms_rtc _ _), hmono.trans (s.clearDoms_mono _ _), ?_, fun a => ?_⟩
  · simp [State.irqPins, down]
  · simp [State.nmiPin, down]
  · exact ((s.pd1Reset_fresh porst).of_frame h (fun k hk => .inr (.inr (resetCauses_held k hk)))).finish
  · exact (rest .nor (by simp) a).trans (by rw [s.clearDoms_nor])

end

/-! ### PORST_N -/

theorem runs_porstAssert (s : State) : Runs .porstAssert s (fun t => t.boot.stage = .porst ∧ t.ospiReset = true ∧ OutputsHeld t
    ∧ t.rtc = s.rtc ∧ t.mono = s.mono ∧ Fresh t ∧ NorKept s t) := by
  refine runs_done rfl ⟨rfl, rfl, held_of_pd1Reset s false ?_ (by simp)⟩
  exact (Frame.boot _ _).mono (by simp) (by simp)

/-- What PD0 held is gone with its supply; every other field is as it was. -/
theorem State.pd0Drop_rd (s : State) {f : Field} (hf : f.lo < 32) :
    s.pd0Drop.rd f = if pd0Held f.addr then f.dflt else s.rd f := by
  have hq : s.pd0Drop.rd f = RegFile.get (s.regs.filter (fun p => !pd0Held (p.1 / 32))) f := rfl
  rw [hq, RegFile.get_filter (fun j => !pd0Held (j / 32)), fieldKey_div hf]
  cases pd0Held f.addr <;> rfl

section
variable {p : Bool} {s : State}

/-- The state at the release of PORST_N, with PD0 as its supply has left it. -/
def State.pd0Kept (s : State) (p : Bool) : State := if p || s.boot.pd0Lost then s.pd0Drop else s

theorem State.pd0Kept_rtc : (s.pd0Kept p).rtc = if p || s.boot.pd0Lost then 0 else s.rtc := by
  unfold State.pd0Kept; split <;> rfl
theorem State.pd0Kept_mono : (s.pd0Kept p).mono = s.mono := by unfold State.pd0Kept; split <;> rfl
theorem State.pd0Kept_nor : (s.pd0Kept p).nor = s.nor := by unfold State.pd0Kept; split <;> rfl

theorem Fresh.pd0Kept (h : Fresh s) : Fresh (s.pd0Kept p) := by
  unfold State.pd0Kept
  split
  · exact fun f hlo hblk hroll hheld => by rw [s.pd0Drop_rd hlo, hheld]; exact h f hlo hblk hroll hheld
  · exact h

/-- The release begins step 3: the key store starts from its fuses, and the cause is written. -/
def State.released (s : State) (p : Bool) : State := (((s.pd0Kept p).keyReset true).setCause SYS_RST_CAUSE_PORST).begin

theorem exec_porstRelease (h : s.boot.stage = .porst) : exec (.porstRelease p) s = done s (s.released p) :=
  congrArg (done s) (if_neg (not_not_intro h))

theorem State.released_frame : Frame (keyResetFields ++ resetCauses) [.free, .key, .boot] (s.pd0Kept p) (s.released p) :=
  ((((s.pd0Kept p).keyReset_frame true).mono (by simp +contextual) (by simp +contextual)).trans
    ((State.setCause_frame _ (by simp [resetCauses])).mono (by simp +contextual) (by simp))).trans
    ((Frame.boot _ _).mono (by simp) (by simp))

theorem State.released_stage : (s.released p).boot.stage = .ircStart := State.begin_stage _

theorem State.released_alone : CauseAlone (s.released p) SYS_RST_CAUSE_PORST := by
  have hr : (s.released p).regs = (((s.pd0Kept p).keyReset true).setCause SYS_RST_CAUSE_PORST).regs := by
    simp only [State.released, State.begin_regs]
  exact (State.setCause_alone _ (by simp [resetCauses])).of_regs hr

/-- The keys that a release writes: the key store's, which PD0 does not hold, and SYS_RST_CAUSE, which it does. -/
theorem released_keys : ∀ k ∈ (keyResetFields ++ resetCauses).map fieldKey, (blkOfAddr (k / 32) = 17 ∨ k = fieldKey FWU_ROLLBACK_COUNT
    ∨ pd0Held (k / 32) = true) ∧ (pd0Held (k / 32) = false ∨ k / 32 = SYS_RST_CAUSE_PORST.addr) := by decide

theorem State.released_fresh (hs : Fresh s) : Fresh (s.released p) :=
  hs.pd0Kept.of_frame State.released_frame (fun k hk => (released_keys k hk).1)

/-- After a loss of PD0's supply, what PD0 holds reads its default, the cause apart. -/
theorem State.released_held (hp : p = true) {f : Field} (hlo : f.lo < 32) (hheld : pd0Held f.addr = true)
    (haddr : f.addr ≠ SYS_RST_CAUSE_PORST.addr) : (s.released p).rd f = f.dflt := by
  have hout : fieldKey f ∉ (keyResetFields ++ resetCauses).map fieldKey := fun hm => by
    have := (released_keys _ hm).2
    rw [fieldKey_div hlo] at this
    simp_all
  refine (State.released_frame.1 f hout).trans ?_
  rw [State.pd0Kept, hp, Bool.true_or, if_pos rfl, s.pd0Drop_rd hlo, hheld, if_pos rfl]

theorem runs_porstRelease (h : s.boot.stage = .porst) : Runs (.porstRelease p) s (fun t => t.boot.stage = .ircStart
    ∧ CauseAlone t SYS_RST_CAUSE_PORST ∧ (Fresh s → Fresh t) ∧ t.rtc = (if p || s.boot.pd0Lost then 0 else s.rtc) ∧ t.mono = s.mono
    ∧ (p = true → ∀ f : Field, f.lo < 32 → pd0Held f.addr = true → f.addr ≠ SYS_RST_CAUSE_PORST.addr → t.rd f = f.dflt)
    ∧ NorKept s t) := by
  obtain ⟨hregs, -, hrest⟩ := State.released_frame (s := s) (p := p)
  obtain ⟨-, hmono, hrtc⟩ := hrest .time (by simp)
  have hnor := hrest .nor (by simp)
  have hstage := State.released_stage (s := s) (p := p)
  have halone := State.released_alone (s := s) (p := p)
  have hfresh := State.released_fresh (s := s) (p := p)
  have hheld := fun hp f => State.released_held (s := s) (p := p) hp (f := f)
  refine runs_done (exec_porstRelease h) ?_
  generalize s.released p = t at *
  exact ⟨hstage, halone.of_regs (finish_regs _ _), fun hs => (hfresh hs).finish, hrtc.trans State.pd0Kept_rtc,
    hmono.trans State.pd0Kept_mono, hheld, fun a => (hnor a).trans (by rw [State.pd0Kept_nor])⟩

end

/-! ### RST_N, the watchdog, and a fail-over without an IRC -/

theorem State.restart_frame (s : State) {cause : Field} (hc : cause ∈ resetCauses) (wake : Nat) (locks : Bool) :
    Frame resetCauses [.boot] (s.pd1Reset false locks) (s.restart cause wake locks) :=
  ((State.setCause_frame _ hc).mono (fun _ h => h) (by simp)).trans (((Frame.boot _ _).mono (by simp) (by simp)).trans
    ((Frame.boot _ _).mono (by simp) (by simp)))

theorem State.restart_stage (s : State) (cause : Field) (wake : Nat) (locks : Bool) : (s.restart cause wake locks).boot.stage = .ircStart :=
  State.begin_stage _

theorem State.restart_alone (s : State) {cause : Field} (hc : cause ∈ resetCauses) (wake : Nat) (locks : Bool) :
    CauseAlone (s.restart cause wake locks) cause := by
  have hr : (s.restart cause wake locks).regs = ((s.pd1Reset false locks).setCause cause).regs := by
    simp only [State.restart, State.begin_regs]
  exact (State.setCause_alone _ hc).of_regs hr

/-- A restart with the lock bits cleared: its cause alone, the sequence at step 3, and all as after a reset. -/
theorem restart_leaves (s s₀ : State) {cause : Field} (hc : cause ∈ resetCauses) (wake : Nat) {t : State}
    (ht : t = finish s₀ (s.restart cause wake true)) : t.boot.stage = .ircStart ∧ CauseAlone t cause ∧ OutputsHeld t ∧ t.rtc = s.rtc
      ∧ t.mono = s.mono ∧ Fresh t ∧ NorKept s t := by
  subst ht
  have hst := s.restart_stage cause wake true
  exact ⟨hst, (s.restart_alone hc wake true).of_regs (finish_regs _ _),
    held_of_pd1Reset s false (s.restart_frame hc wake true) (by rw [hst]; decide)⟩

theorem runs_rstRelease {s : State} (h : s.boot.stage ≠ .porst) : Runs .rstRelease s (fun t => t.boot.stage = .ircStart
    ∧ CauseAlone t SYS_RST_CAUSE_RSTN ∧ OutputsHeld t ∧ t.rtc = s.rtc ∧ t.mono = s.mono ∧ Fresh t ∧ NorKept s t) :=
  runs_done (congrArg (done s) (if_neg h)) (restart_leaves s s (by simp [resetCauses]) 2 rfl)

section
variable (s : State) (c p q r u : Nat)
@[simp] theorem State.lgCause_mono : (s.lgCause c p q r u).mono = s.mono := (rfl)
@[simp] theorem State.lgCause_rtc : (s.lgCause c p q r u).rtc = s.rtc := (rfl)
@[simp] theorem State.lgCause_nor : (s.lgCause c p q r u).nor = s.nor := (rfl)
end

theorem runs_watchdogTimeout {s : State} (h : s.pd1Clocked = true) : Runs .watchdogTimeout s (fun t => t.boot.stage = .ircStart
    ∧ CauseAlone t SYS_RST_CAUSE_WDOG ∧ OutputsHeld t ∧ t.rtc = s.rtc + 525 * secU / 32768 ∧ t.mono = s.mono + 525 * secU / 32768
    ∧ Fresh t ∧ NorKept s t) := by
  have hexec : exec .watchdogTimeout s
      = done s (((s.dark (525 * secU / 32768)).lgCause 0x0107 0 0 0 0).restart SYS_RST_CAUSE_WDOG 0 true) :=
    congrArg (done s) (by simp [h])
  obtain ⟨hstage, halone, hheld, hrtc, hmono, hfresh, hnor⟩ := restart_leaves ((s.dark (525 * secU / 32768)).lgCause 0x0107 0 0 0 0) s
    (show SYS_RST_CAUSE_WDOG ∈ resetCauses by simp [resetCauses]) 0 rfl
  rw [State.lgCause_rtc, State.dark_rtc] at hrtc
  rw [State.lgCause_mono, State.dark_mono] at hmono
  exact runs_done hexec ⟨hstage, halone, hheld, hrtc, hmono, hfresh, hnor.of_nor (by rw [State.lgCause_nor, State.dark_nor])⟩

/-- The fail-over that finds no IRC: up to 7 periods of the 32 kHz clock after the trip, the cause in the last-gasp file, and reset held. -/
def State.failedOver (s : State) : State :=
  let u := ((s.dark (s.boot.tripAt + 7 * secU / 32768 - s.mono)).lgCause 0x0106 1 0 0 0).pd1Reset false true
  let v := u.setCause SYS_RST_CAUSE_WDOG
  { v with boot := { v.boot with stage := .ircHold, ircAttempt := 1, wakeCause := 0, releaseAt := v.mono } }

theorem exec_failoverIrcTimeout {s : State} (h : s.boot.stage = .pending) : exec .failoverIrcTimeout s = done s s.failedOver :=
  congrArg (done s) (if_neg (not_not_intro h))

theorem State.failedOver_stage (s : State) : s.failedOver.boot.stage = .ircHold := rfl

theorem State.failedOver_alone (s : State) : CauseAlone s.failedOver SYS_RST_CAUSE_WDOG := by
  have hr : s.failedOver.regs = ((((s.dark (s.boot.tripAt + 7 * secU / 32768 - s.mono)).lgCause 0x0106 1 0 0 0).pd1Reset false
      true).setCause SYS_RST_CAUSE_WDOG).regs := by simp only [State.failedOver]
  exact (State.setCause_alone _ (by simp [resetCauses])).of_regs hr

theorem State.failedOver_frame (s : State) : Frame resetCauses [.boot]
    (((s.dark (s.boot.tripAt + 7 * secU / 32768 - s.mono)).lgCause 0x0106 1 0 0 0).pd1Reset false true) s.failedOver :=
  ((State.setCause_frame _ (by simp [resetCauses])).mono (fun _ h => h) (by simp)).trans ((Frame.boot _ _).mono (by simp) (by simp))

theorem runs_failoverIrcTimeout {s : State} (h : s.boot.stage = .pending) (hm : s.mono ≤ s.boot.tripAt + 7 * secU / 32768) :
    Runs .failoverIrcTimeout s (fun t => t.boot.stage = .ircHold ∧ t.mono = s.boot.tripAt + 7 * secU / 32768
      ∧ t.rtc + s.mono = s.rtc + t.mono ∧ CauseAlone t SYS_RST_CAUSE_WDOG ∧ OutputsHeld t ∧ Fresh t ∧ NorKept s t) := by
  have hstage := s.failedOver_stage
  have halone := s.failedOver_alone
  obtain ⟨hheld, hrtc, hmono, hfresh, hnor⟩ := held_of_pd1Reset (s₀ := s) _ false s.failedOver_frame (by rw [hstage]; decide)
  refine runs_done (exec_failoverIrcTimeout h) ?_
  generalize s.failedOver = t at *
  rw [State.lgCause_mono, State.dark_mono, Nat.add_sub_of_le hm] at hmono
  rw [State.lgCause_rtc, State.dark_rtc] at hrtc
  generalize s.boot.tripAt + 7 * secU / 32768 = n at *
  exact ⟨hstage, hmono, by omega, halone.of_regs (finish_regs _ _), hheld, hfresh, hnor.of_nor (by rw [State.lgCause_nor, State.dark_nor])⟩

/-- Settles O7: each reset clears PD1 to PD7 domain by domain and restarts the key store, so that only PD0's fields and the fuses' remain. -/
theorem resetsRestartTheSequence : Obligations.ResetsRestartTheSequence :=
  ⟨runs_porstAssert, fun _ _ h => runs_porstRelease h, fun _ h => runs_rstRelease h, fun _ h => runs_watchdogTimeout h,
    fun _ h hm => runs_failoverIrcTimeout h hm⟩

end Sys2Proof.Machine
end

section
/-! PROOF. A register write takes effect by its access code (R10, R22, R23, R25, R399). -/

namespace Sys2Proof.Machine

/-! ### Addresses whose writes are plain words -/

/-- Addresses with one register of each access code: RW, RWA, RWV, RO, ROC, RWK. -/
def codeAddrs : List Nat := [0x800C, 0x20048, 0xE0000, 0x64, CLK_MON_TRIPS_TRIPS.addr, 0x100000]

theorem fieldsAt_wakeCfg : fieldsAt 0x800C = [PWR_WAKE_CFG_RTC, PWR_WAKE_CFG_FASTWAKE] := by rfl
theorem fieldsAt_hold : fieldsAt 0x20048 = [TNS_HOLD_HOLD_MAX, TNS_HOLD_RATE] := by rfl
theorem fieldsAt_redCfg : fieldsAt 0xE0000 = [RED_CFG_PAIR_EN, RED_CFG_ROLE] := by rfl
theorem fieldsAt_hstCfg : fieldsAt 0x100000 = [HST_CFG_PORT, HST_CFG_PINS_OFF] := by rfl

section
variable {m : Master} {a : Nat} (ha : a ∈ codeAddrs)
include ha

/-- No command of its own stands behind a write to one of them. -/
theorem ownWrite_none (v : Nat) (s : State) : ownWrite m a v s = none := by
  simp only [codeAddrs, List.mem_cons, List.not_mem_nil, or_false] at ha
  rcases ha with rfl | rfl | rfl | rfl | rfl | rfl <;> cases m <;> rfl

theorem codeAddrs_lt : a < 0x110000 := by
  revert a; decide

/-- They lie in no table port, hold no coefficient of a FIR bank and no sealed field. -/
theorem codeAddrs_plain : isPort (mNum m) a = false ∧ firBank a = none ∧ (fieldsAt a).all (fun f => !f.sealed) = true := by
  cases m <;> revert a <;> decide

/-- Nothing follows at once from a write to one of them. -/
theorem afterWrite_none (s : State) : s.afterWrite a = s := by
  simp only [codeAddrs, List.mem_cons, List.not_mem_nil, or_false] at ha
  rcases ha with rfl | rfl | rfl | rfl | rfl | rfl <;> rfl

/-- A written word there goes into its fields, unless one of them is under the block's lock. -/
theorem wordWrite_unlocked {s : State} (v : Nat) (hk : ((fieldsAt a).any (fun f => f.acc == .rwk) && s.is (BLK_LOCK_LOCK (blkOfAddr a))) = false) :
    s.wordWrite m a v = s.each (fieldsAt a) (fun s f => s.putField m v f) := by
  obtain ⟨hport, hfir, hseal⟩ := codeAddrs_plain (m := m) ha
  have hs : (fieldsAt a).any (fun f => f.sealed) = false := by simpa [List.any_eq_false] using hseal
  have hw : s.portWait m a = s := by simp [State.portWait, hport]
  have hf : s.firHeld a = false := by simp [State.firHeld, hfir]
  have hall : (fieldsAt a).filter (fun _ => true) = fieldsAt a := List.filter_eq_self.mpr (fun _ _ => rfl)
  simp only [State.wordWrite, hw, hk, hf, hs, hall, afterWrite_none ha, Bool.and_false, Bool.false_and, Bool.not_false,
    Bool.false_eq_true, if_false]

/-- Under the lock the word is recorded and no field takes it. -/
theorem wordWrite_locked {s : State} (v : Nat) (hk : ((fieldsAt a).any (fun f => f.acc == .rwk) && s.is (BLK_LOCK_LOCK (blkOfAddr a))) = true) :
    s.wordWrite m a v = s.ev 0xD011 a v (mNum m) 1 := by
  obtain ⟨hport, -⟩ := codeAddrs_plain (m := m) ha
  have hw : s.portWait m a = s := by simp [State.portWait, hport]
  simp only [State.wordWrite, hw, hk, if_true]

/-- An accepted write there is served, and its word written. -/
theorem plainWrite_served {s : State} {v : Nat} (hacc : Accepted s m a) (hv : v < 2 ^ 32) :
    s.plainWrite ⟨m, a, 4, v⟩ = (s.served m).wordWrite m a v := by
  have hb : busFail (s.hostGate m) m true 4 a = none := by rw [State.busFail_hostGate]; exact hacc.2
  have hr : (s.hostGate m).regFail true a = false := by
    have lt : ∀ a ∈ codeAddrs, a / 4 * 4 < 0x1000000 ∧ a / 4 * 4 ≠ 0x100038 := by decide
    obtain ⟨h1, h2⟩ := lt a ha
    simp [State.regFail, Nat.not_le.mpr h1, h2]
  have hsize : (4 : Nat) ≠ 8 := by decide
  simp only [State.plainWrite, hb, hr, Nat.mod_eq_of_lt hv, if_neg hsize, Bool.false_eq_true, if_false]
  rfl

theorem isBar2_low {s : State} : s.isBar2 m a = false := by
  have hlt := codeAddrs_lt ha
  have h : ¬ 2 ^ 33 ≤ a := by omega
  simp only [State.isBar2, decide_eq_false h, Bool.and_false, Bool.false_and]

/-- No write there clears counters. -/
theorem clearOf_none {s : State} {v : Nat} : s.clearOf ⟨m, a, 4, v⟩ = none := by
  have hne : ∀ a ∈ codeAddrs, a ≠ (BLK_CLR_CLRCNT (blkOfAddr a)).addr := by decide
  simp [State.clearOf, hne a ha]

theorem exec_registerWrite {s : State} {v : Nat} (hacc : Accepted s m a) (hv : v < 2 ^ 32) :
    exec (.registerWrite ⟨m, a, 4, v⟩ none) s = done s ((s.served m).wordWrite m a v) := by
  have hc : commandOf ⟨m, a, 4, v⟩ s = none := ownWrite_none ha _ s
  show execRegisterWrite _ none s = _
  simp [execRegisterWrite, hacc.1, isBar2_low ha, hc, plainWrite_served ha hacc hv]

theorem runs_registerWrite {s : State} {v : Nat} {P : State → Prop} (hacc : Accepted s m a) (hv : v < 2 ^ 32)
    (hp : P (finish s ((s.served m).wordWrite m a v))) : Runs (.registerWrite ⟨m, a, 4, v⟩ none) s P :=
  runs_done (exec_registerWrite ha hacc hv) hp

end

/-! ### One register of each access code -/

section
variable {m : Master} {s : State} {v : Nat}

/-- PWR_WAKE_CFG, a register of RW fields. -/
theorem wordWrite_wakeCfg : s.wordWrite m 0x800C v = (s.wr PWR_WAKE_CFG_RTC (bits v 0 1)).wr PWR_WAKE_CFG_FASTWAKE (bits v 1 1) := by
  rw [wordWrite_unlocked (by decide) v (by rw [fieldsAt_wakeCfg]; rfl), fieldsAt_wakeCfg]; rfl

/-- TNS_HOLD, a register of RWA fields. -/
theorem wordWrite_hold : s.wordWrite m 0x20048 v = (s.wrBuf TNS_HOLD_HOLD_MAX (bits v 0 16)).wrBuf TNS_HOLD_RATE (bits v 16 16) := by
  rw [wordWrite_unlocked (by decide) v (by rw [fieldsAt_hold]; rfl), fieldsAt_hold]; rfl

/-- RED_CFG, a register of RWV fields. -/
theorem wordWrite_redCfg : s.wordWrite m 0xE0000 v = (s.wrBufV RED_CFG_PAIR_EN (bits v 0 1)).wrBufV RED_CFG_ROLE (bits v 4 4) := by
  rw [wordWrite_unlocked (by decide) v (by rw [fieldsAt_redCfg]; rfl), fieldsAt_redCfg]; rfl

/-- HST_CFG, a register of RWK fields, unlocked. -/
theorem wordWrite_hstCfg (hk : s.is (BLK_LOCK_LOCK 19) = false) :
    s.wordWrite m 0x100000 v = (s.wr HST_CFG_PORT (bits v 0 1)).wr HST_CFG_PINS_OFF (bits v 1 1) := by
  have hb : blkOfAddr 0x100000 = 19 := by decide
  rw [wordWrite_unlocked (by decide) v (by rw [hb, hk, Bool.and_false]), fieldsAt_hstCfg]; rfl

/-- Fields that no master writes keep what they hold. -/
theorem State.each_putField_readOnly (l : List Field) (hl : ∀ f ∈ l, f.acc = .ro ∨ f.acc = .roc) :
    s.each l (fun s f => s.putField m v f) = s := by
  induction l with
  | nil => rfl
  | cons f l ih =>
    have hf : s.putField m v f = s := by
      unfold State.putField
      rcases hl f List.mem_cons_self with h | h <;> simp [h]
    have step : s.each (f :: l) (fun s f => s.putField m v f) = (s.putField m v f).each l (fun s f => s.putField m v f) := rfl
    rw [step, hf, ih (fun g hg => hl g (List.mem_cons_of_mem _ hg))]

end

/-! ### A write narrower than a word -/

/-- The fields that an error response loads (R34). -/
def errFields : List Field := [SYS_ERR_ADDR_ADDR, SYS_ERR_INFO_MASTER, SYS_ERR_INFO_WRITE, SYS_ERR_INFO_WIDTH, SYS_ERR_INFO_KIND]

theorem State.errResp_frame (s : State) (m : Master) (w : Bool) (z a k : Nat) : Frame errFields [.fab] s (s.errResp m w z a k) := by
  have head : Frame errFields [.fab] s (if m = .host ∧ s.boot.hostPort = 1 then { s with fab := { s.fab with qspiErr := true } } else s) := by
    split
    · exact (Frame.refl _ _ s).part (q := .fab) (by simp) rfl rfl (fun p hp => by cases p <;> simp_all [Part.same])
    · exact .refl _ _ s
  exact (((((head.wr (by simp [errFields])).wr (by simp [errFields])).wr (by simp [errFields])).wr (by simp [errFields])).wr
    (by simp [errFields])).respond (by simp)

theorem State.errResp_kind (s : State) (m : Master) (w : Bool) (z a k : Nat) (hk : k < 2 ^ 4) :
    (s.errResp m w z a k).rd SYS_ERR_INFO_KIND = k := by
  have hw : SYS_ERR_INFO_KIND.width = 4 := rfl
  rw [State.errResp, State.respond_rd, State.rd_wr_self, hw, Nat.mod_eq_of_lt hk]

theorem State.errResp_write (s : State) (m : Master) (w : Bool) (z a k : Nat) :
    (s.errResp m w z a k).rd SYS_ERR_INFO_WRITE = b2n w := by
  rw [State.errResp, State.respond_rd, State.rd_wr_ne _ _ _ _ (by decide), State.rd_wr_ne _ _ _ _ (by decide), State.rd_wr_self]
  cases w <;> rfl

/-- Check 1 of R399 refuses a write narrower than a word with KIND 1. -/
theorem exec_narrowWrite {m : Master} {a v z : Nat} {s : State} (hu : s.up = true) (ha : inWindow a = true) (hz : z = 1 ∨ z = 2) :
    exec (.registerWrite ⟨m, a, z, v⟩ none) s = done s (((s.hostGate m).errResp m true z a 1).ev 0xD001 a (mNum m) z v) := by
  have hlow : ¬ 2 ^ 33 ≤ a := by
    simp only [inWindow, Bool.or_eq_true, Bool.and_eq_true, decide_eq_true_eq] at ha; omega
  have hbar : s.isBar2 m a = false := by simp only [State.isBar2, decide_eq_false hlow, Bool.and_false, Bool.false_and]
  have h4 : z ≠ 4 := by omega
  have h8 : z ≠ 8 := by omega
  have hlt : z < 4 := by omega
  have hc : commandOf ⟨m, a, z, v⟩ s = none := by simp [commandOf, h4, h8]
  have hb : busFail (s.hostGate m) m true z a = some 1 := by simp [busFail, checkA, ha, hlt]
  show execRegisterWrite _ none s = _
  simp only [execRegisterWrite, hu, hbar, hc, State.plainWrite, hb]
  rfl

theorem runs_narrowWrite {m : Master} {a v z : Nat} {s : State} (hu : s.up = true) (ha : inWindow a = true) (hz : z = 1 ∨ z = 2) :
    Runs (.registerWrite ⟨m, a, z, v⟩ none) s (fun t => t.rd SYS_ERR_INFO_KIND = 1 ∧ t.rd SYS_ERR_INFO_WRITE = 1
      ∧ Frame errFields [.fab, .gate, .log] s t) := by
  have resp := ((s.hostGate m).errResp_frame m true z a 1).mono (qs := [.fab, .gate, .log]) (fun _ h => h) (by simp)
  refine runs_done (exec_narrowWrite hu ha hz) ⟨?_, ?_, ((((Frame.refl _ _ s).hostGate (by simp)).trans resp).ev (by simp)).finish⟩
  · rw [finish_rd, State.ev_rd, State.errResp_kind _ _ _ _ _ _ (by decide)]
  · rw [finish_rd, State.ev_rd, State.errResp_write]; rfl

/-! ### Two writes in one cycle -/

/-- The checks of an access look at the domains and the phase of the start alone. -/
theorem Accepted.of_frame {fs : List Field} {ps : List Part} {s t : State} {m : Master} {a : Nat} (h : Accepted s m a)
    (hF : Frame fs ps s t) (hb : .boot ∉ ps)
    (hfs : ∀ g ∈ [PWR_STAT_ON, PWR_STAT_BUSY, SYS_BOOT_STAT_PHASE], fieldKey g ∉ fs.map fieldKey) : Accepted t m a := by
  have hboot : t.boot = s.boot := hF.2.2 .boot hb
  have hon := hF.1 _ (hfs PWR_STAT_ON (by simp))
  have hbusy := hF.1 _ (hfs PWR_STAT_BUSY (by simp))
  have hphase := hF.1 _ (hfs SYS_BOOT_STAT_PHASE (by simp))
  have hup : t.up = s.up := by simp only [State.up, hboot]
  have hdom : checkDomain t a = checkDomain s a := by simp only [checkDomain, State.on, hon, hbusy, hphase]
  have hbus : busFail t m true 4 a = busFail s m true 4 a := by simp only [busFail, hdom]
  exact ⟨hup.trans h.1, hbus.trans h.2⟩

section
variable {m : Master} {a : Nat} (ha : a ∈ codeAddrs)
include ha

/-- One of two writes of a cycle is served and its word written; nothing of it is left for the next core tick. -/
theorem cycleWrite_served {s : State} {v : Nat} (hacc : Accepted s m a) (hv : v < 2 ^ 32) :
    s.cycleWrite ⟨m, a, 4, v⟩ = ((s.served m).wordWrite m a v, []) := by
  have hne : ∀ a ∈ codeAddrs, a ≠ TNS_INC_HI_NS.addr ∧ a ≠ TNS_XFER_GO.addr ∧ a ≠ TNS_STEP_CMD_GO.addr ∧ a ≠ TNS_SNAP_GO.addr := by
    decide
  obtain ⟨h1, h2, h3, h4⟩ := hne a ha
  have htick : s.tickHalf ⟨m, a, 4, v⟩ = none := by simp [State.tickHalf, h1, h2, h3, h4]
  have hhalf : s.halfWrite ⟨m, a, 4, v⟩ = s.plainWrite ⟨m, a, 4, v⟩ := by
    have hc : commandOf ⟨m, a, 4, v⟩ s = none := ownWrite_none ha _ s
    simp only [State.halfWrite, clearOf_none ha, State.busWrite, hc]
  simp only [State.cycleWrite, htick, hhalf, plainWrite_served ha hacc hv, Option.getD_none]

end

/-- Two accepted writes of one such register in a cycle: the management core's, then the host's; the contention is counted and recorded. -/
theorem twoWrites_contend {s : State} {a v w : Nat} (ha : a ∈ codeAddrs) (hm : Accepted s .mc a) (hh : Accepted s .host a) (hv : v < 2 ^ 32)
    (hw : w < 2 ^ 32) (hkeep : Accepted ((s.served .mc).wordWrite .mc a v) .host a) :
    s.twoWrites ⟨.mc, a, 4, v⟩ ⟨.host, a, 4, w⟩ =
      ((((((s.served .mc).wordWrite .mc a v).served .host).wordWrite .host a w).cnt SYS_FAB_CONT_COUNT).ev 0xD010 a v w 0) := by
  have hc : s.contend ⟨.mc, a, 4, v⟩ ⟨.host, a, 4, w⟩ = true := by simp [State.contend, hm.2, hh.2]
  have h1 : s.clearFirst ⟨.mc, a, 4, v⟩ = s := by simp only [State.clearFirst, clearOf_none ha]
  have h2 : s.clearFirst ⟨.host, a, 4, w⟩ = s := by simp only [State.clearFirst, clearOf_none ha]
  simp only [State.twoWrites, hc, h1, h2, cycleWrite_served ha hm hv, cycleWrite_served ha hkeep hw, if_true]
  rfl

theorem exec_twoWrites {s : State} {a v w : Nat} (hu : s.up = true) :
    exec (.registerWrite ⟨.mc, a, 4, v⟩ (some ⟨.host, a, 4, w⟩)) s = done s (s.twoWrites ⟨.mc, a, 4, v⟩ ⟨.host, a, 4, w⟩) := by
  have hbar : s.isBar2 .mc a = false := by simp [State.isBar2]
  show execRegisterWrite ⟨.mc, a, 4, v⟩ (some ⟨.host, a, 4, w⟩) s = _
  simp only [execRegisterWrite, hu, hbar]
  rfl

/-- The fields of PWR_WAKE_CFG. -/
def wakeFields : List Field := [PWR_WAKE_CFG_RTC, PWR_WAKE_CFG_FASTWAKE]

section
variable {m : Master} {s : State} {v : Nat}

theorem served_wakeCfg_frame : Frame (wakeFields ++ writeCounters) [.fab, .gate] s ((s.served m).wordWrite m 0x800C v) := by
  rw [wordWrite_wakeCfg]
  exact (((s.served_frame m).mono (by simp +contextual) (fun _ h => h)).wr (by simp [wakeFields])).wr (by simp [wakeFields])

theorem wordWrite_wakeCfg_rd : (s.wordWrite m 0x800C v).rd PWR_WAKE_CFG_RTC = bit v 0
    ∧ (s.wordWrite m 0x800C v).rd PWR_WAKE_CFG_FASTWAKE = bit v 1 := by
  rw [wordWrite_wakeCfg, State.rd_wr_ne _ _ _ _ (by decide), State.rd_wr_self, State.rd_wr_self]
  exact ⟨bits_mod v 0 1, bits_mod v 1 1⟩

end

/-- Of two writes of PWR_WAKE_CFG in a cycle the host's stands. -/
theorem runs_contendedWrite {v w : Nat} {s : State} (hm : Accepted s .mc 0x800C) (hh : Accepted s .host 0x800C) (hv : v < 2 ^ 32)
    (hw : w < 2 ^ 32) (hl : Listens s) :
    Runs (.registerWrite ⟨.mc, 0x800C, 4, v⟩ (some ⟨.host, 0x800C, 4, w⟩)) s (fun t => t.rd PWR_WAKE_CFG_RTC = bit w 0
      ∧ t.rd PWR_WAKE_CFG_FASTWAKE = bit w 1 ∧ t.rd SYS_FAB_CONT_COUNT = (s.cnt SYS_FAB_CONT_COUNT).rd SYS_FAB_CONT_COUNT
      ∧ Tells s t 0xD010 0x800C v w 0
      ∧ Frame (PWR_WAKE_CFG_RTC :: PWR_WAKE_CFG_FASTWAKE :: SYS_FAB_CONT_COUNT :: writeCounters) [.fab, .gate, .log] s t) := by
  have first := served_wakeCfg_frame (m := .mc) (s := s) (v := v)
  have keep : Accepted ((s.served .mc).wordWrite .mc 0x800C v) .host 0x800C := hh.of_frame first (by simp) (by decide)
  have both := first.trans (served_wakeCfg_frame (m := .host) (v := w))
  obtain ⟨hrtc, hfast⟩ := wordWrite_wakeCfg_rd (m := .host) (s := ((s.served .mc).wordWrite .mc 0x800C v).served .host) (v := w)
  refine runs_done ((exec_twoWrites hm.1).trans (congrArg (done s) (twoWrites_contend (by decide) hm hh hv hw keep))) ?_
  generalize (((s.served .mc).wordWrite .mc 0x800C v).served .host).wordWrite .host 0x800C w = u at *
  have hlog : (u.cnt SYS_FAB_CONT_COUNT).log = s.log := both.2.2 .log (by simp)
  have hcount : u.rd SYS_FAB_CONT_COUNT = s.rd SYS_FAB_CONT_COUNT := both.1 _ (by decide)
  have frame : Frame (PWR_WAKE_CFG_RTC :: PWR_WAKE_CFG_FASTWAKE :: SYS_FAB_CONT_COUNT :: writeCounters) [.fab, .gate, .log] s
      (u.cnt SYS_FAB_CONT_COUNT) := (both.mono (by simp +contextual [wakeFields]) (by simp)).wr (by simp)
  refine ⟨?_, ?_, ?_, tells_finish (tells_of_log s _ _ _ _ _ _ _ hlog rfl hl), (frame.ev (by simp)).finish⟩
  · rw [finish_rd, State.ev_rd, State.cnt, State.cntN, State.rd_wr_ne _ _ _ _ (by decide), hrtc]
  · rw [finish_rd, State.ev_rd, State.cnt, State.cntN, State.rd_wr_ne _ _ _ _ (by decide), hfast]
  · rw [finish_rd, State.ev_rd, State.rd_cnt, State.rd_cnt, hcount]

/-! ### The access codes -/

section
variable {m : Master} {s : State} {v : Nat}

/-- RW. -/
theorem runs_writeRw (hacc : Accepted s m 0x800C) (hv : v < 2 ^ 32) :
    Runs (.registerWrite ⟨m, 0x800C, 4, v⟩ none) s (fun t => t.rd PWR_WAKE_CFG_RTC = bit v 0 ∧ t.rd PWR_WAKE_CFG_FASTWAKE = bit v 1
      ∧ Frame (PWR_WAKE_CFG_RTC :: PWR_WAKE_CFG_FASTWAKE :: writeCounters) [.fab, .gate] s t) := by
  obtain ⟨hrtc, hfast⟩ := wordWrite_wakeCfg_rd (m := m) (s := s.served m) (v := v)
  exact runs_registerWrite (by decide) hacc hv ⟨hrtc, hfast, served_wakeCfg_frame.finish⟩

/-- RWA. -/
theorem runs_writeRwa (hacc : Accepted s m 0x20048) (hv : v < 2 ^ 32) :
    Runs (.registerWrite ⟨m, 0x20048, 4, v⟩ none) s (fun t => t.rdBuf TNS_HOLD_HOLD_MAX = bits v 0 16
      ∧ t.rdBuf TNS_HOLD_RATE = bits v 16 16 ∧ Frame writeCounters [.bufs, .fab, .gate] s t) := by
  have frame := (s.served_frame m).mono (qs := [.bufs, .fab, .gate]) (fun _ h => h) (by simp)
  refine runs_registerWrite (by decide) hacc hv ⟨?_, ?_, Frame.finish ?_⟩ <;> rw [wordWrite_hold]
  · rw [finish_rdBuf, State.rdBuf_wrBuf, if_neg (by decide), State.rdBuf_wrBuf_self]
    exact bits_mod v 0 16
  · rw [finish_rdBuf, State.rdBuf_wrBuf_self]
    exact bits_mod v 16 16
  · exact (frame.wrBuf (by simp)).wrBuf (by simp)

theorem State.rdBuf_wrBuf_ne {f g : Field} (h : fieldKey f ≠ fieldKey g) : (s.wrBuf f v).rdBuf g = s.rdBuf g := by
  rw [State.rdBuf_wrBuf, if_neg h]

theorem copyOf_addr (k : Nat) (f : Field) : (copyOf k f).addr = f.addr + 2 ^ 44 * (k + 1) := rfl

/-- A copy differs in its address alone (stated over any address: the copies' offsets are numerals that a check by unfolding would count out). -/
theorem Field.withAddr (f : Field) (a : Nat) : ({ f with addr := a } : Field).lo = f.lo ∧ ({ f with addr := a } : Field).width = f.width :=
  ⟨rfl, rfl⟩

theorem copyOf_lo (k : Nat) (f : Field) : (copyOf k f).lo = f.lo := (Field.withAddr f _).1
theorem copyOf_width (k : Nat) (f : Field) : (copyOf k f).width = f.width := (Field.withAddr f _).2

/-- The copies of a voted field are apart. -/
theorem fieldKey_copyOf_ne (f : Field) {i j : Nat} (h : i ≠ j) : fieldKey (copyOf i f) ≠ fieldKey (copyOf j f) := by
  have stride : 0 < 2 ^ 44 := by decide
  rw [fieldKey, fieldKey, copyOf_addr, copyOf_addr, copyOf_lo, copyOf_lo]
  generalize 2 ^ 44 = n at *
  intro e
  have hn : n * (i + 1) = n * (j + 1) := by omega
  exact h (Nat.succ.inj (Nat.eq_of_mul_eq_mul_left stride hn))

/-- The three buffered copies of a voted field take what is written. -/
theorem State.rdBuf_wrBufV (f : Field) {k : Nat} (hk : k < 3) : (s.wrBufV f v).rdBuf (copyOf k f) = v % 2 ^ f.width := by
  have ne : ∀ i j, i ≠ j → fieldKey (copyOf i f) ≠ fieldKey (copyOf j f) := fun _ _ h => fieldKey_copyOf_ne f h
  have hcases : k = 0 ∨ k = 1 ∨ k = 2 := by omega
  unfold State.wrBufV
  rcases hcases with rfl | rfl | rfl
  · rw [State.rdBuf_wrBuf_ne (ne 2 0 (by decide)), State.rdBuf_wrBuf_ne (ne 1 0 (by decide)), State.rdBuf_wrBuf_self, copyOf_width]
  · rw [State.rdBuf_wrBuf_ne (ne 2 1 (by decide)), State.rdBuf_wrBuf_self, copyOf_width]
  · rw [State.rdBuf_wrBuf_self, copyOf_width]

/-- They leave the buffers of other fields. -/
theorem State.rdBuf_wrBufV_ne {f g : Field} (h : ∀ i, fieldKey (copyOf i f) ≠ fieldKey g) : (s.wrBufV f v).rdBuf g = s.rdBuf g := by
  rw [State.wrBufV, State.rdBuf_wrBuf_ne (h 2), State.rdBuf_wrBuf_ne (h 1), State.rdBuf_wrBuf_ne (h 0)]

/-- RWV. -/
theorem runs_writeRwv (hacc : Accepted s m 0xE0000) (hv : v < 2 ^ 32) :
    Runs (.registerWrite ⟨m, 0xE0000, 4, v⟩ none) s (fun t => (∀ k, k < 3 → t.rdBuf (copyOf k RED_CFG_ROLE) = bits v 4 4)
      ∧ (∀ k, k < 3 → t.rdBuf (copyOf k RED_CFG_PAIR_EN) = bit v 0) ∧ Frame writeCounters [.bufs, .fab, .gate] s t) := by
  have frame := (s.served_frame m).mono (qs := [.bufs, .fab, .gate]) (fun _ h => h) (by simp)
  have apart : ∀ i k, fieldKey (copyOf i RED_CFG_ROLE) ≠ fieldKey (copyOf k RED_CFG_PAIR_EN) := fun i k => by
    simp only [fieldKey, copyOf, RED_CFG_ROLE, RED_CFG_PAIR_EN]; omega
  refine runs_registerWrite (by decide) hacc hv ⟨fun k hk => ?_, fun k hk => ?_, Frame.finish ?_⟩ <;> rw [wordWrite_redCfg]
  · rw [finish_rdBuf, State.rdBuf_wrBufV _ hk]
    exact bits_mod v 4 4
  · rw [finish_rdBuf, State.rdBuf_wrBufV_ne (fun i => apart i k), State.rdBuf_wrBufV _ hk]
    exact bits_mod v 0 1
  · exact (frame.wrBufV (by simp)).wrBufV (by simp)

/-- RO and ROC. -/
theorem runs_writeReadOnly {a : Nat} (ha : a = 0x64 ∨ a = CLK_MON_TRIPS_TRIPS.addr) (hacc : Accepted s m a) (hv : v < 2 ^ 32) :
    Runs (.registerWrite ⟨m, a, 4, v⟩ none) s (fun t => Frame writeCounters [.fab, .gate] s t) := by
  have hmem : a ∈ codeAddrs := by rcases ha with rfl | rfl <;> decide
  have hro : ∀ f ∈ fieldsAt a, f.acc = .ro ∨ f.acc = .roc := by rcases ha with rfl | rfl <;> decide
  have hrwk : (fieldsAt a).any (fun f => f.acc == .rwk) = false := by rcases ha with rfl | rfl <;> decide
  refine runs_registerWrite hmem hacc hv (Frame.finish ?_)
  rw [wordWrite_unlocked hmem v (by rw [hrwk, Bool.false_and]), State.each_putField_readOnly _ hro]
  exact s.served_frame m

/-- Serving a write changes no lock bit. -/
theorem served_lock : (s.served m).is (BLK_LOCK_LOCK 19) = s.is (BLK_LOCK_LOCK 19) := by
  rw [State.is, State.is, s.served_rd m (by decide)]

/-- RWK, unlocked. -/
theorem runs_writeRwk (hacc : Accepted s m 0x100000) (hv : v < 2 ^ 32) (hk : s.is (BLK_LOCK_LOCK 19) = false) :
    Runs (.registerWrite ⟨m, 0x100000, 4, v⟩ none) s (fun t => t.rd HST_CFG_PORT = bit v 0 ∧ t.rd HST_CFG_PINS_OFF = bit v 1
      ∧ Frame (HST_CFG_PORT :: HST_CFG_PINS_OFF :: writeCounters) [.fab, .gate] s t) := by
  have frame := (s.served_frame m).mono (gs := HST_CFG_PORT :: HST_CFG_PINS_OFF :: writeCounters) (by simp +contextual) (fun _ h => h)
  refine runs_registerWrite (by decide) hacc hv ⟨?_, ?_, Frame.finish ?_⟩ <;> rw [wordWrite_hstCfg (served_lock.trans hk)]
  · rw [finish_rd, State.rd_wr_ne _ _ _ _ (by decide), State.rd_wr_self]
    exact bits_mod v 0 1
  · rw [finish_rd, State.rd_wr_self]
    exact bits_mod v 1 1
  · exact (frame.wr (by simp)).wr (by simp)

/-- RWK under the lock. -/
theorem runs_writeLocked (hacc : Accepted s m 0x100000) (hv : v < 2 ^ 32) (hk : s.is (BLK_LOCK_LOCK 19) = true) (hl : Listens s) :
    Runs (.registerWrite ⟨m, 0x100000, 4, v⟩ none) s (fun t => Tells s t 0xD011 0x100000 v (mNum m) 1
      ∧ Frame writeCounters [.fab, .gate, .log] s t) := by
  have hb : blkOfAddr 0x100000 = 19 := by decide
  have frame := (s.served_frame m).mono (qs := [.fab, .gate, .log]) (fun _ h => h) (by simp)
  refine runs_registerWrite (by decide) hacc hv ?_
  rw [wordWrite_locked (by decide) v (by rw [hb, served_lock, hk, fieldsAt_hstCfg]; rfl)]
  exact ⟨tells_finish (tells_of_log s _ _ _ _ _ _ _ (s.served_log m) rfl hl), (frame.ev (by simp)).finish⟩

end

/-- Settles O14: the word of an accepted write goes field by field into what the access code names, on the state that has served the
write. -/
theorem registerWriteByAccessCode : Obligations.RegisterWriteByAccessCode :=
  ⟨fun _ _ _ h hv => runs_writeRw h hv, fun _ _ _ h hv => runs_writeRwa h hv, fun _ _ _ h hv => runs_writeRwv h hv,
    fun _ _ _ _ ha h hv => runs_writeReadOnly ha h hv, fun _ _ _ h hv hk => runs_writeRwk h hv hk,
    fun _ _ _ h hv hk hl => runs_writeLocked h hv hk hl, fun _ _ _ hm hh hv hw hl => runs_contendedWrite hm hh hv hw hl,
    fun _ _ _ _ _ hu ha hz => runs_narrowWrite hu ha hz⟩

end Sys2Proof.Machine
end

section
/-! PROOF. Steps 3 to 6 of the start sequence (R48, R49, R67, R82): each passes its time, and sets its fields and the stage. -/

namespace Sys2Proof.Machine

/-! ### What a step of the start sequence may change -/

section
variable {fs : List Field} {ps : List Part} {s t : State}

theorem Frame.dark {d : Nat} (ht : .time ∈ ps) (h : Frame fs ps s t) : Frame fs ps s (t.dark d) :=
  h.part ht (by simp) (by simp) (fun p hp => by cases p <;> simp_all [Part.same])

theorem Frame.waitUntil {x : Nat} (ht : .time ∈ ps) (h : Frame fs ps s t) : Frame fs ps s (t.waitUntil x) := by
  rw [State.waitUntil_eq]
  split
  · exact h
  · exact h.ticks ht

/-- A cause written to the last-gasp file changes the recorder alone. -/
theorem State.lgCause_eq (t : State) (c p q r u : Nat) : ∃ l, t.lgCause c p q r u = { t with log := l } := ⟨_, rfl⟩

theorem Frame.lgCause {c p q r u : Nat} (hl : .log ∈ ps) (h : Frame fs ps s t) : Frame fs ps s (t.lgCause c p q r u) := by
  obtain ⟨l, e⟩ := t.lgCause_eq c p q r u
  rw [e]
  exact h.part hl rfl rfl (fun k hk => by cases k <;> simp_all [Part.same])

theorem Frame.setBoot {b : Boot} (hb : .boot ∈ ps) (h : Frame fs ps s t) : Frame fs ps s { t with boot := b } :=
  h.trans ((Frame.boot t b).mono (by simp) (by simpa using hb))

end

/-- A step of the start sequence ends with the boot state: registers and times are as its effects before have left them. -/
theorem runs_thenBoot {c : Instr} {fs : List Field} {s u : State} {b : Boot} {ps : List Part} {P : State → Prop}
    (h : exec c s = done s { u with boot := b }) (hu : Frame fs ps s u) (hb : .boot ∈ ps)
    (hp : ∀ t : State, t.boot = b → (∀ g, t.rd g = u.rd g) → t.mono = u.mono → t.tai = u.tai → Frame fs ps s t → P t) : Runs c s P :=
  runs_done h (hp _ rfl (fun _ => rfl) rfl rfl (hu.setBoot hb).finish)

/-- Time that passes without a clock in PD1 is within the frame of a step that sets no field. -/
theorem State.dark_frame (s : State) (d : Nat) : Frame [] [.time, .boot] s (s.dark d) := (Frame.refl _ _ s).dark (by simp)

/-! ### Step 3: the IRC -/

section
variable {s : State}

theorem exec_ircStable_start {us : Nat} (hst : s.boot.stage = .ircStart) (hus : us ≤ 200) : exec (.ircStable us) s
    = done s { (s.dark (us * 1000 * nsU)).wr CLK_STAT_IRC_STABLE 1 with boot := { s.boot with stage := .strap } } :=
  congrArg (done s) (by simp only [hst, if_neg (Nat.not_lt.mpr hus), State.wr_boot, State.dark_boot])

theorem runs_ircStable_start {us : Nat} (hst : s.boot.stage = .ircStart) (hus : us ≤ 200) :
    Runs (.ircStable us) s (fun t => t.boot.stage = .strap ∧ t.rd CLK_STAT_IRC_STABLE = 1 ∧ t.mono = s.mono + us * 1000 * nsU
      ∧ t.tai = s.tai ∧ Frame [CLK_STAT_IRC_STABLE] [.time, .boot] s t) :=
  runs_thenBoot (exec_ircStable_start hst hus) (((Frame.refl _ _ s).dark (by simp)).wr (by simp)) (by simp)
    (fun _ hb hr hm ht hF => ⟨by rw [hb], by rw [hr, State.rd_wr_self]; rfl, by rw [hm, State.wr_mono, State.dark_mono],
      by rw [ht, State.wr_tai, State.dark_tai], hF⟩)

theorem runs_ircStartTimeout (hst : s.boot.stage = .ircStart) : Runs .ircStartTimeout s (fun t => t.boot.stage = .ircHold
    ∧ t.mono = s.mono + 200000 * nsU ∧ t.tai = s.tai ∧ Frame [] [.time, .boot, .log] s t) :=
  runs_thenBoot (congrArg (done s) (if_neg (not_not_intro hst))) (((Frame.refl _ _ s).dark (by simp)).lgCause (by simp)) (by simp)
    (fun _ hb _ hm ht hF => ⟨by rw [hb], by rw [hm, State.lgCause_mono, State.dark_mono], ht, hF⟩)

theorem runs_ircRestart (hst : s.boot.stage = .ircHold) : Runs .ircRestart s (fun t => t.boot.stage = .ircStart
    ∧ t.mono = s.mono + 10000000 * nsU ∧ t.tai = s.tai ∧ Frame [] [.time, .boot] s t) :=
  runs_thenBoot (congrArg (done s) (if_neg (not_not_intro hst))) (s.dark_frame _) (by simp)
    (fun _ hb _ hm ht hF => ⟨by rw [hb], by rw [hm, State.dark_mono], by rw [ht, State.dark_tai], hF⟩)

end

/-! ### Step 4: the straps -/

/-- The fields of SYS_STRAP. -/
def strapFields : List Field := [SYS_STRAP_XDLY, SYS_STRAP_BOOT_MODE, SYS_STRAP_PAIR_POS]

/-- The sampled straps are in SYS_STRAP (R48). -/
def State.setStraps (s : State) (x m p : Nat) : State :=
  ((s.wr SYS_STRAP_XDLY x).wr SYS_STRAP_BOOT_MODE m).wr SYS_STRAP_PAIR_POS p

section
variable {s : State} {x m p : Nat}

/-- What was sampled reads back whole, wherever it fits the fields. -/
theorem State.setStraps_rd (hx : x < 8) (hm : m < 4) (hp : p < 2) : (s.setStraps x m p).rd SYS_STRAP_XDLY = x
    ∧ (s.setStraps x m p).rd SYS_STRAP_BOOT_MODE = m ∧ (s.setStraps x m p).rd SYS_STRAP_PAIR_POS = p := by
  refine ⟨?_, ?_, ?_⟩ <;> unfold State.setStraps
  · rw [State.rd_wr_ne _ _ _ _ (by decide), State.rd_wr_ne _ _ _ _ (by decide), State.rd_wr_self]
    exact Nat.mod_eq_of_lt hx
  · rw [State.rd_wr_ne _ _ _ _ (by decide), State.rd_wr_self]
    exact Nat.mod_eq_of_lt hm
  · rw [State.rd_wr_self]
    exact Nat.mod_eq_of_lt hp

/-- The straps do not depend on the boot state. -/
theorem State.setStraps_setBoot (s : State) (b : Boot) :
    ({ s with boot := b } : State).setStraps x m p = { s.setStraps x m p with boot := b } := rfl

theorem State.setStraps_mono : (s.setStraps x m p).mono = s.mono := by simp only [State.setStraps, State.wr_mono]

theorem Frame.setStraps {ps : List Part} {t : State} (h : Frame strapFields ps s t) : Frame strapFields ps s (t.setStraps x m p) :=
  ((h.wr (by simp [strapFields])).wr (by simp [strapFields])).wr (by simp [strapFields])

theorem exec_strapSample_inStep (hst : s.boot.stage = .strap) (hn : s.boot.strapped = false) (hf : s.fastWake = false) :
    exec (.strapSample x m p) s
      = done s { (s.dark (320 * nsU)).setStraps x m p with boot := { s.boot with strapped := true, stage := .refDelay } } :=
  congrArg (done s) ((if_neg (by simp [hst, hn])).trans (by simp only [hf, Bool.false_and, Bool.false_eq_true, if_false]; rfl))

theorem runs_strapSample_inStep (hst : s.boot.stage = .strap) (hn : s.boot.strapped = false) (hf : s.fastWake = false) (hx : x < 8)
    (hm : m < 4) (hp : p < 2) : Runs (.strapSample x m p) s (fun t => t.boot.stage = .refDelay ∧ t.rd SYS_STRAP_XDLY = x
      ∧ t.rd SYS_STRAP_BOOT_MODE = m ∧ t.rd SYS_STRAP_PAIR_POS = p ∧ t.mono = s.mono + 320 * nsU
      ∧ Frame strapFields [.time, .boot] s t) := by
  obtain ⟨rx, rm, rp⟩ := State.setStraps_rd (s := s.dark (320 * nsU)) hx hm hp
  exact runs_thenBoot (exec_strapSample_inStep hst hn hf) ((Frame.refl _ _ s).dark (by simp)).setStraps (by simp)
    (fun _ hb hr hm _ hF => ⟨by rw [hb], by rw [hr, rx], by rw [hr, rm], by rw [hr, rp],
      by rw [hm, State.setStraps_mono, State.dark_mono], hF⟩)

/-- After a fast wake the clocks of PD1 may run by then (log 47), so that the wait of 16 IRC cycles ends at a core tick. -/
theorem exec_strapSample_late (hst : s.boot.stage = .pll ∨ s.boot.stage = .run) (hn : s.boot.strapped = false)
    (hf : s.fastWake = true) (hi : s.is CLK_STAT_IRC_STABLE = true) : exec (.strapSample x m p) s
      = done s (({ s.waitUntil (s.mono + 320 * nsU) with boot := { s.boot with strapped := true } } : State).setStraps x m p) := by
  have late : (s.fastWake && (s.boot.stage == .pll || s.boot.stage == .run) && s.is CLK_STAT_IRC_STABLE) = true := by
    simpa [hf, hi] using hst
  show execStrapSample x m p s = _
  simp only [execStrapSample, State.setStraps, late, hn, if_true, if_false, Bool.false_eq_true, Bool.not_true, and_false, or_self,
    State.waitUntil_boot]

theorem runs_strapSample_late (hst : s.boot.stage = .pll ∨ s.boot.stage = .run) (hn : s.boot.strapped = false)
    (hf : s.fastWake = true) (hi : s.is CLK_STAT_IRC_STABLE = true) (hx : x < 8) (hm : m < 4) (hp : p < 2) :
    Runs (.strapSample x m p) s (fun t => t.boot = { s.boot with strapped := true } ∧ t.rd SYS_STRAP_XDLY = x
      ∧ t.rd SYS_STRAP_BOOT_MODE = m ∧ t.rd SYS_STRAP_PAIR_POS = p ∧ s.mono + 320 * nsU ≤ t.mono
      ∧ Frame strapFields [.time, .boot] s t) := by
  obtain ⟨rx, rm, rp⟩ := State.setStraps_rd (s := s.waitUntil (s.mono + 320 * nsU)) hx hm hp
  exact runs_thenBoot ((exec_strapSample_late hst hn hf hi).trans (congrArg (done s) (State.setStraps_setBoot _ _)))
    ((Frame.refl _ _ s).waitUntil (by simp)).setStraps (by simp)
    (fun _ hb hr hm _ hF => ⟨hb, by rw [hr, rx], by rw [hr, rm], by rw [hr, rp],
      by rw [hm, State.setStraps_mono]; exact s.waitUntil_reaches _, hF⟩)

end

/-! ### Step 5: the start delay -/

section
variable {s : State}

theorem exec_refStartDelayEnd (hst : s.boot.stage = .refDelay) (hf : s.fastWake = false) : exec .refStartDelayEnd s
    = done s { s.dark s.xdly with boot := { s.boot with stage := .window, windowAt := s.mono + s.xdly } } :=
  congrArg (done s) (by simp [hst, hf])

theorem runs_refStartDelayEnd (hst : s.boot.stage = .refDelay) (hf : s.fastWake = false) :
    Runs .refStartDelayEnd s (fun t => t.boot.stage = .window ∧ t.mono = s.mono + 12500 * 2 ^ s.rd SYS_STRAP_XDLY * 20 * nsU
      ∧ Frame [] [.time, .boot] s t) :=
  runs_thenBoot (exec_refStartDelayEnd hst hf) (s.dark_frame _) (by simp)
    (fun _ hb _ hm _ hF => ⟨by rw [hb], by rw [hm, State.dark_mono, State.xdly], hF⟩)

/-- What is left now of the start delay that a fast wake counts from the release (R82). -/
def State.fastDelayLeft (s : State) : Nat := s.boot.releaseAt + up32k s.xdly - s.mono

/-- The boot state after the start delay of a fast wake: the window where the straps are sampled, else the PLL. -/
def State.fastDelayBoot (s : State) : Boot :=
  if s.boot.stage = .refDelay then { s.boot with stage := .window, windowAt := s.mono + s.fastDelayLeft }
  else { s.boot with stage := .pll }

theorem exec_refStartDelayEnd_fast (hst : s.boot.stage = .ircStart ∨ s.boot.stage = .strap ∨ s.boot.stage = .refDelay)
    (hf : s.fastWake = true) : exec .refStartDelayEnd s = done s { s.dark s.fastDelayLeft with boot := s.fastDelayBoot } :=
  congrArg (done s) (by rcases hst with hst | hst | hst <;> simp [hst, hf, State.fastDelayBoot] <;> rfl)

theorem State.fastDelayBoot_stage : s.fastDelayBoot.stage = if s.boot.stage = .refDelay then .window else .pll := by
  unfold State.fastDelayBoot
  split <;> rfl

theorem runs_refStartDelayEnd_fast (hst : s.boot.stage = .ircStart ∨ s.boot.stage = .strap ∨ s.boot.stage = .refDelay)
    (hf : s.fastWake = true) : Runs .refStartDelayEnd s (fun t => t.boot.stage = (if s.boot.stage = .refDelay then .window else .pll)
      ∧ t.mono = max s.mono (s.boot.releaseAt + up32k (12500 * 2 ^ s.rd SYS_STRAP_XDLY * 20 * nsU)) ∧ Frame [] [.time, .boot] s t) :=
  runs_thenBoot (exec_refStartDelayEnd_fast hst hf) (s.dark_frame _) (by simp)
    (fun _ hb _ hm _ hF => ⟨by rw [hb, State.fastDelayBoot_stage],
      by rw [hm, State.dark_mono, State.fastDelayLeft, State.xdly, Nat.add_comm s.mono, Nat.sub_add_eq_max,
        Nat.max_comm], hF⟩)

end

/-! ### Step 6: the first window, and the crystal -/

section
variable {n : Nat} {s : State}

theorem exec_monitorWindowEnd_good (hst : s.boot.stage = .window) (hn : s.boot.tripped = false) (hlo : 497 < n) (hhi : n < 503) :
    exec (.monitorWindowEnd n) s = done s { (s.dark (10000 * nsU)).wr CLK_MON_CNT_COUNT n with
      boot := { s.boot with stage := .pll, windowAt := s.mono + 10000 * nsU, windowIdx := 1, windows := 1 } } := by
  have near : ¬ 3 ≤ ((n : Int) - 500).natAbs := by omega
  exact congrArg (done s) (by simp [hst, hn, near])

theorem runs_monitorWindowEnd_good (hst : s.boot.stage = .window) (hn : s.boot.tripped = false) (hlo : 497 < n) (hhi : n < 503) :
    Runs (.monitorWindowEnd n) s (fun t => t.boot.stage = .pll ∧ t.rd CLK_MON_CNT_COUNT = n ∧ t.mono = s.mono + 10000 * nsU
      ∧ Frame [CLK_MON_CNT_COUNT] [.time, .boot] s t) := by
  have fits : n % 2 ^ CLK_MON_CNT_COUNT.width = n := Nat.mod_eq_of_lt (Nat.lt_trans hhi (by decide))
  exact runs_thenBoot (exec_monitorWindowEnd_good hst hn hlo hhi) (((Frame.refl _ _ s).dark (by simp)).wr (by simp)) (by simp)
    (fun _ hb hr hm _ hF => ⟨by rw [hb], by rw [hr, State.rd_wr_self, fits], by rw [hm, State.wr_mono, State.dark_mono], hF⟩)

theorem runs_xtal32Valid (s : State) : Runs .xtal32Valid s (fun t => t.boot.xtalOk = true ∧ Frame [] [.boot] s t) :=
  runs_done rfl ⟨rfl, (Frame.boot s _).finish⟩

end

/-- Settles O8: each step's effect is its time, then its fields, then the boot state, so that its frame is composed of theirs. -/
theorem startSequenceSteps : Obligations.StartSequenceSteps :=
  ⟨fun _ _ h hus => runs_ircStable_start h hus, fun _ h => runs_ircStartTimeout h, fun _ h => runs_ircRestart h,
    fun _ _ _ _ h hn hf hx hm hp => runs_strapSample_inStep h hn hf hx hm hp,
    fun _ _ _ _ h hn hf hi hx hm hp => runs_strapSample_late h hn hf hi hx hm hp,
    fun _ h hf => runs_refStartDelayEnd h hf, fun _ h hf => runs_refStartDelayEnd_fast h hf,
    fun _ _ h hn hlo hhi => runs_monitorWindowEnd_good h hn hlo hhi, runs_xtal32Valid⟩

end Sys2Proof.Machine
end

section
/-! PROOF. The ports (R110): what is read of a port after a write of one, the registers that every port has, and the frames of the
small operations on ports. -/

namespace Sys2Proof.Machine

/-! ### What a port holds -/

theorem nth_setNth {α : Type} (l : List α) (i j : Nat) (v d : α) :
    nth (setNth l i v) j d = if i = j ∧ i < l.length then v else nth l j d := by
  induction l generalizing i j with
  | nil => simp [setNth, nth]
  | cons x xs ih => cases i <;> cases j <;> simp [setNth, nth, ih]

theorem length_setNth {α : Type} (l : List α) (i : Nat) (v : α) : (setNth l i v).length = l.length := by
  induction l generalizing i with
  | nil => rfl
  | cons x xs ih => cases i <;> simp [setNth, ih]

theorem nth_of_length_le {α : Type} (l : List α) (i : Nat) (d : α) (h : l.length ≤ i) : nth l i d = d := by
  induction l generalizing i with
  | nil => rfl
  | cons x xs ih =>
    cases i with
    | zero => simp at h
    | succ i => exact ih i (by simpa using h)

section
variable (s : State) (n k : Nat) (p : Port)

@[simp] theorem State.setPort_rd (f : Field) : (s.setPort n p).rd f = s.rd f := (rfl)
@[simp] theorem State.setPort_mono : (s.setPort n p).mono = s.mono := (rfl)

theorem State.port_setPort : (s.setPort n p).port k = if n = k ∧ n < s.ports.length then p else s.port k :=
  nth_setNth s.ports n k p port0

variable {n p}

theorem State.port_setPort_self (h : n < s.ports.length) : (s.setPort n p).port n = p := by simp [State.port_setPort, h]

/-- A port past the end of the list reads as `port0`; so what a write leaves as `port0` has it is read back from every port. -/
theorem State.port_setPort_blank {α : Type} (π : Port → α) (h : π p = π port0) : π ((s.setPort n p).port n) = π p := by
  by_cases hn : n < s.ports.length
  · rw [s.port_setPort_self hn]
  · have hout : s.port n = port0 := nth_of_length_le s.ports n port0 (Nat.le_of_not_lt hn)
    simp [State.port_setPort, hn, hout, h]

/-- What a write of a port leaves as it was is as it was at every port. -/
theorem State.port_setPort_keep {α : Type} (π : Port → α) (h : π p = π (s.port n)) : π ((s.setPort n p).port k) = π (s.port k) := by
  rw [State.port_setPort]
  split
  · rename_i hk
    rw [h, hk.1]
  · rfl

/-- A port with a frame to send is one of the list. -/
theorem State.port_lt_of_tx {f : TxFrame} {r : List TxFrame} {s : State} (h : (s.port n).tx = f :: r) : n < s.ports.length := by
  refine Nat.lt_of_not_le fun hn => ?_
  have hout : s.port n = port0 := nth_of_length_le s.ports n port0 hn
  rw [hout] at h
  cases h

end

section
variable (s : State) (n : Nat)

@[simp] theorem State.wr_port (f : Field) (v : Nat) : (s.wr f v).port n = s.port n := (rfl)
@[simp] theorem State.ev_port (c p q r u : Nat) : (s.ev c p q r u).port n = s.port n := (rfl)
@[simp] theorem State.finish_port (t : State) : (finish s t).port n = t.port n := (rfl)
@[simp] theorem State.waitUntil_port (x : Nat) : (s.waitUntil x).port n = s.port n := by simp [State.port]
@[simp] theorem State.health_port : s.health.port n = s.port n := by simp [State.port]
@[simp] theorem State.served_port (m : Master) : (s.served m).port n = s.port n := by simp [State.port, State.served]

end

/-! ### The registers that every port has -/

/-- A register field of every port: the words of port `n` lie 0x200 bytes for each port above those of port 0. -/
def PortField (F : Nat → Field) : Prop := ∀ n, (F n).addr = (F 0).addr + 0x200 * n ∧ (F n).lo = (F 0).lo

theorem PortField.key {F : Nat → Field} (h : PortField F) (n : Nat) : fieldKey (F n) = fieldKey (F 0) + 0x4000 * n := by
  obtain ⟨ha, hl⟩ := h n
  simp only [fieldKey, ha, hl]
  omega

/-- Two fields of one port are two fields wherever they are two at port 0. -/
theorem portKey_ne (F G : Nat → Field) (n : Nat) (h : fieldKey (F 0) ≠ fieldKey (G 0) := by decide)
    (hF : PortField F := by exact fun _ => ⟨rfl, rfl⟩) (hG : PortField G := by exact fun _ => ⟨rfl, rfl⟩) :
    fieldKey (F n) ≠ fieldKey (G n) := by
  rw [hF.key, hG.key]
  omega

/-- A field of a port is none of some others of it wherever it is none of them at port 0. -/
theorem portKey_notMem (F : Nat → Field) (Gs : List (Nat → Field)) (n : Nat)
    (h : fieldKey (F 0) ∉ Gs.map (fun G => fieldKey (G 0)) := by decide) (hF : PortField F := by exact fun _ => ⟨rfl, rfl⟩)
    (hG : ∀ n, Gs.map (fun G => ((G n).addr, (G n).lo)) = Gs.map (fun G => ((G 0).addr + 0x200 * n, (G 0).lo)) := by exact fun _ => rfl) :
    fieldKey (F n) ∉ (Gs.map (fun G => G n)).map fieldKey := by
  have each : ∀ G ∈ Gs, PortField G := fun G hm n => by simpa using List.map_inj_left.mp (hG n) G hm
  intro hm
  simp only [List.map_map, List.mem_map, Function.comp_apply] at hm
  obtain ⟨G, hG, e⟩ := hm
  rw [(each G hG).key, hF.key] at e
  exact h (List.mem_map.mpr ⟨G, hG, by omega⟩)

/-- A field of a port is none of the listed fields, where the six ports show it. -/
theorem portKey_notMem_fixed (F : Nat → Field) (l : List Field) {n : Nat} (hn : n < 6)
    (h : ∀ k < 6, fieldKey (F k) ∉ l.map fieldKey := by decide) : fieldKey (F n) ∉ l.map fieldKey := h n hn

theorem State.portUp_lt {s : State} {n : Nat} (h : s.portUp n = true) : n < 6 := by
  simp only [State.portUp, Bool.and_eq_true, decide_eq_true_eq] at h
  exact h.1.1

/-! ### Counters -/

/-- A counter counts from what it holds, whatever else differs. -/
theorem State.cntN_rd_congr {s t : State} {f : Field} (n : Nat) (h : t.rd f = s.rd f) : (t.cntN f n).rd f = (s.cntN f n).rd f := by
  simp [State.rd_cntN, h]

theorem State.cnt_rd_congr {s t : State} {f : Field} (h : t.rd f = s.rd f) : (t.cnt f).rd f = (s.cnt f).rd f := State.cntN_rd_congr 1 h

/-- A pair of 32-bit counters counts as one of 64 bits. -/
theorem State.cntPair_rd (s : State) {lo hi : Field} (n : Nat) (hne : fieldKey lo ≠ fieldKey hi) (hl : lo.width = 32) (hh : hi.width = 32) :
    (s.cntPair lo hi n).rd lo + (s.cntPair lo hi n).rd hi * 2 ^ 32 = (s.rd lo + s.rd hi * 2 ^ 32 + n) % 2 ^ 64 := by
  simp only [State.cntPair]
  rw [State.rd_wr_ne _ _ _ _ (Ne.symm hne), State.rd_wr_self, State.rd_wr_self, hl, hh]
  omega

/-! ### Frames -/

section
variable {fs : List Field} {ps : List Part} {s t : State}

theorem Frame.setPort {n : Nat} {p : Port} (hp : .ports ∈ ps) (h : Frame fs ps s t) : Frame fs ps s (t.setPort n p) :=
  h.part hp rfl rfl (fun q hq => by cases q <;> simp_all [Part.same, State.setPort])

theorem Frame.setTsQ {n : Nat} {q : TsQueue} (hp : .tns ∈ ps) (h : Frame fs ps s t) : Frame fs ps s (t.setTsQ n q) :=
  h.part hp rfl rfl (fun q hq => by cases q <;> simp_all [Part.same, State.setTsQ])

theorem Frame.draw (hp : .free ∈ ps) (h : Frame fs ps s t) : Frame fs ps s t.draw.2 :=
  h.part hp rfl rfl (fun q hq => by cases q <;> simp_all [Part.same])

theorem Frame.cntPair {lo hi : Field} {n : Nat} (hl : lo ∈ fs) (hh : hi ∈ fs) (h : Frame fs ps s t) : Frame fs ps s (t.cntPair lo hi n) :=
  (h.wr hl).wr hh

theorem State.cntPair_frame (s : State) (lo hi : Field) (n : Nat) : Frame [lo, hi] [] s (s.cntPair lo hi n) :=
  (Frame.refl _ _ s).cntPair (by simp) (by simp)

theorem Frame.each {α : Type} {l : List α} {k : State → α → State} (hk : ∀ u a, Frame fs ps u (k u a)) (h : Frame fs ps s t) :
    Frame fs ps s (t.each l k) := t.each_keeps (fun u => Frame fs ps s u) l k (fun u a hu => hu.trans (hk u a)) h

/-- A field outside the frame of an effect reads as before. -/
theorem Frame.rd (h : Frame fs ps s t) {g : Field} (hg : fieldKey g ∉ fs.map fieldKey) : t.rd g = s.rd g := h.1 g hg

theorem Frame.log (h : Frame fs ps s t) (hl : .log ∉ ps) : t.log = s.log := h.2.2 .log hl

theorem Frame.norKept (h : Frame fs ps s t) (hn : .nor ∉ ps) : NorKept s t := h.2.2 .nor hn
theorem Frame.dramKept (h : Frame fs ps s t) (hn : .dram ∉ ps) : DramKept s t := h.2.2 .dram hn

/-- An event after effects that hand none over is the one that is told. -/
theorem Frame.tells {c p q r u : Nat} (h : Frame fs ps s t) (hl : .log ∉ ps) (hs : Listens s) : Tells s (t.ev c p q r u) c p q r u :=
  tells_of_log s t _ c p q r u (h.log hl) rfl hs

end

end Sys2Proof.Machine
end

section
/-! PROOF. Links come up and go down, with their references (R110, R111, R402). -/

namespace Sys2Proof.Machine

/-! ### A pause, and the transmit buffer -/

section
variable (s : State) (n : Nat)

theorem State.pauseEnd_frame (a b : Nat) : Frame [NET_P_PAUSE_US_COUNT n] [.ports] s (s.pauseEnd n a b) :=
  ((Frame.refl _ _ s).setPort (by simp)).wr (by simp)

theorem State.pauseSettle_frame : Frame [NET_P_PAUSE_US_COUNT n] [.ports] s (s.pauseSettle n) := by
  unfold State.pauseSettle
  split
  · split
    · exact s.pauseEnd_frame n _ _
    · exact .refl _ _ s
  · exact .refl _ _ s

theorem State.txDrop_frame (f : TxFrame) : Frame [NET_P_TXDROP_COUNT n] [.log] s (s.txDrop n f) :=
  ((Frame.refl _ _ s).wr (by simp)).ev (by simp)

/-- What a port holds with its transmit buffer dropped. -/
def Port.dropTx (p : Port) : Port := { p with tx := [], held := [], cols := 0, backoffUntil := 0 }

theorem State.txFlush_eq : s.txFlush n = (s.setPort n (s.port n).dropTx).each ((s.port n).tx ++ (s.port n).held) (fun s f => s.txDrop n f) := rfl

theorem State.txFlush_frame : Frame [NET_P_TXDROP_COUNT n] [.ports, .log] s (s.txFlush n) :=
  .each (fun u f => (u.txDrop_frame n f).mono (fun _ h => h) (by simp)) ((Frame.refl _ _ s).setPort (by simp))

theorem State.txFlush_port : (s.txFlush n).port n = (s.setPort n (s.port n).dropTx).port n := by
  rw [State.txFlush_eq]
  exact State.each_keep _ (fun t => t.port n) _ _ (fun _ _ => rfl)

/-- A flush leaves nothing in the transmit buffer, nor held for it. -/
theorem State.txFlush_empty : ((s.txFlush n).port n).tx = [] ∧ ((s.txFlush n).port n).held = [] := by
  rw [State.txFlush_port]
  exact ⟨s.port_setPort_blank (p := (s.port n).dropTx) Port.tx rfl, s.port_setPort_blank (p := (s.port n).dropTx) Port.held rfl⟩

end

/-! ### A link drops -/

/-- The fields that a drop of the link clears. -/
def linkFields (n : Nat) : List Field :=
  [NET_P_STAT_LINK n, NET_P_STAT_SPEED n, NET_P_STAT_LPI_TX n, NET_P_STAT_LPI_RX n, NET_P_STAT_PLCA_ACT n]

/-- The fields that a drop of the link may change. -/
def linkDownFields (n : Nat) : List Field := (linkFields n ++ [NET_P_PAUSE_US_COUNT n]) ++ [NET_P_FCSERR_COUNT n, NET_P_TXDROP_COUNT n]

section
variable (s : State) (n : Nat) (r : Bool)

/-- The pause of a port whose link drops is over. -/
def State.pauseStopped : State :=
  match ((s.pauseSettle n).port n).pause with
  | some (f, _) => (s.pauseSettle n).pauseEnd n f (max f (s.pauseSettle n).mono)
  | none => s.pauseSettle n

/-- The link's fields are clear, and the event is recorded; a frame being received is not yet counted. -/
def State.linkCleared : State := ((s.pauseStopped n).each (linkFields n) (fun s f => s.wr f 0)).ev 0x2002 n (s.portMode n) 0 0

theorem State.pauseStopped_frame : Frame [NET_P_PAUSE_US_COUNT n] [.ports] s (s.pauseStopped n) := by
  unfold State.pauseStopped
  split
  · exact (s.pauseSettle_frame n).trans (State.pauseEnd_frame _ n _ _)
  · exact s.pauseSettle_frame n

theorem State.linkCleared_frame : Frame (linkFields n ++ [NET_P_PAUSE_US_COUNT n]) [.ports, .log] s (s.linkCleared n) := by
  have stopped := (s.pauseStopped_frame n).mono (gs := linkFields n ++ [NET_P_PAUSE_US_COUNT n]) (qs := [.ports, .log]) (by simp) (by simp)
  exact (((((stopped.wr (by simp [linkFields])).wr (by simp [linkFields])).wr (by simp [linkFields])).wr (by simp [linkFields])).wr
    (by simp [linkFields])).ev (by simp)

theorem State.linkCleared_rd : (s.linkCleared n).rd (NET_P_STAT_LINK n) = 0 ∧ (s.linkCleared n).rd (NET_P_STAT_SPEED n) = 0 := by
  simp only [State.linkCleared, State.ev_rd, linkFields, State.each, List.foldl_cons, List.foldl_nil]
  constructor
  · rw [State.rd_wr_ne _ _ _ _ (portKey_ne NET_P_STAT_PLCA_ACT NET_P_STAT_LINK n),
      State.rd_wr_ne _ _ _ _ (portKey_ne NET_P_STAT_LPI_RX NET_P_STAT_LINK n),
      State.rd_wr_ne _ _ _ _ (portKey_ne NET_P_STAT_LPI_TX NET_P_STAT_LINK n),
      State.rd_wr_ne _ _ _ _ (portKey_ne NET_P_STAT_SPEED NET_P_STAT_LINK n), State.rd_wr_self, Nat.zero_mod]
  · rw [State.rd_wr_ne _ _ _ _ (portKey_ne NET_P_STAT_PLCA_ACT NET_P_STAT_SPEED n),
      State.rd_wr_ne _ _ _ _ (portKey_ne NET_P_STAT_LPI_RX NET_P_STAT_SPEED n),
      State.rd_wr_ne _ _ _ _ (portKey_ne NET_P_STAT_LPI_TX NET_P_STAT_SPEED n), State.rd_wr_self, Nat.zero_mod]

variable {s n}

theorem State.linkDown_eq (h : s.is (NET_P_STAT_LINK n) = true) :
    s.linkDown n r = ((s.linkCleared n).whenB r (fun s => s.cnt (NET_P_FCSERR_COUNT n))).txFlush n := by
  have lost : s.linkLost n r = (s.linkCleared n).whenB r (fun s => s.cnt (NET_P_FCSERR_COUNT n)) := if_neg (by simp [h])
  rw [State.linkDown, if_pos h, lost]

theorem State.linkDown_off (h : s.is (NET_P_STAT_LINK n) = false) : s.linkDown n r = s := if_neg (by simp [h])

theorem Frame.whenB {fs : List Field} {ps : List Part} {s t : State} {c : Bool} {k : State → State} (hk : Frame fs ps t (k t))
    (h : Frame fs ps s t) : Frame fs ps s (t.whenB c k) := by
  cases c
  · exact h
  · exact h.trans hk

/-- The frame being received is counted, or not, with every other field as it was. -/
theorem State.whenB_cnt_frame (s : State) (f : Field) : Frame [f] [] s (s.whenB r (fun s => s.cnt f)) :=
  .whenB ((Frame.refl _ _ s).wr (by simp)) (.refl _ _ s)

theorem State.linkDown_frame (s : State) (n : Nat) : Frame (linkDownFields n) [.ports, .log] s (s.linkDown n r) := by
  cases h : s.is (NET_P_STAT_LINK n)
  · rw [State.linkDown_off r h]
    exact .refl _ _ s
  · rw [State.linkDown_eq r h]
    have cleared := (s.linkCleared_frame n).mono (gs := linkDownFields n) (fun _ hf => List.mem_append_left _ hf) (fun _ h => h)
    exact (cleared.trans ((State.whenB_cnt_frame r _ _).mono (by simp [linkDownFields]) (by simp))).trans
      ((State.txFlush_frame _ n).mono (by simp [linkDownFields]) (by simp))

/-- What the drop leaves in the link's fields, and the frame being received. -/
theorem State.linkDown_rd (h : s.is (NET_P_STAT_LINK n) = true) : (s.linkDown n r).rd (NET_P_STAT_LINK n) = 0
    ∧ (s.linkDown n r).rd (NET_P_STAT_SPEED n) = 0
    ∧ (r = true → (s.linkDown n r).rd (NET_P_FCSERR_COUNT n) = (s.cnt (NET_P_FCSERR_COUNT n)).rd (NET_P_FCSERR_COUNT n)) := by
  obtain ⟨hlink, hspeed⟩ := s.linkCleared_rd n
  have counted := State.whenB_cnt_frame r (s.linkCleared n) (NET_P_FCSERR_COUNT n)
  have flushed := State.txFlush_frame ((s.linkCleared n).whenB r (fun s => s.cnt (NET_P_FCSERR_COUNT n))) n
  rw [State.linkDown_eq r h]
  refine ⟨?_, ?_, ?_⟩
  · rw [flushed.rd (portKey_notMem NET_P_STAT_LINK [NET_P_TXDROP_COUNT] n),
      counted.rd (portKey_notMem NET_P_STAT_LINK [NET_P_FCSERR_COUNT] n), hlink]
  · rw [flushed.rd (portKey_notMem NET_P_STAT_SPEED [NET_P_TXDROP_COUNT] n),
      counted.rd (portKey_notMem NET_P_STAT_SPEED [NET_P_FCSERR_COUNT] n), hspeed]
  · rintro rfl
    rw [flushed.rd (portKey_notMem NET_P_FCSERR_COUNT [NET_P_TXDROP_COUNT] n)]
    exact State.cnt_rd_congr ((s.linkCleared_frame n).rd (portKey_notMem NET_P_FCSERR_COUNT [NET_P_STAT_LINK, NET_P_STAT_SPEED,
      NET_P_STAT_LPI_TX, NET_P_STAT_LPI_RX, NET_P_STAT_PLCA_ACT, NET_P_PAUSE_US_COUNT] n))

/-- After a drop, or with no link to drop, LINK is 0. -/
theorem State.linkDown_link (s : State) (n : Nat) : (s.linkDown n r).rd (NET_P_STAT_LINK n) = 0 := by
  cases h : s.is (NET_P_STAT_LINK n)
  · rw [State.linkDown_off r h]
    simpa [State.is] using h
  · exact (State.linkDown_rd r h).1

theorem State.linkDown_empty (h : s.is (NET_P_STAT_LINK n) = true) :
    ((s.linkDown n r).port n).tx = [] ∧ ((s.linkDown n r).port n).held = [] := by
  rw [State.linkDown_eq r h]
  exact State.txFlush_empty _ n

end

/-- The memories are in no register's way: health and the lines leave them as they were. -/
theorem kept_of_frame {fs : List Field} {ps : List Part} {s t : State} (h : Frame fs ps s t) (hn : .nor ∉ ps) (hd : .dram ∉ ps) :
    NorKept s (finish s t.health) ∧ DramKept s (finish s t.health) := by
  simpa [NorKept, DramKept] using And.intro (h.norKept hn) (h.dramKept hd)

/-- A field of a port after the health score has been recomputed. -/
theorem State.health_rd_port (F : Nat → Field) {n : Nat} (s : State) (hn : n < 6)
    (h : ∀ k < 6, fieldKey (F k) ∉ statusFields.map fieldKey := by decide) : s.health.rd (F n) = s.rd (F n) :=
  s.health_rd (F n) (h n hn)

theorem runs_linkDown {n : Nat} {r : Bool} {s : State} (hup : s.portUp n = true) (hl : s.is (NET_P_STAT_LINK n) = true) :
    Runs (.linkDown n r) s (fun t => t.rd (NET_P_STAT_LINK n) = 0 ∧ t.rd (NET_P_STAT_SPEED n) = 0 ∧ (t.port n).tx = [] ∧ (t.port n).held = []
      ∧ (r = true → t.rd (NET_P_FCSERR_COUNT n) = (s.cnt (NET_P_FCSERR_COUNT n)).rd (NET_P_FCSERR_COUNT n))
      ∧ NorKept s t ∧ DramKept s t) := by
  have hn := State.portUp_lt hup
  obtain ⟨hlink, hspeed, hfcs⟩ := State.linkDown_rd r hl
  obtain ⟨htx, hheld⟩ := State.linkDown_empty r hl
  have he : exec (.linkDown n r) s = done s (s.linkDown n r).health := congrArg (done s) (if_pos (by simp [hup, hl]))
  refine runs_done he ⟨?_, ?_, ?_, ?_, fun hr => ?_, kept_of_frame (s.linkDown_frame r n) (by simp) (by simp)⟩
  · rw [finish_rd, State.health_rd_port NET_P_STAT_LINK _ hn, hlink]
  · rw [finish_rd, State.health_rd_port NET_P_STAT_SPEED _ hn, hspeed]
  · rw [State.finish_port, State.health_port, htx]
  · rw [State.finish_port, State.health_port, hheld]
  · rw [finish_rd, State.health_rd_port NET_P_FCSERR_COUNT _ hn, hfcs hr]

/-! ### A link comes up -/

theorem modeSpeed_lt (m v : Nat) : modeSpeed m v < 4 := by
  unfold modeSpeed
  repeat' split
  all_goals omega

/-- The link's fields of a port that comes up. -/
def State.linkRaised (s : State) (n v : Nat) : State :=
  ((s.wr (NET_P_STAT_LINK n) 1).wr (NET_P_STAT_SPEED n) (modeSpeed (s.portMode n) v)).wr (NET_P_STAT_PLCA_ACT n)
    (b2n (s.portMode n == 9 && ((s.wr (NET_P_STAT_LINK n) 1).wr (NET_P_STAT_SPEED n) (modeSpeed (s.portMode n) v)).rd (NET_P_PLCA_NODE_ID n) == 0))

theorem exec_linkUp {n v : Nat} {s : State} (hup : s.portUp n = true) (hm : s.portMode n ≠ 0) (hl : s.is (NET_P_STAT_LINK n) = false)
    (hr : s.srefOk n = true) : ∃ p, exec (.linkUp n v) s
      = done s (((s.linkRaised n v).setPort n p).ev 0x2001 n (s.portMode n) (modeSpeed (s.portMode n) v) 0).health :=
  ⟨_, congrArg (done s) (if_pos (by simp [hup, hm, hl, hr]))⟩

theorem State.linkRaised_rd (s : State) (n v : Nat) : (s.linkRaised n v).rd (NET_P_STAT_LINK n) = 1
    ∧ (s.linkRaised n v).rd (NET_P_STAT_SPEED n) = modeSpeed (s.portMode n) v := by
  have fits : modeSpeed (s.portMode n) v % 2 ^ (NET_P_STAT_SPEED n).width = modeSpeed (s.portMode n) v := Nat.mod_eq_of_lt (modeSpeed_lt _ _)
  refine ⟨?_, ?_⟩ <;> unfold State.linkRaised
  · rw [State.rd_wr_ne _ _ _ _ (portKey_ne NET_P_STAT_PLCA_ACT NET_P_STAT_LINK n),
      State.rd_wr_ne _ _ _ _ (portKey_ne NET_P_STAT_SPEED NET_P_STAT_LINK n), State.rd_wr_self]
    rfl
  · rw [State.rd_wr_ne _ _ _ _ (portKey_ne NET_P_STAT_PLCA_ACT NET_P_STAT_SPEED n), State.rd_wr_self, fits]

theorem State.linkRaised_frame (s : State) (n v : Nat) : Frame (linkFields n) [.ports, .log] s (s.linkRaised n v) :=
  (((Frame.refl _ _ s).wr (by simp [linkFields])).wr (by simp [linkFields])).wr (by simp [linkFields])

theorem runs_linkUp {n v : Nat} {s : State} (hup : s.portUp n = true) (hm : s.portMode n ≠ 0) (hl : s.is (NET_P_STAT_LINK n) = false)
    (hr : s.srefOk n = true) : Runs (.linkUp n v) s (fun t => t.rd (NET_P_STAT_LINK n) = 1
      ∧ t.rd (NET_P_STAT_SPEED n) = modeSpeed (s.portMode n) v ∧ NorKept s t ∧ DramKept s t) := by
  have hn := State.portUp_lt hup
  obtain ⟨p, he⟩ := exec_linkUp (v := v) hup hm hl hr
  obtain ⟨hlink, hspeed⟩ := s.linkRaised_rd n v
  refine runs_done he ⟨?_, ?_, kept_of_frame (((s.linkRaised_frame n v).setPort (by simp)).ev (by simp)) (by simp) (by simp)⟩
  · rw [finish_rd, State.health_rd_port NET_P_STAT_LINK _ hn, State.ev_rd, State.setPort_rd, hlink]
  · rw [finish_rd, State.health_rd_port NET_P_STAT_SPEED _ hn, State.ev_rd, State.setPort_rd, hspeed]

/-! ### References -/

/-- The flag of a reference in NET_SREF_STAT. -/
def srefField (k : Nat) : Field := if k = 0 then NET_SREF_STAT_SREF0_OK else NET_SREF_STAT_SREF1_OK

theorem srefField_width (k : Nat) : (srefField k).width = 1 := by
  unfold srefField
  split <;> rfl

/-- The flag of a reference is no field of a port, and none of the computed status. -/
theorem srefField_apart {k : Nat} (hk : k < 2) : (∀ n < 6, fieldKey (srefField k) ∉ (linkDownFields n).map fieldKey)
    ∧ fieldKey (srefField k) ∉ statusFields.map fieldKey :=
  (by decide : ∀ k < 2, (∀ n < 6, fieldKey (srefField k) ∉ (linkDownFields n).map fieldKey)
    ∧ fieldKey (srefField k) ∉ statusFields.map fieldKey) k hk

section
variable {k rx : Nat} {s : State}

/-- The flag follows the reference, with its event. -/
def State.srefSet (s : State) (k : Nat) (ok : Bool) : State := (s.wr (srefField k) (b2n ok)).ev 0x2004 k (b2n ok) 0 0

theorem State.srefSet_frame (s : State) (k : Nat) (ok : Bool) : Frame [srefField k] [.log] s (s.srefSet k ok) :=
  ((Frame.refl _ _ s).wr (by simp)).ev (by simp)

theorem State.srefSet_rd (s : State) (k : Nat) (ok : Bool) : (s.srefSet k ok).rd (srefField k) = b2n ok := by
  rw [State.srefSet, State.ev_rd, State.rd_wr_self, srefField_width]
  cases ok <;> rfl

/-- A reference in service that changes is what the command acts on. -/
theorem srefChange_acts {ok : Bool} (hup : s.up = true) (hon : s.on 2 = true) (hk : k < 2) (hf : s.rd (srefField k) ≠ b2n ok) :
    (s.up && s.on 2 && decide (k < 2) && s.rd (srefField k) != b2n ok) = true := by
  simp [hup, hon, hk, hf]

theorem runs_srefReturn (hup : s.up = true) (hon : s.on 2 = true) (hk : k < 2) (hf : s.rd (srefField k) = 0) (hl : Listens s) :
    Runs (.srefChange k true rx) s (fun t => t.rd (srefField k) = 1 ∧ Tells s t 0x2004 k 1 0 0 ∧ Frame [srefField k] [.log] s t) := by
  have he : exec (.srefChange k true rx) s = done s (s.srefSet k true) :=
    congrArg (done s) (if_pos (srefChange_acts hup hon hk (by simp [hf, b2n])))
  have told : Tells s (s.srefSet k true) 0x2004 k 1 0 0 := Frame.tells ((Frame.refl [srefField k] [] s).wr (by simp)) (by simp) hl
  exact runs_done he ⟨s.srefSet_rd k true, tells_finish told, (s.srefSet_frame k true).finish⟩

/-- Both ports of a reference go down with it, the lower first. -/
def State.srefLost (s : State) (k rx : Nat) : State :=
  ((s.srefSet k false).linkDown (2 * k) (bit rx (2 * k) == 1)).linkDown (2 * k + 1) (bit rx (2 * k + 1) == 1)

theorem State.srefLost_rd (s : State) (rx : Nat) (hk : k < 2) : (s.srefLost k rx).rd (srefField k) = 0
    ∧ (s.srefLost k rx).rd (NET_P_STAT_LINK (2 * k)) = 0 ∧ (s.srefLost k rx).rd (NET_P_STAT_LINK (2 * k + 1)) = 0 := by
  obtain ⟨apart, -⟩ := srefField_apart hk
  have other : fieldKey (NET_P_STAT_LINK (2 * k)) ∉ (linkDownFields (2 * k + 1)).map fieldKey :=
    (by decide : ∀ k < 2, fieldKey (NET_P_STAT_LINK (2 * k)) ∉ (linkDownFields (2 * k + 1)).map fieldKey) k hk
  refine ⟨?_, ?_, State.linkDown_link _ _ _⟩ <;> unfold State.srefLost
  · rw [(State.linkDown_frame _ _ _).rd (apart _ (by omega)), (State.linkDown_frame _ _ _).rd (apart _ (by omega)), State.srefSet_rd]
    rfl
  · rw [(State.linkDown_frame _ _ _).rd other, State.linkDown_link]

theorem State.srefLost_frame (s : State) (k rx : Nat) :
    Frame (srefField k :: linkDownFields (2 * k) ++ linkDownFields (2 * k + 1)) [.ports, .log] s (s.srefLost k rx) :=
  (((s.srefSet_frame k false).mono (by simp) (by simp)).trans ((State.linkDown_frame _ _ _).mono (by simp +contextual) (fun _ h => h))).trans
    ((State.linkDown_frame _ _ _).mono (by simp +contextual) (fun _ h => h))

theorem runs_srefLoss (hup : s.up = true) (hon : s.on 2 = true) (hk : k < 2) (hf : s.rd (srefField k) = 1) :
    Runs (.srefChange k false rx) s (fun t => t.rd (srefField k) = 0 ∧ t.rd (NET_P_STAT_LINK (2 * k)) = 0
      ∧ t.rd (NET_P_STAT_LINK (2 * k + 1)) = 0 ∧ NorKept s t ∧ DramKept s t) := by
  have he : exec (.srefChange k false rx) s = done s (s.srefLost k rx).health :=
    congrArg (done s) (if_pos (srefChange_acts hup hon hk (by simp [hf, b2n])))
  obtain ⟨-, apart⟩ := srefField_apart hk
  obtain ⟨hflag, hlow, hhigh⟩ := s.srefLost_rd rx hk
  have kept := kept_of_frame (s.srefLost_frame k rx) (by simp) (by simp)
  refine runs_done he ⟨?_, ?_, ?_, kept⟩
  · rw [finish_rd, State.health_rd _ _ apart, hflag]
  · rw [finish_rd, State.health_rd_port NET_P_STAT_LINK _ (by omega), hlow]
  · rw [finish_rd, State.health_rd_port NET_P_STAT_LINK _ (by omega), hhigh]

end

/-- Settles O27: a link's rise writes its fields, its drop clears them after the pause and before the transmit buffer, and the loss of a
reference is its flag and two such drops. -/
theorem linksUpAndDown : Obligations.LinksUpAndDown :=
  ⟨fun _ _ _ hup hm hl hr => runs_linkUp hup hm hl hr, fun _ _ _ hup hl => runs_linkDown hup hl,
    fun _ _ _ hup hon hk hf hl => runs_srefReturn hup hon hk hf hl, fun _ _ _ hup hon hk hf => runs_srefLoss hup hon hk hf⟩

end Sys2Proof.Machine
end

section
/-! PROOF. A received frame: dropped, a stranger, admitted or lost to a full FIFO (R112, R121). -/

namespace Sys2Proof.Machine

/-! ### The verdict -/

section
variable (s : State) (n : Nat) (f : RxFrame)

/-- The segment of a field port has been heard (R127); a trunk port hears nothing. -/
def State.heard : State := if 4 ≤ n then s.setPort n { s.port n with busyUntil := s.mono } else s

/-- A stranger counted, the port knowing that there was one. -/
def State.strangerCounted : State :=
  (s.cnt (NET_P_STRANGER_COUNT n)).setPort n { (s.cnt (NET_P_STRANGER_COUNT n)).port n with stranger := true }

/-- What a port does with a frame by the verdict of R112's checks. -/
def State.takeFrame (v : Admit) : State :=
  match v with
  | .drop c => s.cnt c
  | .pause q => s.pauseFrame n q
  | .stranger =>
    if !(s.port n).stranger then (s.strangerCounted n).ev 0x2010 n (frameDst f.bytes / 2 ^ 32) (frameDst f.bytes) (frameSrc f.bytes)
    else s.strangerCounted n
  | .pass u => s.fifoPut n (s.rxEntry n f u)

theorem State.heard_eq : ∃ l, s.heard n = { s with ports := l } := by
  unfold State.heard
  split
  · exact ⟨_, rfl⟩
  · exact ⟨s.ports, rfl⟩

theorem State.heard_frame : Frame [] [.ports] s (s.heard n) := by
  unfold State.heard
  split
  · exact (Frame.refl _ _ s).setPort (by simp)
  · exact .refl _ _ s

theorem State.heard_rd (g : Field) : (s.heard n).rd g = s.rd g := (s.heard_frame n).rd (by simp)

theorem State.heard_trunk (h : n < 4) : s.heard n = s := if_neg (Nat.not_le.mpr h)

/-- Hearing a frame changes nothing of a port but when its segment was last heard. -/
theorem State.heard_port {α : Type} (π : Port → α) (h : ∀ (p : Port) (x : Nat), π { p with busyUntil := x } = π p) (k : Nat) :
    π ((s.heard n).port k) = π (s.port k) := by
  unfold State.heard
  split
  · exact s.port_setPort_keep k π (h _ _)
  · rfl

theorem State.heard_length : (s.heard n).ports.length = s.ports.length := by
  unfold State.heard
  split
  · exact length_setNth s.ports n _
  · rfl

/-- The entry of a frame does not depend on what the ports hold. -/
theorem State.heard_rxEntry (u : Bool) : (s.heard n).rxEntry n f u = s.rxEntry n f u := by
  obtain ⟨l, e⟩ := s.heard_eq n
  rw [e]
  rfl

variable {s n f}

/-- A frame on a linked port outside a flush is heard, and taken by its verdict. -/
theorem exec_frameReceived (hup : s.portUp n = true) (hl : s.is (NET_P_STAT_LINK n) = true) (hb : s.is (NET_P_FSTAT_FLUSH_BUSY n) = false)
    {v : Admit} (hv : s.admission n f = v) : exec (.frameReceived n f) s = done s ((s.heard n).takeFrame n f v) := by
  obtain ⟨l, e⟩ := s.heard_eq n
  have hup' : (s.heard n).portUp n = true := by rw [e]; exact hup
  have hl' : (s.heard n).is (NET_P_STAT_LINK n) = true := by rw [e]; exact hl
  have hb' : (s.heard n).is (NET_P_FSTAT_FLUSH_BUSY n) = false := by rw [e]; exact hb
  have hv' : (s.heard n).admission n f = v := by rw [e]; exact hv
  have off : ¬ (!(s.heard n).portUp n || !(s.heard n).is (NET_P_STAT_LINK n) || (s.heard n).is (NET_P_FSTAT_FLUSH_BUSY n)) = true := by
    simp [hup', hl', hb']
  subst hv'
  exact congrArg (done s) (if_neg off)

end

/-! ### Dropped frames and strangers -/

section
variable {s : State} {n : Nat} {f : RxFrame}

theorem runs_frameReceived_drop {c : Field} (hup : s.portUp n = true) (hl : s.is (NET_P_STAT_LINK n) = true)
    (hb : s.is (NET_P_FSTAT_FLUSH_BUSY n) = false) (hv : s.admission n f = .drop c) :
    Runs (.frameReceived n f) s (fun t => t.rd c = (s.cnt c).rd c ∧ (∀ k, (t.port k).fifo = (s.port k).fifo)
      ∧ Frame [c] [.ports] s t ∧ (n < 4 → Frame [c] [] s t)) := by
  refine runs_done (exec_frameReceived hup hl hb hv) ⟨?_, fun k => ?_, ?_, fun hn => ?_⟩
  · exact State.cnt_rd_congr (s.heard_rd n c)
  · exact s.heard_port n Port.fifo (fun _ _ => rfl) k
  · exact (((s.heard_frame n).mono (by simp) (fun _ h => h)).wr (by simp)).finish
  · rw [s.heard_trunk n hn]
    exact ((Frame.refl _ _ s).wr (by simp)).finish

theorem State.strangerCounted_frame (s : State) (n : Nat) : Frame [NET_P_STRANGER_COUNT n] [.ports] s (s.strangerCounted n) :=
  ((Frame.refl _ _ s).wr (by simp)).setPort (by simp)

theorem State.takeFrame_stranger (s : State) : s.takeFrame n f .stranger = if (s.port n).stranger = true then s.strangerCounted n
    else (s.strangerCounted n).ev 0x2010 n (frameDst f.bytes / 2 ^ 32) (frameDst f.bytes) (frameSrc f.bytes) := by
  cases h : (s.port n).stranger <;> simp [State.takeFrame, h]

/-- The first stranger since the clear leaves its event, and any leaves the port counted and marked. -/
theorem State.takeFrame_stranger_keeps {α : Type} (π : State → α) (h : ∀ (t : State) (c p q r u : Nat), π (t.ev c p q r u) = π t)
    (s : State) : π (s.takeFrame n f .stranger) = π (s.strangerCounted n) := by
  rw [State.takeFrame_stranger]
  split
  · rfl
  · exact h _ _ _ _ _ _

theorem runs_frameReceived_stranger (hup : s.portUp n = true) (hl : s.is (NET_P_STAT_LINK n) = true)
    (hb : s.is (NET_P_FSTAT_FLUSH_BUSY n) = false) (hv : s.admission n f = .stranger) (hlen : s.ports.length = 6) (hs : Listens s) :
    Runs (.frameReceived n f) s (fun t => t.rd (NET_P_STRANGER_COUNT n) = (s.cnt (NET_P_STRANGER_COUNT n)).rd (NET_P_STRANGER_COUNT n)
      ∧ (t.port n).stranger = true ∧ (t.port n).fifo = (s.port n).fifo
      ∧ ((s.port n).stranger = false → Tells s t 0x2010 n (frameDst f.bytes / 2 ^ 32) (frameDst f.bytes) (frameSrc f.bytes))
      ∧ Frame [NET_P_STRANGER_COUNT n] [.ports, .log] s t) := by
  have hin : n < ((s.heard n).cnt (NET_P_STRANGER_COUNT n)).ports.length := by
    show n < (s.heard n).ports.length
    rw [s.heard_length n, hlen]
    exact State.portUp_lt hup
  have counted : Frame [NET_P_STRANGER_COUNT n] [.ports] s ((s.heard n).strangerCounted n) :=
    ((s.heard_frame n).mono (by simp) (fun _ h => h)).trans ((s.heard n).strangerCounted_frame n)
  have marked : ((s.heard n).strangerCounted n).port n = { (s.heard n).port n with stranger := true } := State.port_setPort_self _ hin
  have hport := State.takeFrame_stranger_keeps (n := n) (f := f) (fun t => t.port n) (fun t _ _ _ _ _ => t.ev_port n _ _ _ _ _) (s.heard n)
  refine runs_done (exec_frameReceived hup hl hb hv) ⟨?_, ?_, ?_, fun first => ?_, Frame.finish ?_⟩
  · rw [finish_rd, State.takeFrame_stranger_keeps (fun t => t.rd (NET_P_STRANGER_COUNT n)) (fun t _ _ _ _ _ => t.ev_rd _ _ _ _ _ _)]
    exact State.cnt_rd_congr (s.heard_rd n _)
  · rw [State.finish_port, hport, marked]
  · rw [State.finish_port, hport, marked]
    exact s.heard_port n Port.fifo (fun _ _ => rfl) n
  · have first' : ¬ ((s.heard n).port n).stranger = true := by
      rw [s.heard_port n Port.stranger (fun _ _ => rfl), first]
      decide
    rw [State.takeFrame_stranger, if_neg first']
    exact tells_finish (counted.tells (by simp) hs)
  · rw [State.takeFrame_stranger]
    split
    · exact counted.mono (fun _ h => h) (by simp)
    · exact (counted.mono (fun _ h => h) (by simp)).ev (by simp)

end

/-! ### The FIFO -/

section
variable (s : State) (n : Nat)

theorem State.fifoLevel_frame : Frame [NET_P_FSTAT_THR n, NET_P_FSTAT_OVF n] [.log] s (s.fifoLevel n) := by
  have thr := fun v => (Frame.refl [NET_P_FSTAT_THR n, NET_P_FSTAT_OVF n] [.log] s).wr (v := v) (f := NET_P_FSTAT_THR n) (by simp)
  simp only [State.fifoLevel]
  split <;> split
  · exact ((thr _).wr (by simp)).ev (by simp)
  · exact (thr _).ev (by simp)
  · exact (thr _).wr (by simp)
  · exact thr _

theorem State.fifoLevel_port (k : Nat) : (s.fifoLevel n).port k = s.port k :=
  congrArg (fun l => nth l k port0) ((s.fifoLevel_frame n).2.2 .ports (by simp))

/-- The counters of the frames and bytes that a port has admitted. -/
def rxCounters (n : Nat) : List Field :=
  [NET_P_RX_OK_LO_COUNT n, NET_P_RX_OK_HI_COUNT n, NET_P_RX_BYTES_LO_COUNT n, NET_P_RX_BYTES_HI_COUNT n]

/-- A frame of `len` bytes is counted as received. -/
def State.countRx (len : Nat) : State :=
  (s.cntPair (NET_P_RX_OK_LO_COUNT n) (NET_P_RX_OK_HI_COUNT n) 1).cntPair (NET_P_RX_BYTES_LO_COUNT n) (NET_P_RX_BYTES_HI_COUNT n) len

theorem State.countRx_frame (len : Nat) : Frame (rxCounters n) [] s (s.countRx n len) :=
  ((Frame.refl _ _ s).cntPair (by simp [rxCounters]) (by simp [rxCounters])).cntPair (by simp [rxCounters]) (by simp [rxCounters])

theorem State.countRx_rd (len : Nat) :
    (s.countRx n len).rd (NET_P_RX_OK_LO_COUNT n) + (s.countRx n len).rd (NET_P_RX_OK_HI_COUNT n) * 2 ^ 32
      = (s.rd (NET_P_RX_OK_LO_COUNT n) + s.rd (NET_P_RX_OK_HI_COUNT n) * 2 ^ 32 + 1) % 2 ^ 64
    ∧ (s.countRx n len).rd (NET_P_RX_BYTES_LO_COUNT n) + (s.countRx n len).rd (NET_P_RX_BYTES_HI_COUNT n) * 2 ^ 32
      = (s.rd (NET_P_RX_BYTES_LO_COUNT n) + s.rd (NET_P_RX_BYTES_HI_COUNT n) * 2 ^ 32 + len) % 2 ^ 64 := by
  have frames := s.cntPair_frame (NET_P_RX_OK_LO_COUNT n) (NET_P_RX_OK_HI_COUNT n) 1
  have bytes := fun t : State => t.cntPair_frame (NET_P_RX_BYTES_LO_COUNT n) (NET_P_RX_BYTES_HI_COUNT n) len
  unfold State.countRx
  constructor
  · rw [(bytes _).rd (portKey_notMem NET_P_RX_OK_LO_COUNT [NET_P_RX_BYTES_LO_COUNT, NET_P_RX_BYTES_HI_COUNT] n),
      (bytes _).rd (portKey_notMem NET_P_RX_OK_HI_COUNT [NET_P_RX_BYTES_LO_COUNT, NET_P_RX_BYTES_HI_COUNT] n)]
    exact s.cntPair_rd 1 (portKey_ne NET_P_RX_OK_LO_COUNT NET_P_RX_OK_HI_COUNT n) rfl rfl
  · rw [State.cntPair_rd _ _ (portKey_ne NET_P_RX_BYTES_LO_COUNT NET_P_RX_BYTES_HI_COUNT n) rfl rfl,
      frames.rd (portKey_notMem NET_P_RX_BYTES_LO_COUNT [NET_P_RX_OK_LO_COUNT, NET_P_RX_OK_HI_COUNT] n),
      frames.rd (portKey_notMem NET_P_RX_BYTES_HI_COUNT [NET_P_RX_OK_LO_COUNT, NET_P_RX_OK_HI_COUNT] n)]

/-- With room for a frame and the writer's margin, a frame that is no PTP message joins the FIFO whole and is counted. -/
theorem State.fifoPut_room {e : RxEntry} (h : (s.port n).fill + e.len + 512 ≤ fifoCap n) (hp : isPtp e.bytes = false) :
    s.fifoPut n e = ((s.setPort n { s.port n with fifo := (s.port n).fifo ++ [e] }).countRx n e.len).fifoLevel n := by
  have slack : (if n < 4 then 128 else 512) ≤ 512 := by split <;> decide
  have sure : ¬ (e.len ≤ fifoCap n - (s.port n).fill ∧ fifoCap n - (s.port n).fill < e.len + (if n < 4 then 128 else 512)
      ∨ fifoCap n - (s.port n).fill < e.len) := by omega
  have fits : e.len ≤ fifoCap n - (s.port n).fill := by omega
  simp only [State.fifoPut, if_neg sure, Nat.sub_zero, if_pos fits, ptpEvent, hp, Bool.false_and, Bool.and_false, Bool.false_eq_true, if_false,
    State.countRx]

/-- A full FIFO loses the frame, whatever margin the writer sees; the first loss sets OVF. -/
theorem State.fifoPut_full {e : RxEntry} (h : fifoCap n ≤ (s.port n).fill) (he : 0 < e.len) (ho : s.is (NET_P_FSTAT_OVF n) = false) :
    s.fifoPut n e = ((s.draw.2.cnt (NET_P_OVF_COUNT n)).wr (NET_P_FSTAT_OVF n) 1).ev 0x2020 n e.len 0 0 := by
  have none : fifoCap n - (s.port n).fill = 0 := Nat.sub_eq_zero_of_le h
  have ho' : (s.draw.2.cnt (NET_P_OVF_COUNT n)).is (NET_P_FSTAT_OVF n) = false := by
    have hr : (s.draw.2.cnt (NET_P_OVF_COUNT n)).rd (NET_P_FSTAT_OVF n) = s.rd (NET_P_FSTAT_OVF n) :=
      State.rd_wr_ne _ _ _ _ (portKey_ne NET_P_OVF_COUNT NET_P_FSTAT_OVF n)
    simpa only [State.is, hr] using ho
  have hlt : ¬ e.len ≤ 0 := Nat.not_le.mpr he
  simp [State.fifoPut, none, he, hlt, ho']

/-- Where nothing has changed what stamps are read from since the instant, it is what they are read from now. -/
theorem State.asOf_unchanged {ago : Nat} (h : ∀ x ∈ s.tns.marks, x.time + ago * 2 ^ 28 ≤ s.mono) :
    s.asOf ago = ⟨s.mono, 0, s.epoch, s.quality, s.ircFlag, s.ircDirect⟩ := by
  have later : s.tns.marks.filter (fun x => decide (s.mono < x.time + ago * 2 ^ 28)) = [] := by
    simpa [List.filter_eq_nil_iff] using h
  simp only [State.asOf, later]
  rfl

end

/-! ### Admitted, and lost -/

section
variable {s : State} {n : Nat} {f : RxFrame} {u : Bool}

theorem exec_frameReceived_pass (hup : s.portUp n = true) (hl : s.is (NET_P_STAT_LINK n) = true)
    (hb : s.is (NET_P_FSTAT_FLUSH_BUSY n) = false) (hv : s.admission n f = .pass u)
    (hroom : (s.port n).fill + f.bytes.length + 4 + 512 ≤ fifoCap n) (hp : isPtp f.bytes = false) :
    exec (.frameReceived n f) s = done s ((((s.heard n).setPort n { (s.heard n).port n with
      fifo := ((s.heard n).port n).fifo ++ [s.rxEntry n f u] }).countRx n (f.bytes.length + 4)).fifoLevel n) := by
  have hfill : ((s.heard n).port n).fill = (s.port n).fill := s.heard_port n Port.fill (fun _ _ => rfl) n
  have room : ((s.heard n).port n).fill + (s.rxEntry n f u).len + 512 ≤ fifoCap n := by
    have hle : (s.rxEntry n f u).len = f.bytes.length + 4 := rfl
    omega
  have put := (s.heard n).fifoPut_room n room hp
  rw [exec_frameReceived hup hl hb hv]
  show done s ((s.heard n).fifoPut n ((s.heard n).rxEntry n f u)) = _
  rw [State.heard_rxEntry, put]
  rfl

theorem runs_frameReceived_pass (hup : s.portUp n = true) (hl : s.is (NET_P_STAT_LINK n) = true)
    (hb : s.is (NET_P_FSTAT_FLUSH_BUSY n) = false) (hv : s.admission n f = .pass u) (hlen : s.ports.length = 6)
    (hroom : (s.port n).fill + f.bytes.length + 4 + 512 ≤ fifoCap n) (hp : isPtp f.bytes = false) :
    Runs (.frameReceived n f) s (fun t =>
      (t.port n).fifo = (s.port n).fifo ++ [s.rxEntry n f u]
      ∧ ((∀ x ∈ s.tns.marks, x.time + f.ago * 2 ^ 28 ≤ s.mono) →
          s.asOf f.ago = ⟨s.mono, 0, s.epoch, s.quality, s.ircFlag, s.ircDirect⟩)
      ∧ t.rd (NET_P_RX_OK_LO_COUNT n) + t.rd (NET_P_RX_OK_HI_COUNT n) * 2 ^ 32
          = (s.rd (NET_P_RX_OK_LO_COUNT n) + s.rd (NET_P_RX_OK_HI_COUNT n) * 2 ^ 32 + 1) % 2 ^ 64
      ∧ t.rd (NET_P_RX_BYTES_LO_COUNT n) + t.rd (NET_P_RX_BYTES_HI_COUNT n) * 2 ^ 32
          = (s.rd (NET_P_RX_BYTES_LO_COUNT n) + s.rd (NET_P_RX_BYTES_HI_COUNT n) * 2 ^ 32 + (f.bytes.length + 4)) % 2 ^ 64
      ∧ Frame (rxCounters n ++ [NET_P_FSTAT_THR n, NET_P_FSTAT_OVF n]) [.ports, .log] s t) := by
  have hin : n < (s.heard n).ports.length := by
    rw [s.heard_length n, hlen]
    exact State.portUp_lt hup
  have hfifo : ((s.heard n).port n).fifo = (s.port n).fifo := s.heard_port n Port.fifo (fun _ _ => rfl) n
  refine runs_done (exec_frameReceived_pass hup hl hb hv hroom hp) ?_
  generalize hp' : ({ (s.heard n).port n with fifo := ((s.heard n).port n).fifo ++ [s.rxEntry n f u] } : Port) = p
  have same : Frame [] [.ports] s ((s.heard n).setPort n p) := (s.heard_frame n).setPort (by simp)
  have rdSame : ∀ g, ((s.heard n).setPort n p).rd g = s.rd g := fun g => same.rd (by simp)
  have counted := ((s.heard n).setPort n p).countRx_rd n (f.bytes.length + 4)
  have level := (((s.heard n).setPort n p).countRx n (f.bytes.length + 4)).fifoLevel_frame n
  simp only [rdSame] at counted
  refine ⟨?_, s.asOf_unchanged, ?_, ?_, Frame.finish ?_⟩
  · rw [State.finish_port, State.fifoLevel_port]
    show (((s.heard n).setPort n p).port n).fifo = _
    rw [State.port_setPort_self _ hin, ← hp', hfifo]
  · rw [finish_rd, finish_rd, level.rd (portKey_notMem NET_P_RX_OK_LO_COUNT [NET_P_FSTAT_THR, NET_P_FSTAT_OVF] n),
      level.rd (portKey_notMem NET_P_RX_OK_HI_COUNT [NET_P_FSTAT_THR, NET_P_FSTAT_OVF] n), counted.1]
  · rw [finish_rd, finish_rd, level.rd (portKey_notMem NET_P_RX_BYTES_LO_COUNT [NET_P_FSTAT_THR, NET_P_FSTAT_OVF] n),
      level.rd (portKey_notMem NET_P_RX_BYTES_HI_COUNT [NET_P_FSTAT_THR, NET_P_FSTAT_OVF] n), counted.2]
  · have all := (same.mono (gs := rxCounters n ++ [NET_P_FSTAT_THR n, NET_P_FSTAT_OVF n]) (qs := [.ports, .log]) (by simp) (by simp)).trans
      ((State.countRx_frame _ n (f.bytes.length + 4)).mono (fun _ h => List.mem_append_left _ h) (by simp))
    exact all.trans (level.mono (fun _ h => List.mem_append_right _ h) (by simp))

theorem runs_frameReceived_full (hup : s.portUp n = true) (hl : s.is (NET_P_STAT_LINK n) = true)
    (hb : s.is (NET_P_FSTAT_FLUSH_BUSY n) = false) (hv : s.admission n f = .pass u) (hfull : fifoCap n ≤ (s.port n).fill)
    (ho : s.is (NET_P_FSTAT_OVF n) = false) (hs : Listens s) :
    Runs (.frameReceived n f) s (fun t => t.rd (NET_P_OVF_COUNT n) = (s.cnt (NET_P_OVF_COUNT n)).rd (NET_P_OVF_COUNT n)
      ∧ t.rd (NET_P_FSTAT_OVF n) = 1 ∧ Tells s t 0x2020 n (f.bytes.length + 4) 0 0
      ∧ (t.port n).fifo = (s.port n).fifo ∧ Frame [NET_P_OVF_COUNT n, NET_P_FSTAT_OVF n] [.free, .ports, .log] s t) := by
  have hfill : ((s.heard n).port n).fill = (s.port n).fill := s.heard_port n Port.fill (fun _ _ => rfl) n
  have ho' : (s.heard n).is (NET_P_FSTAT_OVF n) = false := by simpa only [State.is, s.heard_rd] using ho
  have put := (s.heard n).fifoPut_full n (e := (s.heard n).rxEntry n f u) (by omega) (Nat.succ_pos _) ho'
  have lost : Frame [NET_P_OVF_COUNT n, NET_P_FSTAT_OVF n] [.free, .ports] s
      (((s.heard n).draw.2.cnt (NET_P_OVF_COUNT n)).wr (NET_P_FSTAT_OVF n) 1) :=
    ((((s.heard_frame n).mono (by simp) (by simp)).draw (by simp)).wr (by simp)).wr (by simp)
  refine runs_done ((exec_frameReceived hup hl hb hv).trans (congrArg (done s) put)) ⟨?_, ?_, ?_, ?_, ?_⟩
  · rw [finish_rd, State.ev_rd, State.rd_wr_ne _ _ _ _ (portKey_ne NET_P_FSTAT_OVF NET_P_OVF_COUNT n)]
    exact State.cnt_rd_congr (s.heard_rd n _)
  · rw [finish_rd, State.ev_rd, State.rd_wr_self]
    rfl
  · exact tells_finish (lost.tells (by simp) hs)
  · exact s.heard_port n Port.fifo (fun _ _ => rfl) n
  · exact ((lost.mono (fun _ h => h) (by simp +contextual)).ev (by simp)).finish

end

/-- Settles O28: the frame is heard, and the verdict of the checks says which of its four ends it has. -/
theorem frameAdmission : Obligations.FrameAdmission :=
  ⟨fun _ _ _ _ hup hl hb hv => runs_frameReceived_drop hup hl hb hv,
    fun _ _ _ hup hl hb hv hlen hs => runs_frameReceived_stranger hup hl hb hv hlen hs,
    fun _ _ _ _ hup hl hb hv hlen hroom hp => runs_frameReceived_pass hup hl hb hv hlen hroom hp,
    fun _ _ _ _ hup hl hb hv hfull ho hs => runs_frameReceived_full hup hl hb hv hfull ho hs⟩

end Sys2Proof.Machine
end

section
/-! PROOF. PAUSE, low-power idle and the flush of a FIFO (R115, R116, R117, R125). -/

namespace Sys2Proof.Machine

/-! ### PAUSE -/

section
variable {s : State} {n q : Nat}

/-- The bit time of a port depends on its mode and its speed alone. -/
theorem State.bitPs_congr {t : State} (hm : t.rd (NET_P_CFG_MODE n) = s.rd (NET_P_CFG_MODE n))
    (hs : t.rd (NET_P_STAT_SPEED n) = s.rd (NET_P_STAT_SPEED n)) : t.bitPs n = s.bitPs n := by
  have hmode : t.portMode n = s.portMode n := by simp only [State.portMode, hm]
  unfold State.bitPs
  rw [hmode, hs]

theorem State.pauseSettle_none (h : (s.port n).pause = none) : s.pauseSettle n = s := by
  simp only [State.pauseSettle, h]

/-- A PAUSE frame counted and recorded, with whether it was honoured. -/
def State.pauseCounted (s : State) (n q : Nat) (hon : Bool) : State := (s.cnt (NET_P_PAUSE_RX_COUNT n)).ev 0x2030 n q (b2n hon) 0

theorem State.pauseCounted_rd (s : State) (n q : Nat) (hon : Bool) :
    (s.pauseCounted n q hon).rd (NET_P_PAUSE_RX_COUNT n) = (s.cnt (NET_P_PAUSE_RX_COUNT n)).rd (NET_P_PAUSE_RX_COUNT n) :=
  State.ev_rd _ _ _ _ _ _ _

theorem State.pauseCounted_frame (s : State) (n q : Nat) (hon : Bool) : Frame [NET_P_PAUSE_RX_COUNT n] [.log] s (s.pauseCounted n q hon) :=
  ((Frame.refl _ _ s).wr (by simp)).ev (by simp)

theorem State.pauseCounted_tells {hon : Bool} (hs : Listens s) : Tells s (s.pauseCounted n q hon) 0x2030 n q (b2n hon) 0 :=
  Frame.tells ((Frame.refl [NET_P_PAUSE_RX_COUNT n] [] s).wr (by simp)) (by simp) hs

/-- With no pause running, a PAUSE frame that is honoured starts one at the end of the frame being sent. -/
theorem State.pauseFrame_honoured (hn : n < 4) (hh : s.is (NET_P_CFG_PAUSE_HON n) = true) (hp : (s.port n).pause = none) (hq : 0 < q) :
    s.pauseFrame n q = (s.pauseCounted n q true).setPort n { s.port n with
      pause := some (max s.mono (s.port n).txUntil, max s.mono (s.port n).txUntil + psU (q * 512 * s.bitPs n)) } := by
  have hbit : (s.pauseCounted n q true).bitPs n = s.bitPs n :=
    State.bitPs_congr ((s.pauseCounted_frame n q true).rd (portKey_notMem NET_P_CFG_MODE [NET_P_PAUSE_RX_COUNT] n))
      ((s.pauseCounted_frame n q true).rd (portKey_notMem NET_P_STAT_SPEED [NET_P_PAUSE_RX_COUNT] n))
  have hon : (decide (n < 4) && s.is (NET_P_CFG_PAUSE_HON n)) = true := by simp [hn, hh]
  have hport : (s.pauseCounted n q true).port n = s.port n := rfl
  have hmono : (s.pauseCounted n q true).mono = s.mono := rfl
  have counted : (s.cnt (NET_P_PAUSE_RX_COUNT n)).ev 0x2030 n q (b2n true) 0 = s.pauseCounted n q true := rfl
  simp only [State.pauseFrame, State.pauseSettle_none hp, hon, counted, hport, hp, hbit, hmono, if_neg (Nat.pos_iff_ne_zero.mp hq),
    Bool.not_true, Bool.false_eq_true, if_false]

theorem State.pauseFrame_ignored (hh : 4 ≤ n ∨ s.is (NET_P_CFG_PAUSE_HON n) = false) (hp : (s.port n).pause = none) :
    s.pauseFrame n q = s.pauseCounted n q false := by
  have hon : (decide (n < 4) && s.is (NET_P_CFG_PAUSE_HON n)) = false := by
    rcases hh with h | h
    · simp [Nat.not_lt.mpr h]
    · simp [h]
  unfold State.pauseFrame
  rw [State.pauseSettle_none hp, hon]
  rfl

theorem exec_pauseFrame (hup : s.portUp n = true) (hl : s.is (NET_P_STAT_LINK n) = true) (hq : q < 65536) :
    exec (.pauseFrame n q) s = done s (s.pauseFrame n q) := by
  have h : exec (.pauseFrame n q) s = done s (s.pauseFrame n (q % 65536)) := congrArg (done s) (if_pos (by simp [hup, hl]))
  rwa [Nat.mod_eq_of_lt hq] at h

theorem runs_pauseFrame_honoured (hup : s.portUp n = true) (hl : s.is (NET_P_STAT_LINK n) = true) (hn : n < 4)
    (hh : s.is (NET_P_CFG_PAUSE_HON n) = true) (hp : (s.port n).pause = none) (hq : 0 < q) (hq' : q < 65536) (hlen : s.ports.length = 6)
    (hs : Listens s) : Runs (.pauseFrame n q) s (fun t =>
      (t.port n).pause = some (max s.mono (s.port n).txUntil, max s.mono (s.port n).txUntil + psU (q * 512 * s.bitPs n))
      ∧ t.rd (NET_P_PAUSE_RX_COUNT n) = (s.cnt (NET_P_PAUSE_RX_COUNT n)).rd (NET_P_PAUSE_RX_COUNT n)
      ∧ Tells s t 0x2030 n q 1 0 ∧ Frame [NET_P_PAUSE_RX_COUNT n] [.ports, .log] s t) := by
  have hin : n < (s.pauseCounted n q true).ports.length := by
    show n < s.ports.length
    omega
  refine runs_done ((exec_pauseFrame hup hl hq').trans (congrArg (done s) (State.pauseFrame_honoured hn hh hp hq))) ⟨?_, ?_, ?_, ?_⟩
  · rw [State.finish_port, State.port_setPort_self _ hin]
  · rw [finish_rd, State.setPort_rd, State.pauseCounted_rd]
  · exact tells_finish (State.pauseCounted_tells (hon := true) hs)
  · exact (((s.pauseCounted_frame n q true).mono (fun _ h => h) (by simp)).setPort (by simp)).finish

theorem runs_pauseFrame_ignored (hup : s.portUp n = true) (hl : s.is (NET_P_STAT_LINK n) = true)
    (hh : 4 ≤ n ∨ s.is (NET_P_CFG_PAUSE_HON n) = false) (hp : (s.port n).pause = none) (hq : q < 65536) (hs : Listens s) :
    Runs (.pauseFrame n q) s (fun t => Tells s t 0x2030 n q 0 0
      ∧ t.rd (NET_P_PAUSE_RX_COUNT n) = (s.cnt (NET_P_PAUSE_RX_COUNT n)).rd (NET_P_PAUSE_RX_COUNT n)
      ∧ Frame [NET_P_PAUSE_RX_COUNT n] [.log] s t) :=
  runs_done ((exec_pauseFrame hup hl hq).trans (congrArg (done s) (State.pauseFrame_ignored hh hp)))
    ⟨tells_finish (State.pauseCounted_tells (hon := false) hs), s.pauseCounted_rd n q false, (s.pauseCounted_frame n q false).finish⟩

theorem State.waitUntil_frame (s : State) (x : Nat) : Frame [] [.time] s (s.waitUntil x) := (Frame.refl _ _ s).waitUntil (by simp)

theorem runs_pauseExpiry {f u : Nat} (hup : s.portUp n = true) (hp : (s.port n).pause = some (f, u)) :
    Runs (.pauseExpiry n) s (fun t => (t.port n).pause = none ∧ u ≤ t.mono
      ∧ t.rd (NET_P_PAUSE_US_COUNT n) = (s.cntN (NET_P_PAUSE_US_COUNT n) ((u - f) / (1000 * nsU))).rd (NET_P_PAUSE_US_COUNT n)
      ∧ Frame [NET_P_PAUSE_US_COUNT n] [.time, .ports] s t) := by
  have wait := s.waitUntil_frame u
  have hpw : ((s.waitUntil u).port n).pause = some (f, u) := by rw [State.waitUntil_port, hp]
  have settled : (s.waitUntil u).pauseSettle n = (s.waitUntil u).pauseEnd n f u := by
    simp only [State.pauseSettle, hpw, if_pos (s.waitUntil_reaches u)]
  have he : exec (.pauseExpiry n) s = done s ((s.waitUntil u).pauseEnd n f u) := by
    rw [← settled]
    refine congrArg (done s) ?_
    simp only [hp, hup, if_true]
  refine runs_done he ⟨?_, ?_, ?_, ?_⟩
  · exact (s.waitUntil u).port_setPort_blank Port.pause rfl
  · exact s.waitUntil_reaches u
  · exact State.cntN_rd_congr _ (wait.rd (by simp))
  · exact ((wait.mono (by simp) (by simp)).trans (((s.waitUntil u).pauseEnd_frame n f u).mono (fun _ h => h) (by simp))).finish

end

/-! ### Low-power idle -/

/-- The modes and speeds in which a trunk port may enter low-power idle. -/
theorem lpi_modes {m v : Nat} (h : (1 ≤ m ∧ m ≤ 3) ∨ (m = 5 ∧ v ≠ 0)) : (m == 1 || m == 2 || m == 3 || (m == 5 && v != 0)) = true := by
  rcases h with h | ⟨rfl, hv⟩
  · have : m = 1 ∨ m = 2 ∨ m = 3 := by omega
    rcases this with rfl | rfl | rfl <;> rfl
  · simp [hv]

theorem runs_lpiEntry {n : Nat} {s : State} (hup : s.portUp n = true) (hn : n < 4) (he : s.is (NET_P_CFG_EEE_EN n) = true)
    (hm : (1 ≤ s.portMode n ∧ s.portMode n ≤ 3) ∨ (s.portMode n = 5 ∧ s.rd (NET_P_STAT_SPEED n) ≠ 0)) (hl : s.is (NET_P_STAT_LINK n) = true)
    (ht : (s.port n).tx = []) (hi : s.is (NET_P_STAT_LPI_TX n) = false) :
    Runs (.lpiEntry n) s (fun t => t.rd (NET_P_STAT_LPI_TX n) = 1
      ∧ (s.port n).idleAt + s.eff (NET_P_EEE_IDLE n) * 1000 * nsU ≤ t.mono
      ∧ t.rd (NET_P_LPI_CNT_COUNT n) = (s.cnt (NET_P_LPI_CNT_COUNT n)).rd (NET_P_LPI_CNT_COUNT n)
      ∧ Frame [NET_P_STAT_LPI_TX n, NET_P_LPI_CNT_COUNT n] [.time] s t) := by
  have can := lpi_modes hm
  have wait := s.waitUntil_frame ((s.port n).idleAt + s.eff (NET_P_EEE_IDLE n) * 1000 * nsU)
  have hx : exec (.lpiEntry n) s = done s (((s.waitUntil ((s.port n).idleAt + s.eff (NET_P_EEE_IDLE n) * 1000 * nsU)).wr
      (NET_P_STAT_LPI_TX n) 1).cnt (NET_P_LPI_CNT_COUNT n)) :=
    congrArg (done s) (if_pos (by simp only [hup, hn, he, can, hl, ht, hi]; rfl))
  refine runs_done hx ⟨?_, ?_, ?_, ?_⟩
  · rw [finish_rd, State.cnt, State.cntN, State.rd_wr_ne _ _ _ _ (portKey_ne NET_P_LPI_CNT_COUNT NET_P_STAT_LPI_TX n), State.rd_wr_self]
    rfl
  · rw [finish_mono, State.cnt, State.cntN_mono, State.wr_mono]
    exact s.waitUntil_reaches _
  · rw [finish_rd]
    refine State.cnt_rd_congr ?_
    rw [State.rd_wr_ne _ _ _ _ (portKey_ne NET_P_STAT_LPI_TX NET_P_LPI_CNT_COUNT n), wait.rd (by simp)]
  · exact (((wait.mono (by simp) (by simp)).wr (by simp)).wr (by simp)).finish

/-! ### A flush begins -/

section
variable (s : State) (m : Master) (n : Nat)

/-- The fields of a flush and of the fill that it changes. -/
def discardFields (n : Nat) : List Field := [NET_P_FLUSHED_COUNT n, NET_P_FSTAT_THR n, NET_P_FSTAT_OVF n]

/-- The FIFO emptied, and what it held counted. -/
def State.fifoEmptied : State :=
  ((s.setPort n { s.port n with fifo := [] }).cntN (NET_P_FLUSHED_COUNT n) (s.port n).fifo.length).fifoLevel n

theorem State.fifoEmptied_frame : Frame (discardFields n) [.ports, .log] s (s.fifoEmptied n) :=
  (((Frame.refl _ _ s).setPort (by simp)).wr (by simp [discardFields])).trans
    ((State.fifoLevel_frame _ n).mono (by simp +contextual [discardFields]) (by simp))

theorem State.fifoEmptied_fifo : ((s.fifoEmptied n).port n).fifo = [] := by
  rw [State.fifoEmptied, State.fifoLevel_port]
  exact s.port_setPort_blank Port.fifo rfl

theorem State.fifoEmptied_length : (s.fifoEmptied n).ports.length = s.ports.length :=
  (congrArg List.length ((State.fifoLevel_frame _ n).2.2 .ports (by simp))).trans (length_setNth s.ports n _)

theorem State.fifoEmptied_rd : (s.fifoEmptied n).rd (NET_P_FLUSHED_COUNT n)
    = (s.cntN (NET_P_FLUSHED_COUNT n) (s.port n).fifo.length).rd (NET_P_FLUSHED_COUNT n) := by
  rw [State.fifoEmptied, (State.fifoLevel_frame _ n).rd (portKey_notMem NET_P_FLUSHED_COUNT [NET_P_FSTAT_THR, NET_P_FSTAT_OVF] n)]
  exact State.cntN_rd_congr _ rfl

/-- An accepted flush, its FIFO empty: neither done nor forced. -/
def State.flushBegun : State := (((s.served m).wr (NET_P_FSTAT_FLUSH_DONE n) 0).wr (NET_P_FSTAT_FORCED n) 0).fifoEmptied n

/-- The fields that an accepted flush writes before it is done or waits. -/
def flushFields (n : Nat) : List Field :=
  [NET_P_FSTAT_FLUSH_DONE n, NET_P_FSTAT_FORCED n, NET_P_FSTAT_THR n, NET_P_FSTAT_OVF n, NET_P_FLUSHED_COUNT n] ++ writeCounters

theorem State.flushBegun_frame : Frame (flushFields n) [.ports, .fab, .gate, .log] s (s.flushBegun m n) := by
  have served := (s.served_frame m).mono (gs := flushFields n) (qs := [.ports, .fab, .gate, .log]) (fun _ h => List.mem_append_right _ h) (by simp)
  exact ((served.wr (by simp [flushFields])).wr (by simp [flushFields])).trans
    ((State.fifoEmptied_frame _ n).mono (by simp +contextual [discardFields, flushFields]) (by simp))

theorem State.flushBegun_port : ((s.flushBegun m n).port n).fifo = [] := State.fifoEmptied_fifo _ n

theorem State.flushBegun_mono : (s.flushBegun m n).mono = s.mono := ((s.flushBegun_frame m n).2.2 .time (by simp)).2.1

variable {s m n}

theorem State.flushBegun_rd (hn : n < 6) : (s.flushBegun m n).rd (NET_P_FSTAT_FORCED n) = 0
    ∧ (s.flushBegun m n).rd (NET_P_FSTAT_FLUSH_DONE n) = 0
    ∧ (s.flushBegun m n).rd (NET_P_FLUSHED_COUNT n) = (s.cntN (NET_P_FLUSHED_COUNT n) (s.port n).fifo.length).rd (NET_P_FLUSHED_COUNT n) := by
  have discard := fun t : State => t.fifoEmptied_frame n
  unfold State.flushBegun
  refine ⟨?_, ?_, ?_⟩
  · rw [(discard _).rd (portKey_notMem NET_P_FSTAT_FORCED [NET_P_FLUSHED_COUNT, NET_P_FSTAT_THR, NET_P_FSTAT_OVF] n), State.rd_wr_self,
      Nat.zero_mod]
  · rw [(discard _).rd (portKey_notMem NET_P_FSTAT_FLUSH_DONE [NET_P_FLUSHED_COUNT, NET_P_FSTAT_THR, NET_P_FSTAT_OVF] n),
      State.rd_wr_ne _ _ _ _ (portKey_ne NET_P_FSTAT_FORCED NET_P_FSTAT_FLUSH_DONE n), State.rd_wr_self, Nat.zero_mod]
  · rw [State.fifoEmptied_rd, State.wr_port, State.wr_port, State.served_port]
    refine State.cntN_rd_congr _ ?_
    rw [State.rd_wr_ne _ _ _ _ (portKey_ne NET_P_FSTAT_FORCED NET_P_FLUSHED_COUNT n),
      State.rd_wr_ne _ _ _ _ (portKey_ne NET_P_FSTAT_FLUSH_DONE NET_P_FLUSHED_COUNT n),
      s.served_rd m (portKey_notMem_fixed NET_P_FLUSHED_COUNT writeCounters hn)]

theorem exec_fifoFlush {r : Bool} (hn : n < 6) (ha : Accepted s m (0x3101C + 0x200 * n)) (hb : s.is (NET_P_FSTAT_FLUSH_BUSY n) = false) :
    exec (.fifoFlush m n r) s = done s (if r then ((s.flushBegun m n).wr (NET_P_FSTAT_FLUSH_BUSY n) 1).setPort n { (s.flushBegun m n).port n with
        flushFrames := (s.port n).fifo.length, flushAt := (s.flushBegun m n).mono }
      else ((s.flushBegun m n).wr (NET_P_FSTAT_FLUSH_DONE n) 1).ev 0x2022 n (s.port n).fifo.length 0 0) := by
  have hb' : (s.served m).is (NET_P_FSTAT_FLUSH_BUSY n) = false := by
    rw [State.is, s.served_rd m (portKey_notMem_fixed NET_P_FSTAT_FLUSH_BUSY writeCounters hn)]
    exact hb
  have hlen : ((((s.served m).wr (NET_P_FSTAT_FLUSH_DONE n) 0).wr (NET_P_FSTAT_FORCED n) 0).port n).fifo.length = (s.port n).fifo.length := by
    rw [State.wr_port, State.wr_port, State.served_port]
  refine congrArg (done s) ((State.accessW_served ha).trans ((if_neg (by simp [hb'])).trans ?_))
  rw [← hlen]
  rfl

theorem runs_fifoFlush_idle (hn : n < 6) (ha : Accepted s m (0x3101C + 0x200 * n)) (hb : s.is (NET_P_FSTAT_FLUSH_BUSY n) = false) :
    Runs (.fifoFlush m n false) s (fun t => (t.port n).fifo = [] ∧ t.rd (NET_P_FSTAT_FLUSH_DONE n) = 1 ∧ t.rd (NET_P_FSTAT_FORCED n) = 0
      ∧ t.rd (NET_P_FLUSHED_COUNT n) = (s.cntN (NET_P_FLUSHED_COUNT n) (s.port n).fifo.length).rd (NET_P_FLUSHED_COUNT n)
      ∧ Frame (flushFields n) [.ports, .fab, .gate, .log] s t) := by
  obtain ⟨hforced, -, hcount⟩ := State.flushBegun_rd (s := s) (m := m) hn
  have he := exec_fifoFlush (r := false) hn ha hb
  rw [if_neg Bool.false_ne_true] at he
  refine runs_done he ⟨?_, ?_, ?_, ?_, ?_⟩
  · rw [State.finish_port, State.ev_port, State.wr_port, State.flushBegun_port]
  · rw [finish_rd, State.ev_rd, State.rd_wr_self]
    rfl
  · rw [finish_rd, State.ev_rd, State.rd_wr_ne _ _ _ _ (portKey_ne NET_P_FSTAT_FLUSH_DONE NET_P_FSTAT_FORCED n), hforced]
  · rw [finish_rd, State.ev_rd, State.rd_wr_ne _ _ _ _ (portKey_ne NET_P_FSTAT_FLUSH_DONE NET_P_FLUSHED_COUNT n), hcount]
  · exact (((s.flushBegun_frame m n).wr (by simp [flushFields])).ev (by simp)).finish

theorem runs_fifoFlush_receiving (hn : n < 6) (ha : Accepted s m (0x3101C + 0x200 * n)) (hb : s.is (NET_P_FSTAT_FLUSH_BUSY n) = false)
    (hlen : s.ports.length = 6) :
    Runs (.fifoFlush m n true) s (fun t => (t.port n).fifo = [] ∧ t.rd (NET_P_FSTAT_FLUSH_BUSY n) = 1 ∧ t.rd (NET_P_FSTAT_FLUSH_DONE n) = 0
      ∧ (t.port n).flushFrames = (s.port n).fifo.length ∧ (t.port n).flushAt = s.mono) := by
  obtain ⟨-, hdone, -⟩ := State.flushBegun_rd (s := s) (m := m) hn
  have hports : (s.flushBegun m n).ports.length = 6 := by
    rw [State.flushBegun, State.fifoEmptied_length]
    simpa [State.served] using hlen
  have hin : n < ((s.flushBegun m n).wr (NET_P_FSTAT_FLUSH_BUSY n) 1).ports.length := by
    rw [State.wr_ports]
    omega
  have hset := State.port_setPort_self ((s.flushBegun m n).wr (NET_P_FSTAT_FLUSH_BUSY n) 1) (p := { (s.flushBegun m n).port n with
    flushFrames := (s.port n).fifo.length, flushAt := (s.flushBegun m n).mono }) hin
  have he := exec_fifoFlush (r := true) hn ha hb
  rw [if_pos rfl] at he
  refine runs_done he ⟨?_, ?_, ?_, ?_, ?_⟩
  · rw [State.finish_port, hset, State.flushBegun_port]
  · rw [finish_rd, State.setPort_rd, State.rd_wr_self]
    rfl
  · rw [finish_rd, State.setPort_rd, State.rd_wr_ne _ _ _ _ (portKey_ne NET_P_FSTAT_FLUSH_BUSY NET_P_FSTAT_FLUSH_DONE n), hdone]
  · rw [State.finish_port, hset]
  · rw [State.finish_port, hset, State.flushBegun_mono]

end

/-! ### A flush ends -/

section
variable {s : State} {n w : Nat}

theorem runs_flushComplete (hup : s.portUp n = true) (hb : s.is (NET_P_FSTAT_FLUSH_BUSY n) = true) (hs : Listens s) (hd : s.mono ≤ s.flushDue n) :
    Runs (.flushComplete n w) s (fun t => t.rd (NET_P_FSTAT_FLUSH_BUSY n) = 0 ∧ t.rd (NET_P_FSTAT_FLUSH_DONE n) = 1
      ∧ t.rd (NET_P_FLUSHED_COUNT n) = (s.cnt (NET_P_FLUSHED_COUNT n)).rd (NET_P_FLUSHED_COUNT n)
      ∧ Tells s t 0x2022 n ((s.port n).flushFrames + 1) w 0
      ∧ Frame [NET_P_FSTAT_FLUSH_BUSY n, NET_P_FSTAT_FLUSH_DONE n, NET_P_FLUSHED_COUNT n] [.log] s t) := by
  have he : exec (.flushComplete n w) s = done s ((((s.wr (NET_P_FSTAT_FLUSH_BUSY n) 0).wr (NET_P_FSTAT_FLUSH_DONE n) 1).cnt
      (NET_P_FLUSHED_COUNT n)).ev 0x2022 n ((s.port n).flushFrames + 1) w 0) :=
    congrArg (done s) ((if_pos (by simp [hup, hb])).trans (if_neg (Nat.not_lt.mpr hd)))
  have frame : ∀ ps, Frame [NET_P_FSTAT_FLUSH_BUSY n, NET_P_FSTAT_FLUSH_DONE n, NET_P_FLUSHED_COUNT n] ps s
      (((s.wr (NET_P_FSTAT_FLUSH_BUSY n) 0).wr (NET_P_FSTAT_FLUSH_DONE n) 1).cnt (NET_P_FLUSHED_COUNT n)) :=
    fun ps => (((Frame.refl _ ps s).wr (by simp)).wr (by simp)).wr (by simp)
  refine runs_done he ⟨?_, ?_, ?_, tells_finish ((frame []).tells (by simp) hs), ((frame [.log]).ev (by simp)).finish⟩
  · rw [finish_rd, State.ev_rd, State.cnt, State.cntN, State.rd_wr_ne _ _ _ _ (portKey_ne NET_P_FLUSHED_COUNT NET_P_FSTAT_FLUSH_BUSY n),
      State.rd_wr_ne _ _ _ _ (portKey_ne NET_P_FSTAT_FLUSH_DONE NET_P_FSTAT_FLUSH_BUSY n), State.rd_wr_self, Nat.zero_mod]
  · rw [finish_rd, State.ev_rd, State.cnt, State.cntN, State.rd_wr_ne _ _ _ _ (portKey_ne NET_P_FLUSHED_COUNT NET_P_FSTAT_FLUSH_DONE n),
      State.rd_wr_self]
    rfl
  · rw [finish_rd, State.ev_rd]
    refine State.cnt_rd_congr ?_
    rw [State.rd_wr_ne _ _ _ _ (portKey_ne NET_P_FSTAT_FLUSH_DONE NET_P_FLUSHED_COUNT n),
      State.rd_wr_ne _ _ _ _ (portKey_ne NET_P_FSTAT_FLUSH_BUSY NET_P_FLUSHED_COUNT n)]

/-- The receive MAC has been reset: the flush is done, by force. -/
def State.flushForcedFields (s : State) (n : Nat) : State :=
  (((s.wr (NET_P_FSTAT_FLUSH_BUSY n) 0).wr (NET_P_FSTAT_FLUSH_DONE n) 1).wr (NET_P_FSTAT_FORCED n) 1).cnt (NET_P_FLUSHED_COUNT n)

theorem State.flushForce_eq (s : State) (n w : Nat) : s.flushForce n w = (s.flushForcedFields n).ev 0x2023 n w 0 0 := rfl

theorem State.flushForcedFields_mono (s : State) (n : Nat) : (s.flushForcedFields n).mono = s.mono := (rfl)

theorem State.flushForcedFields_rd (s : State) (n : Nat) : (s.flushForcedFields n).rd (NET_P_FSTAT_FLUSH_BUSY n) = 0
    ∧ (s.flushForcedFields n).rd (NET_P_FSTAT_FLUSH_DONE n) = 1 ∧ (s.flushForcedFields n).rd (NET_P_FSTAT_FORCED n) = 1 := by
  unfold State.flushForcedFields State.cnt State.cntN
  refine ⟨?_, ?_, ?_⟩
  · rw [State.rd_wr_ne _ _ _ _ (portKey_ne NET_P_FLUSHED_COUNT NET_P_FSTAT_FLUSH_BUSY n),
      State.rd_wr_ne _ _ _ _ (portKey_ne NET_P_FSTAT_FORCED NET_P_FSTAT_FLUSH_BUSY n),
      State.rd_wr_ne _ _ _ _ (portKey_ne NET_P_FSTAT_FLUSH_DONE NET_P_FSTAT_FLUSH_BUSY n), State.rd_wr_self, Nat.zero_mod]
  · rw [State.rd_wr_ne _ _ _ _ (portKey_ne NET_P_FLUSHED_COUNT NET_P_FSTAT_FLUSH_DONE n),
      State.rd_wr_ne _ _ _ _ (portKey_ne NET_P_FSTAT_FORCED NET_P_FSTAT_FLUSH_DONE n), State.rd_wr_self]
    rfl
  · rw [State.rd_wr_ne _ _ _ _ (portKey_ne NET_P_FLUSHED_COUNT NET_P_FSTAT_FORCED n), State.rd_wr_self]
    rfl

theorem runs_flushForced (hup : s.portUp n = true) (hb : s.is (NET_P_FSTAT_FLUSH_BUSY n) = true) (hs : Listens s) :
    Runs (.flushForced n w) s (fun t => s.flushDue n ≤ t.mono ∧ t.rd (NET_P_FSTAT_FLUSH_BUSY n) = 0 ∧ t.rd (NET_P_FSTAT_FLUSH_DONE n) = 1
      ∧ t.rd (NET_P_FSTAT_FORCED n) = 1 ∧ Tells s t 0x2023 n w 0 0
      ∧ Frame [NET_P_FSTAT_FLUSH_BUSY n, NET_P_FSTAT_FLUSH_DONE n, NET_P_FSTAT_FORCED n, NET_P_FLUSHED_COUNT n] [.time, .log] s t) := by
  have he : exec (.flushForced n w) s = done s (((s.waitUntil (s.flushDue n)).flushForcedFields n).ev 0x2023 n w 0 0) :=
    congrArg (done s) ((if_pos (by simp [hup, hb])).trans (State.flushForce_eq _ n w))
  obtain ⟨hbusy, hdone, hforced⟩ := (s.waitUntil (s.flushDue n)).flushForcedFields_rd n
  have frame : ∀ ps, Part.time ∈ ps → Frame [NET_P_FSTAT_FLUSH_BUSY n, NET_P_FSTAT_FLUSH_DONE n, NET_P_FSTAT_FORCED n, NET_P_FLUSHED_COUNT n] ps s
      ((s.waitUntil (s.flushDue n)).flushForcedFields n) :=
    fun ps ht => (((((Frame.refl _ ps s).waitUntil ht).wr (by simp)).wr (by simp)).wr (by simp)).wr (by simp)
  refine runs_done he ?_
  simp only [finish_mono, finish_rd, State.ev_mono, State.ev_rd, State.flushForcedFields_mono]
  exact ⟨s.waitUntil_reaches _, hbusy, hdone, hforced,
    tells_finish ((frame [.time] (by simp)).tells (by simp) hs), ((frame [.time, .log] (by simp)).ev (by simp)).finish⟩

end

/-- Settles O29: each clause is the equation of its command on the state that meets its hypotheses, read field by field. -/
theorem pauseIdleFlush : Obligations.PauseIdleFlush :=
  ⟨fun _ _ _ hup hl hn hh hp hq hq' hlen hs => runs_pauseFrame_honoured hup hl hn hh hp hq hq' hlen hs,
    fun _ _ _ hup hl hh hp hq hs => runs_pauseFrame_ignored hup hl hh hp hq hs,
    fun _ _ _ _ hup hp => runs_pauseExpiry hup hp,
    fun _ _ hup hn he hm hl ht hi => runs_lpiEntry hup hn he hm hl ht hi,
    fun _ _ _ hn ha hb => runs_fifoFlush_idle hn ha hb,
    fun _ _ _ hn ha hb hlen => runs_fifoFlush_receiving hn ha hb hlen,
    fun _ _ _ hup hb hs => ⟨fun hd => runs_flushComplete hup hb hs hd, runs_flushForced hup hb hs⟩⟩

end Sys2Proof.Machine
end

section
/-! PROOF. Transmission, collisions, PLCA and the time-stamp queue (R103, R120, R126, R127, R129). -/

namespace Sys2Proof.Machine

/-! ### The transmit buffer takes what is held -/

/-- Frames held for a buffer change nothing of the port but the buffer and what is still held. -/
theorem acceptFrom_eq (cap src : Nat) (l : List TxFrame) (p : Port) : ∃ tx held, acceptFrom cap src l p = { p with tx := tx, held := held } := by
  induction l generalizing p with
  | nil => exact ⟨p.tx, p.held, rfl⟩
  | cons f r ih =>
    unfold acceptFrom
    split
    · exact ih _
    · split
      · exact ih _
      · exact ih _

theorem Port.accept_eq (n : Nat) (p : Port) : ∃ tx held, Port.accept n p = { p with tx := tx, held := held } := by
  have pass : ∀ src (q : Port), ∃ tx held, acceptFrom (txCap n) src q.held { q with held := [] } = { q with tx := tx, held := held } :=
    fun src q => acceptFrom_eq (txCap n) src q.held { q with held := [] }
  obtain ⟨t1, h1, e1⟩ := pass 1 p
  obtain ⟨t2, h2, e2⟩ := pass 2 { p with tx := t1, held := h1 }
  obtain ⟨t3, h3, e3⟩ := pass 3 { p with tx := t2, held := h2 }
  exact ⟨t3, h3, by simp only [Port.accept, List.foldl_cons, List.foldl_nil, e1, e2, e3]⟩

/-- With nothing held, the buffer is as it was. -/
theorem Port.accept_none (n : Nat) {p : Port} (h : p.held = []) : Port.accept n p = p := by
  have pass : ∀ src, acceptFrom (txCap n) src p.held { p with held := [] } = p := fun src => by rw [h, acceptFrom, ← h]
  simp only [Port.accept, List.foldl_cons, List.foldl_nil, pass]

/-! ### A frame leaves -/

section
variable {s : State} {n : Nat}

theorem State.ptpDue_none (h : ([1, 2].all fun d => !(s.domEn d && s.domPort d == n && decide ((s.ptpTx d).due ≤ s.mono))) = true) :
    s.ptpDue n = s := by
  have idle : [1, 2].filter (fun d => s.domEn d && s.domPort d == n && decide ((s.ptpTx d).due ≤ s.mono)) = [] := by
    rw [List.filter_eq_nil_iff]
    intro d hd
    have := List.all_eq_true.mp h d hd
    simpa only [Bool.not_eq_true', Bool.not_eq_true] using this
  rw [State.ptpDue, idle]
  rfl

/-- The bytes of a frame as they leave, but for a one-step insertion: padded, with the port's address and the checksums. -/
def State.txBytes (s : State) (n : Nat) (f : TxFrame) : List Byte :=
  insertSums f.c37 (patch (f.bytes ++ zeros (60 - f.bytes.length)) 6 (beBytes 6 ((s.slotAddr n 0).getD 0)))

/-- The counters of the frames and bytes that a port has sent, with its low-power flag, which a frame clears. -/
def txFields (n : Nat) : List Field :=
  [NET_P_STAT_LPI_TX n, NET_P_TX_OK_LO_COUNT n, NET_P_TX_OK_HI_COUNT n, NET_P_TX_BYTES_LO_COUNT n, NET_P_TX_BYTES_HI_COUNT n]

/-- A port that has sent a frame of `len` bytes, with what it then holds. -/
def State.sent (s : State) (n : Nat) (q : Port) (len : Nat) : State :=
  ((((s.setPort n q).wr (NET_P_STAT_LPI_TX n) 0).cntPair (NET_P_TX_OK_LO_COUNT n) (NET_P_TX_OK_HI_COUNT n) 1).cntPair
    (NET_P_TX_BYTES_LO_COUNT n) (NET_P_TX_BYTES_HI_COUNT n) len)

theorem State.sent_frame (s : State) (n : Nat) (q : Port) (len : Nat) : Frame (txFields n) [.ports] s (s.sent n q len) :=
  ((((Frame.refl _ _ s).setPort (by simp)).wr (by simp [txFields])).cntPair (by simp [txFields]) (by simp [txFields])).cntPair
    (by simp [txFields]) (by simp [txFields])

theorem State.sent_mono (s : State) (n : Nat) (q : Port) (len : Nat) : (s.sent n q len).mono = s.mono := (rfl)

theorem State.sent_port (s : State) (q : Port) (len : Nat) (h : n < s.ports.length) : (s.sent n q len).port n = q :=
  s.port_setPort_self h

theorem State.sent_rd (s : State) (n : Nat) (q : Port) (len : Nat) :
    (s.sent n q len).rd (NET_P_TX_OK_LO_COUNT n) + (s.sent n q len).rd (NET_P_TX_OK_HI_COUNT n) * 2 ^ 32
      = (s.rd (NET_P_TX_OK_LO_COUNT n) + s.rd (NET_P_TX_OK_HI_COUNT n) * 2 ^ 32 + 1) % 2 ^ 64 := by
  have bytes := fun t : State => t.cntPair_frame (NET_P_TX_BYTES_LO_COUNT n) (NET_P_TX_BYTES_HI_COUNT n) len
  unfold State.sent
  rw [(bytes _).rd (portKey_notMem NET_P_TX_OK_LO_COUNT [NET_P_TX_BYTES_LO_COUNT, NET_P_TX_BYTES_HI_COUNT] n),
    (bytes _).rd (portKey_notMem NET_P_TX_OK_HI_COUNT [NET_P_TX_BYTES_LO_COUNT, NET_P_TX_BYTES_HI_COUNT] n),
    State.cntPair_rd _ 1 (portKey_ne NET_P_TX_OK_LO_COUNT NET_P_TX_OK_HI_COUNT n) rfl rfl,
    State.rd_wr_ne _ _ _ _ (portKey_ne NET_P_STAT_LPI_TX NET_P_TX_OK_LO_COUNT n),
    State.rd_wr_ne _ _ _ _ (portKey_ne NET_P_STAT_LPI_TX NET_P_TX_OK_HI_COUNT n), State.setPort_rd, State.setPort_rd]

/-- A frame that is no PTP message leaves with its bytes and their FCS, and no stamp is kept of it. -/
theorem State.txSend_plain (s : State) (n o : Nat) {f : TxFrame} (r : List TxFrame) (hp : isPtp (s.txBytes n f) = false)
    (ho : f.oneStep = false) : ∃ q, s.txSend n o f r = s.sent n q ((s.txBytes n f).length + 4)
      ∧ q.lastSent = s.txBytes n f ++ frameFcs (s.txBytes n f) ∧ q.cols = 0 := by
  have one : (f.oneStep || s.oneStep n (s.txBytes n f)) = false := by simp [ho, State.oneStep, hp]
  have event : ptpEvent (s.txBytes n f) = false := by simp [ptpEvent, hp]
  have accepted : ∀ p : Port, (Port.accept n p).lastSent = p.lastSent ∧ (Port.accept n p).cols = p.cols := fun p => by
    obtain ⟨tx, held, e⟩ := Port.accept_eq n p
    rw [e]
    exact ⟨rfl, rfl⟩
  have bytes : insertSums f.c37 (patch (f.bytes ++ zeros (60 - f.bytes.length)) 6 (beBytes 6 ((s.slotAddr n 0).getD 0))) = s.txBytes n f := rfl
  refine ⟨Port.accept n ?left, ?_, (accepted ?left).1.trans ?_, (accepted ?left).2.trans ?_⟩
  rotate_left
  · simp only [State.txSend, bytes, one, event, Bool.false_eq_true, if_false, Bool.false_and]
    rfl
  · rfl
  · rfl

theorem State.waitUntil_txBytes (s : State) (x n : Nat) (f : TxFrame) : (s.waitUntil x).txBytes n f = s.txBytes n f := by
  have hslot : (s.waitUntil x).slotAddr n 0 = s.slotAddr n 0 := by simp [State.slotAddr, State.is]
  rw [State.txBytes, State.txBytes, hslot]

/-- With its turn come, and nothing before it, the head frame is sent. -/
theorem exec_frameTransmit {o : Nat} {f : TxFrame} {r : List TxFrame} (hup : s.portUp n = true) (hl : s.is (NET_P_STAT_LINK n) = true)
    (ht : (s.port n).tx = f :: r) (hst : s.stationOk n = true) (hw : s.plcaWaits n = false) (hp : (s.port n).pause = none)
    (hd : s.ptpDue n = s) : exec (.frameTransmit n o) s = done s ((s.waitUntil (s.txStart n)).txSend n o f r) := by
  have linked : ¬ (!s.portUp n || !s.is (NET_P_STAT_LINK n)) = true := by simp [hup, hl]
  have station : ¬ (!s.stationOk n) = true := by simp [hst]
  have settled : (s.waitUntil (s.txStart n)).pauseSettle n = s.waitUntil (s.txStart n) :=
    State.pauseSettle_none (by rw [State.waitUntil_port, hp])
  show execFrameTransmit n o s = _
  rw [execFrameTransmit, if_neg linked, if_neg station, if_neg (by simp [hw])]
  simp only [hd, ht, settled]

theorem runs_frameTransmit {o : Nat} {f : TxFrame} {r : List TxFrame} (hup : s.portUp n = true) (hl : s.is (NET_P_STAT_LINK n) = true)
    (ht : (s.port n).tx = f :: r) (hst : s.stationOk n = true) (hw : s.plcaWaits n = false) (hp : (s.port n).pause = none)
    (hd : s.ptpDue n = s) (hb : isPtp (s.txBytes n f) = false) (ho : f.oneStep = false) :
    Runs (.frameTransmit n o) s (fun t => s.txStart n ≤ t.mono ∧ (t.port n).lastSent = s.txBytes n f ++ frameFcs (s.txBytes n f)
      ∧ (t.port n).cols = 0
      ∧ t.rd (NET_P_TX_OK_LO_COUNT n) + t.rd (NET_P_TX_OK_HI_COUNT n) * 2 ^ 32
          = (s.rd (NET_P_TX_OK_LO_COUNT n) + s.rd (NET_P_TX_OK_HI_COUNT n) * 2 ^ 32 + 1) % 2 ^ 64
      ∧ Frame (txFields n) [.time, .ports] s t) := by
  obtain ⟨q, he, hsent, hcols⟩ := (s.waitUntil (s.txStart n)).txSend_plain n o r (f := f) (by rw [State.waitUntil_txBytes, hb]) ho
  rw [State.waitUntil_txBytes] at he hsent
  have hin : n < (s.waitUntil (s.txStart n)).ports.length := by
    rw [State.waitUntil_ports]
    exact State.port_lt_of_tx ht
  have wait := s.waitUntil_frame (s.txStart n)
  refine runs_done ((exec_frameTransmit hup hl ht hst hw hp hd).trans (congrArg (done s) he)) ⟨?_, ?_, ?_, ?_, ?_⟩
  · rw [finish_mono, State.sent_mono]
    exact s.waitUntil_reaches _
  · rw [State.finish_port, State.sent_port _ _ _ hin, hsent]
  · rw [State.finish_port, State.sent_port _ _ _ hin, hcols]
  · rw [finish_rd, finish_rd, State.sent_rd, State.waitUntil_rd, State.waitUntil_rd]
  · exact ((wait.mono (by simp) (by simp)).trans ((State.sent_frame _ n q _).mono (fun _ h => h) (by simp))).finish

/-- Without a station address the whole buffer is dropped, each frame with its event. -/
theorem runs_frameTransmit_noStation {o : Nat} {f : TxFrame} {r : List TxFrame} (hup : s.portUp n = true)
    (hl : s.is (NET_P_STAT_LINK n) = true) (ht : (s.port n).tx = f :: r) (hst : s.stationOk n = false) (hs : Listens s) :
    Runs (.frameTransmit n o) s (fun t => (t.port n).tx = [] ∧ (t.port n).held = []
      ∧ (r = [] → (s.port n).held = [] → Tells s t 0x2060 n f.src (max (f.bytes.length + 4) 64) 0)
      ∧ Frame [NET_P_TXDROP_COUNT n] [.ports, .log] s t) := by
  have he : exec (.frameTransmit n o) s = done s (s.txFlush n) :=
    congrArg (done s) ((if_neg (by simp [hup, hl])).trans (if_pos (by simp [hst])))
  obtain ⟨htx, hheld⟩ := s.txFlush_empty n
  refine runs_done he ⟨htx, hheld, fun hr hh => ?_, (s.txFlush_frame n).finish⟩
  have one : s.txFlush n = (s.setPort n (s.port n).dropTx).txDrop n f := by
    rw [State.txFlush_eq, ht, hr, hh]
    rfl
  have dropped : Frame [NET_P_TXDROP_COUNT n] [.ports] s ((s.setPort n (s.port n).dropTx).cnt (NET_P_TXDROP_COUNT n)) :=
    ((Frame.refl _ _ s).setPort (by simp)).wr (by simp)
  rw [one]
  exact tells_finish (dropped.tells (by simp) hs)

end

/-! ### Collisions -/

/-- A port that jams after a collision, 32 bits long. -/
def Port.jammed (p : Port) (now : Nat) : Port := { p with txUntil := now + fieldBits 32, idleAt := now + fieldBits 32 }

/-- A port that has given up the head frame of its buffer. -/
def Port.gaveUp (p : Port) (r : List TxFrame) : Port := { p with tx := r, cols := 0, backoffUntil := 0 }

/-- A collision counted, and the frame dropped under a second counter. -/
def State.colDropped (s : State) (n : Nat) (r : List TxFrame) (c : Field) : State :=
  ((s.cnt (NET_P_COL_COUNT n)).setPort n (((s.port n).jammed s.mono).gaveUp r)).cnt c

theorem fieldBits_jam : fieldBits 32 = psU 3200000 := rfl
theorem fieldBits_slot : fieldBits 512 = psU 51200000 := rfl

section
variable {s : State} {n b : Nat} {f : TxFrame} {r : List TxFrame}

theorem State.colDropped_frame (s : State) (n : Nat) (r : List TxFrame) (c : Field) :
    Frame [NET_P_COL_COUNT n, c] [.ports] s (s.colDropped n r c) :=
  (((Frame.refl _ _ s).wr (by simp)).setPort (by simp)).wr (by simp)

theorem State.colDropped_port (r : List TxFrame) (c : Field) (ht : (s.port n).tx = f :: r) :
    ((s.colDropped n r c).port n).cols = 0 ∧ ((s.colDropped n r c).port n).tx = r := by
  have hport : (s.colDropped n r c).port n = ((s.port n).jammed s.mono).gaveUp r :=
    (s.cnt (NET_P_COL_COUNT n)).port_setPort_self (State.port_lt_of_tx ht)
  rw [hport]
  exact ⟨rfl, rfl⟩

theorem exec_collision_late (hup : s.portUp n = true) (hc : s.csma n = true) (hl : s.is (NET_P_STAT_LINK n) = true)
    (ht : (s.port n).tx = f :: r) (hb : 512 < b) (hh : (s.port n).held = []) :
    exec (.collision n b) s = done s ((s.colDropped n r (NET_P_LATECOL_COUNT n)).ev 0x2041 n b 0 0) := by
  have linked : (!s.portUp n || !s.csma n || !s.is (NET_P_STAT_LINK n)) = false := by simp [hup, hc, hl]
  have kept : Port.accept n (((s.port n).jammed s.mono).gaveUp r) = ((s.port n).jammed s.mono).gaveUp r := Port.accept_none n hh
  rw [State.colDropped, ← kept]
  show execCollision n b s = _
  simp only [execCollision, ht, linked, hb, if_true, Bool.false_eq_true, if_false]
  rfl

theorem exec_collision_excessive (hup : s.portUp n = true) (hc : s.csma n = true) (hl : s.is (NET_P_STAT_LINK n) = true)
    (ht : (s.port n).tx = f :: r) (hb : b ≤ 512) (hcols : (s.port n).cols = 15) (hh : (s.port n).held = []) :
    exec (.collision n b) s = done s ((s.colDropped n r (NET_P_EXCOL_COUNT n)).ev 0x2040 n (max (f.bytes.length + 4) 64) 0 0) := by
  have linked : (!s.portUp n || !s.csma n || !s.is (NET_P_STAT_LINK n)) = false := by simp [hup, hc, hl]
  have kept : Port.accept n (((s.port n).jammed s.mono).gaveUp r) = ((s.port n).jammed s.mono).gaveUp r := Port.accept_none n hh
  rw [State.colDropped, ← kept]
  show execCollision n b s = _
  simp only [execCollision, ht, linked, Nat.not_lt.mpr hb, hcols, if_true, Bool.false_eq_true, if_false]
  rfl

/-- The port after a collision that it retries, `v` slot times after the jam. -/
def Port.backedOff (p : Port) (now v : Nat) : Port :=
  { p.jammed now with cols := p.cols + 1, backoffUntil := now + fieldBits 32 + v * fieldBits 512 }

theorem exec_collision_retry (hup : s.portUp n = true) (hc : s.csma n = true) (hl : s.is (NET_P_STAT_LINK n) = true)
    (ht : (s.port n).tx = f :: r) (hb : b ≤ 512) (hcols : (s.port n).cols + 1 ≠ 16) :
    exec (.collision n b) s = done s ((s.cnt (NET_P_COL_COUNT n)).draw.2.setPort n
      ((s.port n).backedOff s.mono ((s.cnt (NET_P_COL_COUNT n)).draw.1 % 2 ^ min ((s.port n).cols + 1) 10))) := by
  have linked : (!s.portUp n || !s.csma n || !s.is (NET_P_STAT_LINK n)) = false := by simp [hup, hc, hl]
  show execCollision n b s = _
  simp only [execCollision, ht, linked, Nat.not_lt.mpr hb, hcols, Bool.false_eq_true, if_false, Port.backedOff, Port.jammed]

/-- A draw of fewer than `2 ^ m` slot times, each of `k`, lies within the backoff's range. -/
theorem backoff_range (v m k : Nat) : v % 2 ^ m * k ≤ (2 ^ m - 1) * k :=
  Nat.mul_le_mul_right k (Nat.le_sub_one_of_lt (Nat.mod_lt v (Nat.two_pow_pos m)))

theorem runs_collision_retry (hup : s.portUp n = true) (hc : s.csma n = true) (hl : s.is (NET_P_STAT_LINK n) = true)
    (ht : (s.port n).tx = f :: r) (hb : b ≤ 512) (hcols : (s.port n).cols + 1 ≠ 16) :
    Runs (.collision n b) s (fun t => (t.port n).cols = (s.port n).cols + 1 ∧ (t.port n).tx = f :: r
      ∧ s.mono + psU 3200000 ≤ (t.port n).backoffUntil
      ∧ (t.port n).backoffUntil ≤ s.mono + psU 3200000 + (2 ^ min ((s.port n).cols + 1) 10 - 1) * psU 51200000
      ∧ t.rd (NET_P_COL_COUNT n) = (s.cnt (NET_P_COL_COUNT n)).rd (NET_P_COL_COUNT n) ∧ Frame [NET_P_COL_COUNT n] [.free, .ports] s t) := by
  refine runs_done (exec_collision_retry hup hc hl ht hb hcols) ?_
  generalize (s.cnt (NET_P_COL_COUNT n)).draw.1 = v
  have hport := State.port_setPort_self (s.cnt (NET_P_COL_COUNT n)).draw.2 (n := n)
    (p := (s.port n).backedOff s.mono (v % 2 ^ min ((s.port n).cols + 1) 10)) (State.port_lt_of_tx (s := s) ht)
  have range := backoff_range v (min ((s.port n).cols + 1) 10) (psU 51200000)
  rw [State.finish_port, hport, Port.backedOff, fieldBits_jam, fieldBits_slot]
  exact ⟨rfl, ht, Nat.le_add_right _ _, Nat.add_le_add_left range _, rfl,
    ((((Frame.refl _ _ s).wr (by simp)).draw (by simp)).setPort (by simp)).finish⟩

theorem runs_collision_late (hup : s.portUp n = true) (hc : s.csma n = true) (hl : s.is (NET_P_STAT_LINK n) = true)
    (ht : (s.port n).tx = f :: r) (hb : 512 < b) (hh : (s.port n).held = []) (hs : Listens s) :
    Runs (.collision n b) s (fun t => (t.port n).cols = 0 ∧ (t.port n).tx = r ∧ Tells s t 0x2041 n b 0 0
      ∧ Frame [NET_P_COL_COUNT n, NET_P_LATECOL_COUNT n] [.ports, .log] s t) := by
  have dropped := s.colDropped_frame n r (NET_P_LATECOL_COUNT n)
  obtain ⟨hcols, htx⟩ := State.colDropped_port r (NET_P_LATECOL_COUNT n) ht
  exact runs_done (exec_collision_late hup hc hl ht hb hh) ⟨hcols, htx, tells_finish (dropped.tells (by simp) hs),
    ((dropped.mono (fun _ h => h) (by simp)).ev (by simp)).finish⟩

theorem runs_collision_excessive (hup : s.portUp n = true) (hc : s.csma n = true) (hl : s.is (NET_P_STAT_LINK n) = true)
    (ht : (s.port n).tx = f :: r) (hb : b ≤ 512) (hcols : (s.port n).cols = 15) (hh : (s.port n).held = []) (hs : Listens s) :
    Runs (.collision n b) s (fun t => (t.port n).cols = 0 ∧ (t.port n).tx = r ∧ Tells s t 0x2040 n (max (f.bytes.length + 4) 64) 0 0
      ∧ Frame [NET_P_COL_COUNT n, NET_P_EXCOL_COUNT n] [.ports, .log] s t) := by
  have dropped := s.colDropped_frame n r (NET_P_EXCOL_COUNT n)
  obtain ⟨hzero, htx⟩ := State.colDropped_port r (NET_P_EXCOL_COUNT n) ht
  exact runs_done (exec_collision_excessive hup hc hl ht hb hcols hh) ⟨hzero, htx, tells_finish (dropped.tells (by simp) hs),
    ((dropped.mono (fun _ h => h) (by simp)).ev (by simp)).finish⟩

theorem runs_backoffExpiry (hup : s.portUp n = true) (hb : (s.port n).backoffUntil ≠ 0) :
    Runs (.backoffExpiry n) s (fun t => (t.port n).backoffUntil = 0 ∧ (s.port n).backoffUntil ≤ t.mono ∧ Frame [] [.time, .ports] s t) := by
  have he : exec (.backoffExpiry n) s = done s ((s.waitUntil (s.port n).backoffUntil).setPort n
      { (s.waitUntil (s.port n).backoffUntil).port n with backoffUntil := 0 }) := congrArg (done s) (if_pos (by simp [hup, hb]))
  refine runs_done he ⟨?_, ?_, (((Frame.refl _ _ s).waitUntil (by simp)).setPort (by simp)).finish⟩
  · exact State.port_setPort_blank _ Port.backoffUntil rfl
  · rw [finish_mono, State.setPort_mono]
    exact s.waitUntil_reaches _

end

/-! ### PLCA -/

section
variable {s : State} {n : Nat}

/-- The fall back to CSMA/CD in the port's registers. -/
def State.plcaLost (s : State) (n : Nat) : State := (s.wr (NET_P_STAT_PLCA_ACT n) 0).cnt (NET_P_PLCA_FALLBK_COUNT n)

/-- A follower falls back, with its event. -/
def State.fallBack (s : State) (n : Nat) : State :=
  let t := (s.plcaLost n).ev 0x2042 n (s.rd (NET_P_PLCA_NODE_ID n)) 0 0
  t.setPort n { t.port n with plcaLostAt := t.mono, fell := true, burst := 0 }

theorem State.fallBack_frame (s : State) (n : Nat) :
    Frame [NET_P_STAT_PLCA_ACT n, NET_P_PLCA_FALLBK_COUNT n] [.ports, .log] s (s.fallBack n) :=
  ((((Frame.refl _ _ s).wr (by simp)).wr (by simp)).ev (by simp)).setPort (by simp)

theorem State.fallBack_rd (s : State) (n : Nat) : (s.fallBack n).rd (NET_P_STAT_PLCA_ACT n) = 0 := by
  rw [State.fallBack, State.setPort_rd, State.ev_rd, State.plcaLost, State.cnt, State.cntN,
    State.rd_wr_ne _ _ _ _ (portKey_ne NET_P_PLCA_FALLBK_COUNT NET_P_STAT_PLCA_ACT n), State.rd_wr_self, Nat.zero_mod]

theorem State.fallBack_fell (s : State) (h : n < s.ports.length) : ((s.fallBack n).port n).fell = true :=
  congrArg Port.fell (State.port_setPort_self _ h)

theorem State.fallBack_mono (s : State) (n : Nat) : (s.fallBack n).mono = s.mono := (rfl)

theorem State.fallBack_tells {w : State} (hw : Frame [] [.time] s w) (hs : Listens s) :
    Tells s (w.fallBack n) 0x2042 n (s.rd (NET_P_PLCA_NODE_ID n)) 0 0 := by
  have lost : Frame [NET_P_STAT_PLCA_ACT n, NET_P_PLCA_FALLBK_COUNT n] [.time] s (w.plcaLost n) :=
    ((hw.mono (by simp) (fun _ h => h)).wr (by simp)).wr (by simp)
  rw [← hw.rd (g := NET_P_PLCA_NODE_ID n) (by simp)]
  exact lost.tells (by simp) hs

theorem exec_beaconTimeout (hup : s.portUp n = true) (hm : s.portMode n = 9) (hl : s.is (NET_P_STAT_LINK n) = true)
    (hid : s.rd (NET_P_PLCA_NODE_ID n) ≠ 0) (hf : (s.port n).fell = false) :
    exec (.beaconTimeout n) s = done s ((s.waitUntil ((s.port n).lastBeacon + 400000 * nsU)).fallBack n) :=
  congrArg (done s) (if_pos (by simp [hup, hm, hl, hid, hf]))

theorem runs_beaconTimeout (hup : s.portUp n = true) (hm : s.portMode n = 9) (hl : s.is (NET_P_STAT_LINK n) = true)
    (hid : s.rd (NET_P_PLCA_NODE_ID n) ≠ 0) (hf : (s.port n).fell = false) (hlen : s.ports.length = 6) (hs : Listens s) :
    Runs (.beaconTimeout n) s (fun t => t.rd (NET_P_STAT_PLCA_ACT n) = 0 ∧ (t.port n).fell = true
      ∧ (s.port n).lastBeacon + 400000 * nsU ≤ t.mono
      ∧ Tells s t 0x2042 n (s.rd (NET_P_PLCA_NODE_ID n)) 0 0
      ∧ Frame [NET_P_STAT_PLCA_ACT n, NET_P_PLCA_FALLBK_COUNT n] [.time, .ports, .log] s t) := by
  have hin : n < (s.waitUntil ((s.port n).lastBeacon + 400000 * nsU)).ports.length := by
    rw [State.waitUntil_ports, hlen]
    exact State.portUp_lt hup
  have wait := s.waitUntil_frame ((s.port n).lastBeacon + 400000 * nsU)
  refine runs_done (exec_beaconTimeout hup hm hl hid hf) ⟨?_, ?_, ?_, tells_finish (State.fallBack_tells wait hs), ?_⟩
  · rw [finish_rd, State.fallBack_rd]
  · rw [State.finish_port, State.fallBack_fell _ hin]
  · rw [finish_mono, State.fallBack_mono]
    exact s.waitUntil_reaches _
  · exact ((wait.mono (by simp) (by simp)).trans ((State.fallBack_frame _ n).mono (fun _ h => h) (by simp))).finish

theorem runs_beaconReceived (hup : s.portUp n = true) (hm : s.portMode n = 9) (hl : s.is (NET_P_STAT_LINK n) = true)
    (hid : s.rd (NET_P_PLCA_NODE_ID n) ≠ 0) (ha : s.is (NET_P_STAT_PLCA_ACT n) = false) (hs : Listens s) :
    Runs (.beaconReceived n) s (fun t => t.rd (NET_P_STAT_PLCA_ACT n) = 1 ∧ (t.port n).fell = false
      ∧ Tells s t 0x2043 n (s.usSince (s.port n).plcaLostAt) 0 0 ∧ Frame [NET_P_STAT_PLCA_ACT n] [.ports, .log] s t) := by
  have he : exec (.beaconReceived n) s = done s (((s.setPort n { s.port n with lastBeacon := s.mono, fell := false, burst := 0 }).wr
      (NET_P_STAT_PLCA_ACT n) 1).ev 0x2043 n (s.usSince (s.port n).plcaLostAt) 0 0) :=
    congrArg (done s) ((if_neg (by simp [hup, hm, hl])).trans ((if_neg hid).trans (if_neg (by simp [ha]))))
  have heard : Frame [NET_P_STAT_PLCA_ACT n] [.ports] s ((s.setPort n { s.port n with lastBeacon := s.mono, fell := false, burst := 0 }).wr
      (NET_P_STAT_PLCA_ACT n) 1) := ((Frame.refl _ _ s).setPort (by simp)).wr (by simp)
  refine runs_done he ⟨?_, ?_, tells_finish (heard.tells (by simp) hs), ((heard.mono (fun _ h => h) (by simp)).ev (by simp)).finish⟩
  · rw [finish_rd, State.ev_rd, State.rd_wr_self]
    rfl
  · exact s.port_setPort_blank Port.fell rfl

/-! ### The time-stamp queues -/

/-- The head of a queue is gone, and with the last item the mark of what was dropped. -/
def State.tsqPopped (s : State) (n : Nat) : State :=
  let q := s.tsQ n
  let items := q.items.drop 1
  s.setTsQ n { q with items := items, dropped := q.dropped && !items.isEmpty }

theorem State.tsQ_setTsQ (s : State) (n k : Nat) (q : TsQueue) :
    (s.setTsQ n q).tsQ k = if n = k ∧ n < s.tns.tsq.length then q else s.tsQ k := nth_setNth s.tns.tsq n k q _

/-- A queue that the list does not hold is empty, with nothing to take from it. -/
theorem State.tsqPopped_tsQ (s : State) (n : Nat) :
    ((s.tsqPopped n).tsQ n).items = (s.tsQ n).items.drop 1 ∧ ((s.tsqPopped n).tsQ n).seq = (s.tsQ n).seq := by
  rw [State.tsqPopped, State.tsQ_setTsQ]
  split
  · exact ⟨rfl, rfl⟩
  · rename_i hn
    have hout : s.tsQ n = ⟨[], 0, false⟩ := nth_of_length_le _ _ _ (by simpa using hn)
    rw [hout]
    exact ⟨rfl, rfl⟩

theorem runs_tsqPop {m : Master} (ha : Accepted s m (0x20218 + 0x20 * n)) :
    Runs (.tsqPop m n) s (fun t => (t.tsQ n).items = (s.tsQ n).items.drop 1 ∧ (t.tsQ n).seq = (s.tsQ n).seq
      ∧ Frame writeCounters [.fab, .gate, .tns] s t) := by
  have hq : (s.served m).tsQ n = s.tsQ n := by simp [State.tsQ, State.served]
  have he : exec (.tsqPop m n) s = done s ((s.served m).tsqPopped n) := congrArg (done s) (State.accessW_served ha)
  have popped := (s.served m).tsqPopped_tsQ n
  rw [hq] at popped
  exact runs_done he ⟨popped.1, popped.2, (((s.served_frame m).mono (fun _ h => h) (by simp)).setTsQ (by simp)).finish⟩

end

/-- Settles O30: what leaves is the model's own frame with nothing inserted, a collision is one of three ends of the head frame, and each
timer is a wait for its instant. -/
theorem transmissionAndCollisions : Obligations.TransmissionAndCollisions := by
  refine ⟨fun n o f r bs s hup hl ht hst hw hp hd hbs hb ho => ?_,
    fun _ _ _ _ _ hup hl ht hst hs => runs_frameTransmit_noStation hup hl ht hst hs,
    fun _ _ _ _ _ hup hc hl ht => ⟨fun hb hcols => runs_collision_retry hup hc hl ht hb hcols,
      fun hb hh hs => runs_collision_late hup hc hl ht hb hh hs, fun hb hcols hh hs => runs_collision_excessive hup hc hl ht hb hcols hh hs⟩,
    fun _ _ hup hb => runs_backoffExpiry hup hb,
    fun _ _ hup hm hl hid hf hlen hs => runs_beaconTimeout hup hm hl hid hf hlen hs,
    fun _ _ hup hm hl hid ha hs => runs_beaconReceived hup hm hl hid ha hs, fun _ _ _ _ ha => runs_tsqPop ha⟩
  subst hbs
  exact runs_frameTransmit hup hl ht hst hw hp (State.ptpDue_none hd) hb ho

end Sys2Proof.Machine
end
